-- ==== Sys2Proof/Word.lean ====
section
/-! DEFINITION. Word.lean: the word types of the Jenfel T8 and the bounded numbers that name its parts. -/
namespace Sys2Proof

/-- One byte of stored memory. -/
abbrev Byte := BitVec 8
/-- A 32-bit word: a register, a scalar register, a vector lane. -/
abbrev W32 := BitVec 32
/-- A 64-bit word: an instruction word, a page table entry. -/
abbrev W64 := BitVec 64

/-- A compute die, 0 to 7 (R10). -/
abbrev Die := Fin 8
/-- A physical core site of a die, 0 to 383 (R12). -/
abbrev Site := Fin 384
/-- A partition slot, 0 to 7 (R251). -/
abbrev Slot := Fin 8
/-- A Flidric port, 0 to 15 (R298). -/
abbrev Port := Fin 16
/-- A PCI Express function: 0 is the physical function, k is virtual function k (R393). -/
abbrev Func := Fin 9

/-- A physical core site of the module. -/
structure CoreId where
  die  : Die
  site : Site
  deriving DecidableEq, Repr

/-- A finite table from numbers to values, in rising order of its keys; a key that is not listed holds the default
that each reader names. -/
abbrev Tab (α : Type) := List (Nat × α)

end Sys2Proof
end

