-- ==== Sys2Proof/Syntax.lean ====
section
/-! DEFINITION. Syntax.lean: the commands that the module takes, one constructor for each row of the table of operations
and events, with their operands, and the content of a segment image that a LOAD reads. -/
namespace Sys2Proof

/-! The sections of a segment image, as records (R117). The header, the section entries and the PLACEMENT masks are read
from memory by the LOAD; the spec gives the byte layout of no other section, so their records come with the command (log
entry 21). `placement` is the section entry's PLACEMENT; `die` is the image die. -/

/-- A program store's contents and entry points (PROGRAMS), and the extents of the tiles and products that it works on. -/
structure ProgSec where
  placement : Nat
  die : Nat
  core : Nat
  entries : List Nat
  words : List W64
  extents : List Nat
  deriving DecidableEq, Repr

/-- A task descriptor, bytes 0 to 39, and its successor list (TASK_GRAPH). -/
structure TaskSec where
  placement : Nat
  die : Nat
  desc : List Byte
  succ : List W64
  deriving DecidableEq, Repr

/-- What an operand of format TASK writes in a buffer: the format class, the number of elements, and whether the buffer takes their
element bytes and their scale bytes (R42). -/
structure TaskBuf where
  cls : Nat
  count : Nat
  elems : Bool
  scales : Bool
  deriving DecidableEq, Repr

/-- A buffer (BUFFER_MAP): kind 0 core SRAM, 1 shadow region, 2 DEFER region, 3 paged, 4 hold area, 5 paged and pinned (weights,
terraces, program stores); `entry` is its shadow table entry; `base` a core address or a device virtual address; `phys` the
physical address of a paged buffer's pages where they are not mapped yet, in tier 0 with the image die and a logical core in place
of die and site (R13); `home` the virtual address of a persistent buffer's home; `task` what an operand of format TASK writes there. -/
structure BufSec where
  placement : Nat
  die : Nat
  core : Nat
  kind : Nat
  entry : Nat
  base : Nat
  length : Nat
  alias_ : Nat
  phys : Nat
  home : Option Nat
  contents : List Byte
  task : Option TaskBuf
  deriving DecidableEq, Repr

/-- A stream or gather descriptor of 32 B at a place of a die's table (STREAM_DESC, GATHER_DESC). -/
structure DescSec where
  placement : Nat
  die : Nat
  index : Nat
  bytes : List Byte
  deriving DecidableEq, Repr

/-- A stage's terraces (TERRACE). -/
structure TerrSec where
  placement : Nat
  stage : Nat
  base : Nat
  size : Nat
  stash : Nat
  deriving DecidableEq, Repr

/-- A cycle estimate (ESTIMATES). -/
structure EstSec where
  placement : Nat
  die : Nat
  core : Nat
  cycles : Nat
  deriving DecidableEq, Repr

/-- Values of a format class (FMT_CLASSES). -/
structure ClsSec where
  placement : Nat
  index : Nat
  a : W32
  b : W32
  deriving DecidableEq, Repr

/-- Initial values of a work counter (COUNTERS). -/
structure CntSec where
  placement : Nat
  die : Nat
  counter : Nat
  value : W32
  limit : W32
  base : W32
  cfg : W32
  deriving DecidableEq, Repr

/-- The shard range of an image (BUFFER_MAP): its first address and pages, the physical address of its generation table, and the
generations (R238). -/
structure GenSec where
  placement : Nat
  va : Nat
  pages : Nat
  table : Nat
  values : List Nat
  deriving DecidableEq, Repr

/-- The sections of an image. -/
structure Image where
  progs : List ProgSec
  tasks : List TaskSec
  bufs : List BufSec
  streams : List DescSec
  gathers : List DescSec
  terrs : List TerrSec
  ests : List EstSec
  classes : List ClsSec
  counters : List CntSec
  gens : List GenSec
  deriving DecidableEq, Repr, Inhabited

/-- The commands of the module, one constructor for each row of the table of operations and events, in its order. A core
instruction names the site that runs it, an arrival the place of its token among those in flight, a host command the writing
function, the page by slot, die, tract or port, and its sequence tag. -/
inductive Instr where
  /-- LI (R85): Writes the 32-bit immediate into the destination register. -/
  | li (c : CoreId)
  /-- ADD (R85): Adds two 32-bit sources modulo 2^32 into the destination. -/
  | add (c : CoreId)
  /-- SUB (R85): Subtracts two 32-bit sources modulo 2^32 into the destination. -/
  | sub (c : CoreId)
  /-- AND (R85): Bitwise AND of two sources into the destination. -/
  | and (c : CoreId)
  /-- OR (R85): Bitwise OR of two sources into the destination. -/
  | or (c : CoreId)
  /-- SHL (R85): Logical left shift by bits [4:0] of the second source. -/
  | shl (c : CoreId)
  /-- SHR (R85): Logical right shift by bits [4:0] of the second source. -/
  | shr (c : CoreId)
  /-- CMP (R85): Writes 1 if the selected signed or unsigned condition holds, else 0. -/
  | cmp (c : CoreId)
  /-- BR (R86): Branches unconditionally by a signed instruction offset. -/
  | br (c : CoreId)
  /-- BZ (R86): Branches if the tested register is zero. -/
  | bz (c : CoreId)
  /-- BNZ (R86): Branches if the tested register is not zero. -/
  | bnz (c : CoreId)
  /-- CALL (R86): Pushes the return index on the return stack and branches. -/
  | call (c : CoreId)
  /-- RET (R86): Pops the return stack and branches to the popped index. -/
  | ret (c : CoreId)
  /-- VLD (R88): Loads a vector or one word from core SRAM or the core-control window, waiting on ready flags. -/
  | vld (c : CoreId)
  /-- VST (R88): Stores a vector or one word to core SRAM or the core-control window under the lane mask. -/
  | vst (c : CoreId)
  /-- VADD (R87): Lane-wise addition in the selected type. -/
  | vadd (c : CoreId)
  /-- VMUL (R87): Lane-wise multiplication in the selected type. -/
  | vmul (c : CoreId)
  /-- VMAX (R87): Lane-wise IEEE maximum or signed integer maximum. -/
  | vmax (c : CoreId)
  /-- VFMA (R87): Lane-wise fused multiply-add with one rounding. -/
  | vfma (c : CoreId)
  /-- VRED (R87): Reduces enabled lanes in a fixed binary tree into a scalar register. -/
  | vred (c : CoreId)
  /-- VEXP (R87): Lane-wise exponential within 2 ulp. -/
  | vexp (c : CoreId)
  /-- VRSQ (R87): Lane-wise reciprocal square root within 2 ulp. -/
  | vrsq (c : CoreId)
  /-- VTANH (R87): Lane-wise hyperbolic tangent within 2 ulp. -/
  | vtanh (c : CoreId)
  /-- VCVT (R89): Converts 64 FP32 lanes to a destination format with block or fixed scale and counts SAT, NZ and UF. -/
  | vcvt (c : CoreId)
  /-- LATCH (R90): Reads operands and places a LATCH into the array queue. -/
  | latch (c : CoreId)
  /-- LATCH_BEGIN (R50): A queued LATCH whose conditions hold reads input vectors into a free bank and makes it ready. -/
  | latchBegin (c : CoreId)
  /-- STREAM (R51): Reads operands and places a LOAD or REUSE STREAM into the array queue. -/
  | stream (c : CoreId)
  /-- STREAM_FILL (R51): The fill of a queued STREAM LOAD starts once feeder entries are free and its source range is ready, and forms the check vector. -/
  | streamFill (c : CoreId)
  /-- STREAM_BEGIN (R52): A STREAM whose conditions hold moves its weight vectors and check beats through the array into the basin. -/
  | streamBegin (c : CoreId)
  /-- MERGE (R66): The merge unit carries a BALANCED group's landing rows up the spill levels after an odd chunk. -/
  | merge (c : CoreId)
  /-- OPEN (R90): Reads operands and places an OPEN into the array queue. -/
  | openOp (c : CoreId)
  /-- OPEN_BEGIN (R63): Takes Nt free basin rows, clears the check bank and opens the group. -/
  | openBegin (c : CoreId)
  /-- CHK (R90): Places a CHK into the array queue. -/
  | chk (c : CoreId)
  /-- CHK_BEGIN (R60): Runs the check pass over the group's lines against tolerance. -/
  | chkBegin (c : CoreId)
  /-- DRAIN (R90): Places a DRAIN into the array queue. -/
  | drain (c : CoreId)
  /-- DRAIN_BEGIN (R71): Optionally checks, then writes the group's valid entries, merges amax, reports refused count and closes the group. -/
  | drainBegin (c : CoreId)
  /-- SEND (R91): Snapshots the payload and enters a DATA or CONTROL token into the send queue, or defers it. -/
  | send (c : CoreId)
  /-- SEND_TRANSMIT (R94): A queued token is transmitted flit by flit as credits allow. -/
  | sendTransmit (c : CoreId)
  /-- RECV (R101): Takes the fire record of a rule and slot and writes its VALUE, stalling until one exists. -/
  | recv (c : CoreId)
  /-- STEER (R99): Loads a switchback rule from a rule descriptor once the rule is idle, or defers it. -/
  | steer (c : CoreId)
  /-- CLAIM (R180): Sends a fetch-and-add request to a work counter's home and waits for the index. -/
  | claim (c : CoreId)
  /-- WAIT (R103): Waits for a semaphore to reach COUNT and subtracts it, or for a range to be ready. -/
  | wait (c : CoreId)
  /-- SIGNAL (R104): Adds COUNT to a semaphore of a target core with release meaning, or defers it. -/
  | signal (c : CoreId)
  /-- FENCE (R105): Starts a fence of scope CORE, DIE, PART or NODE. -/
  | fence (c : CoreId)
  /-- FENCE_COMPLETE (R105): A fence completes when its accesses and deliveries are done and invalidates the gather caches of its scope. -/
  | fenceComplete (c : CoreId)
  /-- END (R93): Waits for the task's array work and deliveries, applies the END test and reports the task. -/
  | endOp (c : CoreId)
  /-- YIELD (R93): Waits for array work, saves the task's registers and returns it to the ready state. -/
  | yield (c : CoreId)
  /-- DATA_TOKEN_ARRIVE (R100): A DATA token is written into its rule's slot area as its flits arrive, after epoch check. -/
  | dataTokenArrive (n : Nat)
  /-- CONTROL_TOKEN_ARRIVE (R100): A CONTROL token arrives at a rule for a slot. -/
  | controlTokenArrive (n : Nat)
  /-- SIGNAL_TOKEN_ARRIVE (R103): A SIGNAL token adds to a semaphore, saturating. -/
  | signalTokenArrive (n : Nat)
  /-- CLAIM_REQUEST (R180): The counter home serves a claim with VALUE or the exhausted response. -/
  | claimRequest (n : Nat)
  /-- CLAIM_RESPONSE (R180): The claimed index arrives at the core and completes the CLAIM. -/
  | claimResponse (n : Nat)
  /-- TASK_DISPATCH (R163): The slice dispatches the READY context with the smallest deadline to its idle core, sending START on AHEAD out-edges. -/
  | taskDispatch (d : Die) (l : Fin 360)
  /-- DISPATCH (R177): A core receives a DISPATCH token and sets up the task's registers. -/
  | dispatch (n : Nat)
  /-- TASK_RESUME (R177): A core receives a RESUME token and continues a yielded task. -/
  | taskResume (n : Nat)
  /-- ENDED (R177): The slice receives a core's ENDED report and commits, ends or escalates the task. -/
  | ended (n : Nat)
  /-- YIELDED (R177): The slice receives a yielded run record and requeues the task. -/
  | yielded (n : Nat)
  /-- TASK_DISCARD (R170): A core receives DISCARD and drops the attempt's work, shadows and deferrals. -/
  | taskDiscard (n : Nat)
  /-- CONFIRM (R167): A core receives CONFIRM and releases the task's deferred effects as at commit. -/
  | confirm (n : Nat)
  /-- TASK_COMMIT (R170): Commits a task: flips shadows, advances the terrace head, releases deferrals and takes successor entries. -/
  | taskCommit (n : Nat)
  /-- DEP_SATISFY (R176): A SATISFY DEP token decrements a target's DCUR. -/
  | depSatisfy (n : Nat)
  /-- DEP_START (R166): An AHEAD START satisfies a consumer and counts its producer. -/
  | depStart (n : Nat)
  /-- DEP_COMMIT (R166): An AHEAD COMMIT decrements PCUR, committing or confirming the consumer at zero. -/
  | depCommit (n : Nat)
  /-- DEP_DISCARD (R166): An AHEAD DISCARD discards the consumer and makes it HARD. -/
  | depDiscard (n : Nat)
  /-- DEP_FAULT (R178): A FAULT notice discards the sample's FORWARD and BACKWARD contexts on the die. -/
  | depFault (n : Nat)
  /-- DEADLINE_MISS (R165): TICK_CYCLE passes an unfinished task's deadline and the miss is recorded. -/
  | deadlineMiss (d : Die) (i : BitVec 13)
  /-- DIE_DONE (R130): A die whose released work has committed or been discarded sends DONE for the tick. -/
  | dieDone (d : Die) (cycles : BitVec 22)
  /-- TICK_DONE_RECEIVE (R130): The leader records a die's DONE with its thermal extension and flags. -/
  | tickDoneReceive (n : Nat)
  /-- TICK_MARKER_EMIT (R130): Once the count reaches TICK_LEN plus extension and every DONE is present, the leader emits the next marker. -/
  | tickMarkerEmit (k : Slot) (extra : Nat)
  /-- MARKER_RELAY (R134): A follower generator relays a received marker to its receivers and resets its silence count. -/
  | markerRelay (n : Nat)
  /-- TICK_START (R133): ALIGN cycles after emission a die checks rules, exposes the tick number and releases the tick's tasks. -/
  | tickStart (d : Die)
  /-- TICK_OVERRUN (R135): The count reaches TICK_LEN plus extension with a DONE missing; the policy applies. -/
  | tickOverrun (k : Slot)
  /-- STRETCH_LIMIT_EXPIRY (R135): The extra wait of a stretched tick reaches STRETCH_LIMIT and the partition halts. -/
  | stretchLimitExpiry (k : Slot)
  /-- MARKER_MISSED (R139): A follower hears no marker for its limit, raises PEER_LOST and halts. -/
  | markerMissed (k : Slot)
  /-- ARMED (R150): The leader receives ARMED from a follower and starts tick 0 once all are in. -/
  | armed (n : Nat)
  /-- PAUSE (R138): A die's PAUSE stops the leader's count. -/
  | pause (n : Nat)
  /-- TICK_RESUME (R138): RESUME from every die lets the leader resume counting from the residue. -/
  | tickResume (n : Nat)
  /-- STOP_COMPLETE (R147): At a window boundary with every die EMPTY the leader stops, sets STOPPED and clears ENABLE. -/
  | stopComplete (k : Slot)
  /-- START (R154): Starts or arms a loaded partition's tick generator. -/
  | start (fn : Func) (k : Slot) (tag : BitVec 16)
  /-- STOP (R154): Requests a stop at the next window boundary. -/
  | stop (fn : Func) (k : Slot) (tag : BitVec 16)
  /-- EPOCH_SET (R154): Sets the configuration epoch on every die of the partition. -/
  | epochSet (fn : Func) (k : Slot) (tag : BitVec 16)
  /-- TCK_CALIBRATE (R154): Measures marker and DONE latencies and sets ALIGN and GUARD. -/
  | tckCalibrate (fn : Func) (k : Slot) (tag : BitVec 16)
  /-- SUBMIT (R186): Releases a range of SUBMITTED contexts at the next tick boundary. -/
  | submit (fn : Func) (d : Die) (tag : BitVec 16)
  /-- CORE_SWAP (R451): Requests that a tract slot move to the reserve site, optionally retiring the vacated site. -/
  | coreSwap (fn : Func) (d : Die) (t : Fin 24) (tag : BitVec 16)
  /-- CORE_SWAP_APPLY (R15): At a window boundary or at once on a stopped partition the remap changes, state is copied and tier-0 entries rewritten. -/
  | coreSwapApply (d : Die) (t : Fin 24)
  /-- LOAD (R119): Checks a segment image and lays it down, optionally starting the tick. -/
  | load (fn : Func) (k : Slot) (im : Image) (tag : BitVec 16)
  /-- HALT (R258): Stops every die as for pre-emption and pauses the tick. -/
  | halt (fn : Func) (k : Slot) (tag : BitVec 16)
  /-- RESUME (R259): Continues a partition halted for a resumable cause. -/
  | resume (fn : Func) (k : Slot) (tag : BitVec 16)
  /-- CTX_SAVE (R267): Pre-empts and saves the CURRENT job into its context area. -/
  | ctxSave (fn : Func) (k : Slot) (tag : BitVec 16)
  /-- CTX_RESTORE (R271): Restores a SAVED job, or makes an EMPTY job current on wiped dies. -/
  | ctxRestore (fn : Func) (k : Slot) (tag : BitVec 16)
  /-- WIPE (R279): Performs a partition reset and makes job 0 current. -/
  | wipe (fn : Func) (k : Slot) (tag : BitVec 16)
  /-- LAYOUT (R255): Wipes the module and applies a new partition layout. -/
  | layout (fn : Func) (tag : BitVec 16)
  /-- TIMETABLE_ENTRY_END (R263): An entry's job completes DURATION ticks and the unit picks the next entry's job. -/
  | timetableEntryEnd (k : Slot)
  /-- IDLE_ENTRY_EXPIRY (R263): An IDLE entry's DURATION × IDLE_UNIT cycles elapse. -/
  | idleEntryExpiry (k : Slot)
  /-- PREEMPT_TIMEOUT (R267): A core not stopped within 1,024 cycles abandons the save and halts the partition. -/
  | preemptTimeout (c : CoreId)
  /-- SAVE_BEGIN (R268): Once every memory tag is free the save writes core, die and hub records and live frames. -/
  | saveBegin (k : Slot)
  /-- SAMPLER_SAMPLE (R274): Every INTERVAL cycles the sampler bins queue depths and BUSY for every core.
  `links` are, for output link i of logical core l at 4 * l + i, the flits that time holds back there (log entry 65). -/
  | samplerSample (d : Die) (links : List Nat)
  /-- CLEAR (R284): Zeroes the die's histograms, BUSY counts and SAMPLES between samples. -/
  | clear (fn : Func) (d : Die) (tag : BitVec 16)
  /-- INIT (R219): Starts translation afresh with a new table area and sets ENABLE. -/
  | init (fn : Func) (d : Die) (tag : BitVec 16)
  /-- REGION (R219): Creates or changes a region's L1 entry and its tables. -/
  | region (fn : Func) (d : Die) (tag : BitVec 16)
  /-- MAP (R219): Maps pages explicitly or as created zero pages. -/
  | map (fn : Func) (d : Die) (tag : BitVec 16)
  /-- UNMAP (R219): Frees pages after their memory tags are released. -/
  | unmap (fn : Func) (d : Die) (tag : BitVec 16)
  /-- ATTR (R219): Sets and clears page attribute bits. -/
  | attr (fn : Func) (d : Die) (tag : BitVec 16)
  /-- MIGRATE (R219): Moves pages to a tier and stack. -/
  | migrate (fn : Func) (d : Die) (tag : BitVec 16)
  /-- WALK (R219): Returns a page table entry in WALK_LO and WALK_HI. -/
  | walk (fn : Func) (d : Die) (tag : BitVec 16)
  /-- POOL (R219): Adds or removes a pool extent. -/
  | pool (fn : Func) (d : Die) (tag : BitVec 16)
  /-- QUOTA (R219): Sets a job's page quota. -/
  | quota (fn : Func) (d : Die) (tag : BitVec 16)
  /-- MIGRATOR_SWEEP (R209): Every AGE_PERIOD ms the migrator ages unpinned pages. -/
  | migratorSweep (k : Slot)
  /-- DEMOTION (R210): With a pool below its low mark the migrator demotes the oldest pages until the high mark. -/
  | demotion (k : Slot)
  /-- PAGE_SWITCH (R213): A page in transit has its entry switched and old sectors freed after cache drops. -/
  | pageSwitch (k : Slot) (vpn : BitVec 32)
  /-- MEM_CALIBRATE (R223): Re-calibrates the stack, stalling its accesses for about 50 µs. -/
  | memCalibrate (fn : Func) (d : Die) (tag : BitVec 16)
  /-- STM_ARM (R245): Host arms a stream descriptor with an arm index and sample. -/
  | stmArm (fn : Func) (d : Die) (tag : BitVec 16)
  /-- GCH_ARM (R249): Host arms a gather descriptor with a sample. -/
  | gchArm (fn : Func) (d : Die) (tag : BitVec 16)
  /-- STM_RESTART (R245): Ends the halt of a stream descriptor. -/
  | stmRestart (fn : Func) (d : Die) (tag : BitVec 16)
  /-- GCH_RESTART (R249): Ends the halt of a gather descriptor. -/
  | gchRestart (fn : Func) (d : Die) (tag : BitVec 16)
  /-- INVALIDATE (R249): Ends the die's gather epoch. -/
  | invalidate (fn : Func) (d : Die) (tag : BitVec 16)
  /-- STREAM_ARM_START (R227): An arm starts moving its bytes once a place is free, issuing run-ahead reads. -/
  | streamArmStart (d : Die) (i : BitVec 10)
  /-- GATHER_ARM_START (R235): A gather arm reads its index list and fetches rows through the cache. -/
  | gatherArmStart (d : Die) (i : BitVec 10)
  /-- ARM_COMPLETE (R230): When every write is performed the arm completes and runs its completion action; a shadowed arm starts. -/
  | armComplete (d : Die) (g : Bool) (i : BitVec 10)
  /-- POST (R327): Host posts once to a collective operation. -/
  | post (fn : Func) (k : Slot) (tag : BitVec 16)
  /-- GROUP_WRITE (R327): Writes a group table entry in one change and clears BROKEN. -/
  | groupWrite (fn : Func) (k : Slot) (tag : BitVec 16)
  /-- COLL_DATA_SEGMENT (R313): A DATA segment is received, reduced or stored and forwarded along the ring. -/
  | collDataSegment (p : Port)
  /-- COLL_GRANT (R315): A GRANT segment gives byte credit for a run. -/
  | collGrant (p : Port)
  /-- COLL_BARRIER (R314): A BARRIER segment passes the ring. -/
  | collBarrier (p : Port)
  /-- COLLECTIVE_RUN_COMPLETE (R316): A run completes, advances generations and runs its completion action. -/
  | collectiveRunComplete (k : Slot) (op : BitVec 12)
  /-- FLIT_RECEIVE (R301): A Flidric flit is checked, accepted in order or discarded with NAK. -/
  | flitReceive (p : Port) (bytes : List Byte)
  /-- NAK_REPLAY (R301): A received NAK makes the sender replay from ACK + 1. -/
  | nakReplay (p : Port)
  /-- HEARTBEAT_SEND (R302): A port sends a heartbeat at least every 1 µs. -/
  | heartbeatSend (p : Port)
  /-- HEARTBEAT_TIMEOUT (R302): No heartbeat for 64 µs raises LINK_DOWN and possibly PEER_LOST. -/
  | heartbeatTimeout (p : Port)
  /-- FLIDRIC_TOKEN_ARRIVE (R307): A whole token received on a port enters the owning slot or is refused. -/
  | flidricTokenArrive (p : Port)
  /-- LINK_RETRAIN (R322): Retrains a Flidric port. -/
  | linkRetrain (fn : Func) (p : Port) (tag : BitVec 16)
  /-- MAINT_SET (R304): Setting FLD.CTRL.MAINT puts the port in maintenance. -/
  | maintSet (fn : Func) (p : Port)
  /-- SADDLE_FLIT_REPLAY (R295): A saddle flit with bad CRC is replayed until received. -/
  | saddleFlitReplay (saddle : Fin 12)
  /-- CKPT_BEGIN (R339): Arms a checkpoint of the current job's named regions. -/
  | ckptBegin (fn : Func) (k : Slot) (tag : BitVec 16)
  /-- CKPT_CANCEL (R359): Cancels a copying checkpoint and clears its COW bits. -/
  | ckptCancel (fn : Func) (k : Slot) (tag : BitVec 16)
  /-- CHECKPOINT_HOLD (R341): At the snapshot point writes the record, copies tier-0 pages and sets COW before the next window. -/
  | checkpointHold (k : Slot)
  /-- COW_COPY (R342): The background copier copies a protected page and clears its COW. -/
  | cowCopy (k : Slot)
  /-- CKPT_COPY (R346): A COPY segment is written into the held area. -/
  | ckptCopy (p : Port)
  /-- CKPT_ACK (R346): An ACK confirms a buddy copy of a page. -/
  | ckptAck (p : Port)
  /-- CRC_REQ (R346): Returns CRC-64 values of listed pages. -/
  | crcReq (p : Port)
  /-- CRC_RSP (R346): Delivers requested page CRCs. -/
  | crcRsp (p : Port)
  /-- PAGE_REQ (R346): Returns a live page of the current job. -/
  | pageReq (p : Port)
  /-- PAGE_RSP (R346): Delivers a requested page. -/
  | pageRsp (p : Port)
  /-- HELD_REQ (R346): Returns bytes of the held record. -/
  | heldReq (p : Port)
  /-- HELD_RSP (R346): Delivers held record bytes. -/
  | heldRsp (p : Port)
  /-- RESTORE (R349): Restores pages, state, routes, groups or timetable from a checkpoint slot. -/
  | restore (fn : Func) (k : Slot) (tag : BitVec 16)
  /-- VERIFY (R351): Checks restored pages by CRC against the record or a replica. -/
  | verify (fn : Func) (k : Slot) (tag : BitVec 16)
  /-- EXPOSE (R359): Writes held copies of a lost module's pages into the current job. -/
  | expose (fn : Func) (k : Slot) (tag : BitVec 16)
  /-- LOG_ADD (R389): Adds an entry to the field-repair log. -/
  | logAdd (fn : Func) (tag : BitVec 16)
  /-- WIPE_SITE (R389): Wipes a reserve site and applies its pending repairs. -/
  | wipeSite (fn : Func) (tag : BitVec 16)
  /-- SCRUB_PASS (R373): A scrub pass reads every word of a memory when its period elapses. -/
  | scrubPass (w : Fin 9) (hbm : Bool)
  /-- ODECC_POLL (R366): Every 1 s the stack's on-die ECC counts are added to MEM.ODECC_CE. -/
  | odeccPoll (d : Die) (count : Nat)
  /-- WIPE_COMPLETE (R381): A wipe ends and the WIP page reports ready. -/
  | wipeComplete (w : Fin 9) (us : W32) (ok : Bool)
  /-- LC_CHANGE (R384): Checks an authorisation and changes the life-cycle state. -/
  | lcChange (fn : Func) (tag : BitVec 16)
  /-- FW_STAGE (R460): Writes and verifies a firmware image into the inactive flash area. -/
  | fwStage (fn : Func) (tag : BitVec 16) (flashOk : Bool)
  /-- FW_ACTIVATE (R460): Requests a firmware switch at the next idle point. -/
  | fwActivate (fn : Func) (tag : BitVec 16)
  /-- FW_SWITCH (R448): At an idle point the controller restarts on the new image. -/
  | fwSwitch
  /-- FW_REVERT (R448): New firmware without heartbeat within 1 s is reverted. -/
  | fwRevert
  /-- SEQ_UPDATE (R449): Updates die sequencer firmware of paused dies. -/
  | seqUpdate (fn : Func) (tag : BitVec 16)
  /-- THERMAL_STEP (R432): Every 10 ms the Koldo controller sets each slot's thermal extension. -/
  | thermalStep (temps : List Int) (hub : Int) (inlet : Int) (outlet : Int)
  /-- THERMTRIP (R431): A junction at 115 °C asserts THERMTRIPn and switches the rails off. -/
  | thermtrip (w : Fin 9)
  /-- COLD_POWER_ON (R442): The input rising through 55 V resets everything and boots the controller. -/
  | coldPowerOn (slotId : Fin 8)
  /-- PWR_EN_ASSERT (R428): Starts the rails in order and asserts PWR_GOODn. -/
  | pwrEnAssert (vin : BitVec 16) (fails : List Nat)
  /-- PWR_EN_DEASSERT (R428): Stops the rails in reverse order, losing all state. -/
  | pwrEnDeassert
  /-- INPUT_UNDERVOLTAGE (R425): Input below 57 V for 1 ms raises POWER_FAULT. -/
  | inputUndervoltage
  /-- INPUT_OVERVOLTAGE (R425): Input above 84 V for 1 ms raises POWER_FAULT. -/
  | inputOvervoltage
  /-- RAIL_OUT_OF_REGULATION (R425): A rail outside ±5 % for 100 µs raises POWER_FAULT. -/
  | railOutOfRegulation (rail : Fin 16)
  /-- INPUT_OVERCURRENT (R425): Input above 72 A for 10 µs raises POWER_FAULT. -/
  | inputOvercurrent
  /-- CONVERTER_OVERTEMPERATURE (R425): Bus converter above 125 °C raises POWER_FAULT. -/
  | converterOvertemperature
  /-- VOLTAGE_EXCURSION (R425): Input in the 57–60 V or 80–84 V band is counted and reported. -/
  | voltageExcursion (high : Bool)
  /-- FAULT_LATCH_CLEAR (R425): PWR_EN low for 100 ms clears the fault latch. -/
  | faultLatchClear (cool : Bool)
  /-- MOD_RESET_ASSERT (R442): MOD_RESETn asserted holds the module in reset and releases the SPI contacts. -/
  | modResetAssert
  /-- MODULE_RESET (R442): Release of module reset calibrates saddles, retrains ports, builds remap tables and wipes the module. -/
  | moduleReset (slotId : Fin 8) (fails : List Nat)
  /-- PCIE_CONVENTIONAL_RESET (R395): PERSTn, hot reset or link-down reset resets every partition module-wide. -/
  | pcieConventionalReset (held : Bool) (fails : List Nat)
  /-- PERST_RELEASE (R444): PERSTn release starts hub bring-up, link training, calibration, wipe and self-test. -/
  | perstRelease (fails : List Nat)
  /-- SELF_TEST_COMPLETE (R445): Start-up self-test ends and failing sites get SITE_RETIRE entries. -/
  | selfTestComplete (bad : List CoreId)
  /-- PF_FLR (R395): Function level reset of the PF resets its configuration and PCX page 0. -/
  | pfFlr
  /-- VF_FLR (R395): Function level reset of a VF resets its slot's partition. -/
  | vfFlr (vf : Func)
  /-- VF_ENABLE_CLEAR (R395): Clearing VF Enable removes the VFs and resets their PCX pages. -/
  | vfEnableClear
  /-- MSIX_ENABLE (R415): Setting MSI-X Enable or clearing Function Mask sends one message per pending source. -/
  | msixEnable (fn : Func) (en : Bool) (mask : Bool)
  /-- SMB_IDENT (R447): Returns module identity, part and firmware version. -/
  | smbIdent
  /-- SMB_STATUS (R447): Returns power, readiness, latch and configuration status. -/
  | smbStatus
  /-- ALERT_CAUSE (R447): Returns and clears the alert causes. -/
  | alertCause
  /-- TEMPS (R447): Returns junction, stack and coolant temperatures. -/
  | temps
  /-- SMB_POWER (R447): Returns input voltage, current and power. -/
  | smbPower
  /-- REG_READ (R447): Reads a register window offset as the PF. -/
  | regRead (off : BitVec 26)
  /-- REG_WRITE (R447): Writes a standby-island register over SMBus. -/
  | regWrite (off : BitVec 26) (value : W32) (pec : Bool)
  /-- NODE_CONFIG (R447): Stores the node number and torus sizes for the next module reset. -/
  | nodeConfig (value : W32) (pec : Bool)
  /-- ALERT_RESPONSE (R446): The controller answers the SMBus Alert Response Address. -/
  | alertResponse
  /-- REGISTER_WRITE (R4): A host write to a register without behaviour of its own stores per its access code. -/
  | registerWrite (fn : Func) (off : BitVec 26) (len : Nat) (value : W64) (full : Bool)
  /-- RC_READ (R5): Reading an RC register returns and clears it. -/
  | rcRead (fn : Func) (off : BitVec 26) (len : Nat) (full : Bool)
  /-- EVT_STATUS_WRITE (R5): A W1C write clears event bits and re-evaluates the source. -/
  | evtStatusWrite (fn : Func) (off : BitVec 26) (value : W32)
  /-- EVT_ENABLE_WRITE (R415): Writing EVT_ENABLE re-evaluates delivery of the source. -/
  | evtEnableWrite (fn : Func) (off : BitVec 26) (value : W32)
  /-- EVT_FORCE (R406): Sets event bits as hardware would. -/
  | evtForce (fn : Func) (off : BitVec 26) (value : W32)
  /-- VMAP_WRITE (R422): Writes vector map entries and sends a message for a pending enabled source. -/
  | vmapWrite (fn : Func) (page : Func) (n : Fin 128) (value : W32)
  /-- AMAX_WRITE (R39): A host or program write to an AMAX slot takes effect before a same-cycle update. -/
  | amaxWrite (fn : Func) (c : CoreId) (n : Fin 16) (value : W32)
  /-- TT_RUN_SET (R262): Setting TT_RUN starts the timetable walk if the frame is valid. -/
  | ttRunSet (fn : Func) (k : Slot)
  /-- TT_RUN_CLEAR (R263): Clearing TT_RUN stops the walk at the end of the current entry. -/
  | ttRunClear (fn : Func) (k : Slot)
  /-- JOB_REGISTER (R278): Writing JOB_CFG.REGISTERED registers or removes a job. -/
  | jobRegister (fn : Func) (k : Slot) (value : W32)
  /-- CORE_MHZ_WRITE (R434): A legal clock setting reaches every die within 1 ms. -/
  | coreMhzWrite (fn : Func) (value : W32)
  /-- UNDEFINED_OPCODE (R405): A CMD write with an undefined opcode is refused with CMD_REJECT. -/
  | undefinedOpcode (fn : Func) (off : BitVec 26) (op : BitVec 8) (tag : BitVec 16)
  /-- LONG_OPERATION_END (R410): A long operation writes CMD_RESULT, clears BUSY and sets its completion event. -/
  | longOperationEnd (off : BitVec 26)
  /-- MEMORY_WINDOW_READ (R416): A host read through the memory window is translated and served or refused with all ones. -/
  | memoryWindowRead (fn : Func) (off : BitVec 38) (len : Nat)
  /-- MEMORY_WINDOW_WRITE (R416): A host write through the memory window is translated and performed or dropped. -/
  | memoryWindowWrite (fn : Func) (off : BitVec 38) (bytes : List Byte)
  /-- TRAIN_DONE (R323): A Flidric port's training completes and the port enters UP, or MAINT when MAINT is set. -/
  | trainDone (p : Port) (ok : Bool)
  /-- PCIE_LINK_CHANGE (R423): The PCIe link reaches L0 or changes speed, width or L0p state, updating PCX.LINK and setting LINK_CHANGE. -/
  | pcieLinkChange (speed : BitVec 3) (width : BitVec 5) (flit : Bool) (l0p : Bool)
  /-- MSIX_VECTOR_UNMASK (R415): Unmasking a single MSI-X vector sends the message held pending in its PBA bit. -/
  | msixVectorUnmask (fn : Func) (v : BitVec 11)
  /-- MESH_FLIT_RESEND (R363): A mesh, col, station or edge-ring receiver that finds a bad CRC-16 has the flit resent from the previous hop and counts it in the TRC page's CE_COUNT. -/
  | meshFlitResend (c : CoreId)
  /-- MEM_TEMP_UPDATE (R222): Every 1 ms MEM.TEMP takes the stack sensor's temperature and sets TEMP_HIGH when it reaches the stack's limit. -/
  | memTempUpdate (d : Die) (temp : BitVec 8)
  /-- POWER_ALARM (R456): Input power reaching PWR.PIN_ALARM sets the POWER_ALARM event. -/
  | powerAlarm (pin : BitVec 16)
  /-- STANDBY_RAIL_LOSS (R447): The 3.3 V standby rail is lost with the input, so the stored NODE_CONFIG and the standby island's state are lost. -/
  | standbyRailLoss
  deriving DecidableEq, Repr

end Sys2Proof
end

