-- ==== Sys2Proof/Decode.lean ====
section
/-! DEFINITION. Decode.lean: the command that a word spells. The table of operations and events gives none of its rows an
encoding: a command reaches the block as an event or a request, with operands, not as a word. -/
namespace Sys2Proof

/-- The command that a word of `nbits` bits spells by the table: none, since no row has bits. -/
def decodeTableWord (_nbits _w : Nat) : Option Instr := none

end Sys2Proof
end

