-- ==== Sys2Proof/Machine/Bits.lean ====
section
/-! DEFINITION. Machine/Bits.lean: bit fields, byte order, tables and list helpers that every chapter uses. -/
namespace Sys2Proof.Machine

/-- Bits [lo + len - 1 : lo] of a number (R3: bit 0 is the least significant). -/
def fld (x lo len : Nat) : Nat := (x >>> lo) % 2 ^ len

/-- Bit n of a number. -/
def bitOf (x n : Nat) : Bool := x.testBit n

/-- The number 1 for true and 0 for false. -/
def b2n (b : Bool) : Nat := if b then 1 else 0

/-- A number with bits [lo + len - 1 : lo] replaced by the low bits of v. -/
def setFld (x lo len v : Nat) : Nat :=
  x - ((x >>> lo) % 2 ^ len) <<< lo + (v % 2 ^ len) <<< lo

/-- Bits of a 32-bit word, as a number. -/
def fw (x : W32) (lo len : Nat) : Nat := fld x.toNat lo len

/-- A 32-bit word from a number. -/
def w32 (n : Nat) : W32 := BitVec.ofNat 32 n

/-- The two's complement value of the low `len` bits of a number. -/
def sext (x len : Nat) : Int :=
  let v := x % 2 ^ len
  if 2 ^ len ≤ 2 * v then (v : Int) - 2 ^ len else v

/-- Addition that stops at the all-ones value (R8). -/
def satAdd (x : W32) (n : Nat) : W32 := w32 (min (x.toNat + n) 0xFFFFFFFF)

/-- Ceiling of a quotient. -/
def cdiv (a b : Nat) : Nat := (a + b - 1) / b

/-! Little-endian byte strings (R3). -/

/-- The low `n` bytes of a number, lowest first. -/
def toBytes : Nat → Nat → List Byte
  | 0, _ => []
  | n + 1, x => BitVec.ofNat 8 x :: toBytes n (x / 256)

/-- The number that a byte string spells, lowest byte first. -/
def ofBytes : List Byte → Nat
  | [] => 0
  | b :: bs => b.toNat + 256 * ofBytes bs

/-- The little-endian number of `n` bytes at offset `o` of a byte string; bytes past its end count as zero. -/
def bytesAt (bs : List Byte) (o n : Nat) : Nat := ofBytes ((bs.drop o).take n)

/-- Element `i` of width `b` bits of a bit string held in bytes (R23). -/
def bitsAt (bs : List Byte) (b i : Nat) : Nat := fld (bytesAt bs (b * i / 8) ((b + 14) / 8)) (b * i % 8) b

/-- Packs codes of `b` bits into bytes, first code lowest (R23). -/
def packBits (b : Nat) (codes : List Nat) : List Byte :=
  toBytes (cdiv (b * codes.length) 8) (codes.foldr (fun c acc => c % 2 ^ b + 2 ^ b * acc) 0)

/-! Tables: lists of (key, value) in rising key order. The laws of reading after writing hold of every list. -/

/-- The value listed for a key. -/
def tfind {α : Type} : Tab α → Nat → Option α
  | [], _ => none
  | (k, v) :: t, a => if a = k then some v else tfind t a

/-- The value of a key, or the default where none is listed. -/
def tget {α : Type} (d : α) (t : Tab α) (k : Nat) : α := (tfind t k).getD d

/-- The table without a key. -/
def tdel {α : Type} : Tab α → Nat → Tab α
  | [], _ => []
  | (k, v) :: t, a => if a = k then tdel t a else (k, v) :: tdel t a

/-- The table with an entry placed before the first larger key. -/
def tins {α : Type} : Tab α → Nat → α → Tab α
  | [], a, x => [(a, x)]
  | (k, v) :: t, a, x => if a < k then (a, x) :: (k, v) :: t else (k, v) :: tins t a x

/-- The table with a key listed at a value. -/
def tput {α : Type} (t : Tab α) (a : Nat) (x : α) : Tab α := tins (tdel t a) a x

/-- Writes a value; the default value is not listed, so equal contents are equal tables. -/
def tset {α : Type} [DecidableEq α] (d : α) (t : Tab α) (k : Nat) (x : α) : Tab α :=
  if x = d then tdel t k else tput t k x

/-- Keys strictly rising and every listed value different from what an unlisted key reads as. -/
def twf {α : Type} [DecidableEq α] (d : Nat → α) : Tab α → Bool
  | [] => true
  | [(k, v)] => decide (v ≠ d k)
  | (k, v) :: (k', v') :: t => decide (v ≠ d k) && decide (k < k') && twf d ((k', v') :: t)

/-- Keeps the entries whose key satisfies p. -/
def tkeep {α : Type} (p : Nat → Bool) (t : Tab α) : Tab α := t.filter (fun e => p e.1)

/-- The list with element `i` replaced, if there is one. -/
def lset {α : Type} (l : List α) (i : Nat) (x : α) : List α := l.set i x

/-- The list without element `i`. -/
def ldel {α : Type} : List α → Nat → List α
  | [], _ => []
  | _ :: t, 0 => t
  | a :: t, i + 1 => a :: ldel t i

/-- Folds a state over 0 .. n - 1. -/
def iter {σ : Type} (n : Nat) (f : Nat → σ → σ) (s : σ) : σ := (List.range n).foldl (fun s i => f i s) s

/-- Folds a state over a list. -/
def each {α σ : Type} (l : List α) (f : α → σ → σ) (s : σ) : σ := l.foldl (fun s a => f a s) s

/-- The largest number of a list, 0 for none. -/
def maxOf (l : List Nat) : Nat := l.foldl max 0

/-- The sum of a list. -/
def sumOf (l : List Nat) : Nat := l.foldl (· + ·) 0

end Sys2Proof.Machine
end

