-- ==== Sys2Proof/Machine/Codec.lean ====
section
/-! DEFINITION. Machine/Codec.lean: the page codec of R200 to R203 and the two checksums over pages and lists, CRC-32
(R201) and CRC-64 (R338), as functions of bytes. -/
namespace Sys2Proof.Machine

/-- The low `n` bits of a number, lowest first. -/
def bitsOf : Nat → Nat → List Bool
  | 0, _ => []
  | n + 1, x => x.testBit 0 :: bitsOf n (x / 2)

/-- The number that bits spell, lowest first. -/
def ofBits (l : List Bool) : Nat := l.foldr (fun b acc => b2n b + 2 * acc) 0

/-- Bits packed from bit 0 of each byte upward, padded with zero bits to a byte. -/
def packBools (l : List Bool) : List Byte := toBytes (cdiv l.length 8) (ofBits l)

/-- One step of a reflected CRC of polynomial `poly`. -/
def crcBit (poly c : Nat) : Nat := if c.testBit 0 then (c / 2) ^^^ poly else c / 2

/-- A reflected CRC over bytes. -/
def crcBytes (poly : Nat) : List Byte → Nat → Nat
  | [], c => c
  | b :: bs, c => crcBytes poly bs (iter 8 (fun _ c => crcBit poly c) (c ^^^ b.toNat))

/-- CRC-32 of IEEE 802.3. -/
def crc32 (bs : List Byte) : Nat := crcBytes 0xEDB88320 bs 0xFFFFFFFF ^^^ 0xFFFFFFFF

/-- CRC-64 of ECMA-182 in its reflected form, with all-ones start and end (R338). -/
def crc64 (bs : List Byte) : Nat := crcBytes 0xC96C5795D7870F42 bs (2 ^ 64 - 1) ^^^ (2 ^ 64 - 1)

/-- The base of a plane (R202): its most frequent byte value, the lowest of equals. -/
def planeBase (x : List Nat) : Nat :=
  ((List.range 256).foldl (fun (r : Nat × Nat) v => let n := x.count v; if r.2 < n then (v, n) else r) (0, 0)).1

/-- Leading elements equal to b, at most `n`. -/
def runOf (b : Nat) : Nat → List Nat → Nat
  | 0, _ => 0
  | _, [] => 0
  | n + 1, x :: xs => if x = b then 1 + runOf b n xs else 0

/-- The signed distance of a byte from the base, folded to 0 .. 255 (R202). -/
def zigzag (x b : Nat) : Nat :=
  let u := (x + 256 - b) % 256
  if u < 128 then 2 * u else 511 - 2 * u

/-- The byte at a folded distance from the base. -/
def unzigzag (z b : Nat) : Nat := if z % 2 = 0 then (b + z / 2) % 256 else (b + 256 - (z + 1) / 2) % 256

/-- `code_plane` of R202; the first argument bounds the remaining steps. -/
def codePlane (b : Nat) : Nat → List Nat → List Bool
  | 0, _ => []
  | _, [] => []
  | fuel + 1, x :: xs =>
    let z := zigzag x b
    if z = 0 then
      let r := runOf b 32 (x :: xs)
      false :: bitsOf 5 (r - 1) ++ codePlane b fuel ((x :: xs).drop r)
    else if z ≤ 15 then true :: false :: bitsOf 4 z ++ codePlane b fuel xs
    else true :: true :: bitsOf 8 z ++ codePlane b fuel xs

/-- The plane of n bytes that bits code; none where the bits end early. -/
def decodePlane (b : Nat) : Nat → Nat → List Bool → Option (List Nat)
  | _, 0, _ => some []
  | 0, _ + 1, _ => none
  | fuel + 1, n, bits =>
    match bits with
    | false :: t =>
      if t.length < 5 then none
      else
        let r := min n (ofBits (t.take 5) + 1)
        (decodePlane b fuel (n - r) (t.drop 5)).map (List.replicate r b ++ ·)
    | true :: false :: t =>
      if t.length < 4 then none
      else (decodePlane b fuel (n - 1) (t.drop 4)).map (unzigzag (ofBits (t.take 4)) b :: ·)
    | true :: true :: t =>
      if t.length < 8 then none
      else (decodePlane b fuel (n - 1) (t.drop 8)).map (unzigzag (ofBits (t.take 8)) b :: ·)
    | _ => none

/-- The little-endian words of `w` bytes each. -/
def wordsOf (w n : Nat) (bs : List Byte) : List Nat := (List.range n).map (fun i => bytesAt bs (w * i) w)

/-- The coded plane of a transform (R200), for transforms 2 to 5. -/
def planeOf (x : Nat) (bs : List Byte) : List Nat :=
  match x with
  | 2 => (wordsOf 4 1024 bs).map (fun w => fld w 23 8)
  | 3 => (wordsOf 2 2048 bs).map (fun h => fld h 7 8)
  | 4 => (wordsOf 2 2048 bs).map (fun h => fld h 10 5)
  | _ => bs.map (·.toNat)

/-- The raw residual of a transform (R200). -/
def residualOf (x : Nat) (bs : List Byte) : List Byte :=
  match x with
  | 2 => (wordsOf 4 1024 bs).flatMap (fun w => toBytes 3 (fld w 0 23 + 2 ^ 23 * fld w 31 1))
  | 3 => (wordsOf 2 2048 bs).map (fun h => BitVec.ofNat 8 (fld h 0 7 + 128 * fld h 15 1))
  | 4 => packBits 11 ((wordsOf 2 2048 bs).map (fun h => fld h 0 10 + 1024 * fld h 15 1))
  | _ => []

/-- A coded chunk: transform, base and payload. -/
structure Chunk where
  xform : Nat
  base : Nat
  payload : List Byte
  deriving DecidableEq, Repr

/-- One transform of a chunk; none where it does not apply. -/
def tryForm (bs : List Byte) (x : Nat) : Option Chunk :=
  if x = 0 then (if bs.all (· == 0) then some ⟨0, 0, []⟩ else none)
  else if x = 1 then some ⟨1, 0, bs⟩
  else
    let p := planeOf x bs
    let b := planeBase p
    some ⟨x, b, packBools (codePlane b p.length p) ++ residualOf x bs⟩

/-- The coder's choice for a chunk of 4,096 bytes (R200): the smallest payload, ties to the lower value. -/
def codeChunk (bs : List Byte) : Chunk :=
  ((List.range 6).filterMap (tryForm bs)).foldl
    (fun c d => if d.payload.length < c.payload.length then d else c) ⟨1, 0, bs⟩

/-- The coded form of a page (R201). -/
def codePage (bs : List Byte) : List Byte :=
  let cs := (List.range 16).map (fun i => codeChunk ((bs.drop (4096 * i)).take 4096))
  toBytes 8 (cs.foldr (fun c acc => c.xform + 16 * acc) 0) ++ cs.flatMap (fun c => toBytes 2 c.payload.length)
    ++ cs.map (fun c => BitVec.ofNat 8 c.base) ++ toBytes 4 (crc32 bs) ++ toBytes 4 0 ++ cs.flatMap (·.payload)

/-- The sectors that a coded form takes (R201). -/
def codedSectors (coded : List Byte) : Nat := cdiv coded.length 4096

/-- One chunk from its transform, base and payload. -/
def decodeChunk (x b : Nat) (p : List Byte) : Option (List Byte) :=
  let bits := p.flatMap (fun y => bitsOf 8 y.toNat)
  match x with
  | 0 => some (List.replicate 4096 0)
  | 1 => if p.length = 4096 then some p else none
  | 2 =>
    let r := p.drop (p.length - 3072)
    (decodePlane b 1024 1024 bits).map (fun pl => (pl.zip (wordsOf 3 1024 r)).flatMap
      (fun q => toBytes 4 (fld q.2 0 23 + 2 ^ 23 * q.1 + 2 ^ 31 * fld q.2 23 1)))
  | 3 =>
    let r := p.drop (p.length - 2048)
    (decodePlane b 2048 2048 bits).map (fun pl => (pl.zip r).flatMap
      (fun q => toBytes 2 (fld q.2.toNat 0 7 + 128 * q.1 + 2 ^ 15 * fld q.2.toNat 7 1)))
  | 4 =>
    let r := p.drop (p.length - 2816)
    (decodePlane b 2048 2048 bits).map (fun pl => ((pl.zipIdx).flatMap
      (fun q => let h := bitsAt r 11 q.2; toBytes 2 (fld h 0 10 + 1024 * (q.1 % 32) + 2 ^ 15 * fld h 10 1))))
  | 5 => (decodePlane b 4096 4096 bits).map (fun pl => pl.map (BitVec.ofNat 8))
  | _ => none

/-- Start of chunk c's payload in a coded page. -/
def chunkAt (bs : List Byte) (c : Nat) : Nat := 64 + sumOf ((List.range c).map (fun i => bytesAt bs (8 + 2 * i) 2))

/-- The 16 chunks of a coded page; a chunk that cannot be decoded reads as zero. -/
def decodePage (bs : List Byte) : List Byte :=
  (List.range 16).flatMap (fun c =>
    (decodeChunk (fld (bytesAt bs 0 8) (4 * c) 4) (bytesAt bs (40 + c) 1)
      ((bs.drop (chunkAt bs c)).take (bytesAt bs (8 + 2 * c) 2))).getD (List.replicate 4096 0))

/-- Whether the CRC of a coded page agrees with its decoded bytes (R203). -/
def pageCrcOk (coded plain : List Byte) : Bool := bytesAt coded 56 4 == crc32 plain

/-- The chunks of a coded page that a list of bad 8-byte words of its coded form affects: all for a word of the header. -/
def badChunks (bs : List Byte) (bad : List Nat) : List Nat :=
  if bad.any (fun w => decide (w < 8)) then List.range 16
  else (List.range 16).filter (fun c => bad.any (fun w =>
    decide (8 * w < chunkAt bs c + bytesAt bs (8 + 2 * c) 2 ∧ chunkAt bs c < 8 * w + 8)))

end Sys2Proof.Machine
end

