-- ==== Sys2Proof/Config.lean ====
section
/-! DEFINITION. Config.lean: the values that the spec leaves open, each an opaque constant that no proof can see into,
and what one part's fuses and flash fix. -/
namespace Sys2Proof.Config

/-! Free values of arithmetic (log entry 5). -/

/-- Sign and payload of the NaN that an operation of R28, R68 or R87 returns, by operation and operands: the spec
states no pattern. Only sign and payload bits are taken from it. -/
opaque nanBits (op : Nat) (a b c : BitVec 32) : BitVec 32
/-- Distance in units of the last place that VEXP (0), VRSQ (1) and VTANH (2) keep from the rounded exact result, for
each input; R87 bounds it by 2, and the meaning holds it to that bound. -/
opaque ulpError (op : Nat) (x : BitVec 32) : Int
/-- Which NaN code a FIXED conversion of a NaN or infinite lane writes (R33 names no one of them). -/
opaque nanCode (fmt : Nat) (x : BitVec 32) : Nat

/-! Free values drawn in order: the machine's counter selects one (log entry 4). -/

/-- The n-th open number. -/
opaque freeNat (n : Nat) : Nat
/-- The n-th open 32-bit word. -/
opaque freeWord (n : Nat) : BitVec 32

/-! What the spec keeps inside the module or in one part's fuses and flash (log entries 6 and 7). -/

/-- Which of the columns still free stands for data bit n in the code of R362: which data bits feed which check bits is
internal to the module. -/
opaque columnChoice (n : Nat) : Nat
/-- Whether an ECDSA signature verifies against a key of the installed policy (R384, R441), by the signed bytes. -/
opaque signatureOk (signed : List (BitVec 8)) (sig : List (BitVec 8)) : Bool
/-- Whether a firmware image verifies (R460), by its bytes. -/
opaque firmwareOk (image : List (BitVec 8)) : Bool
/-- Whether the header of a firmware image is well formed (R460), by the image's bytes, and the version and signature that it gives: the
layout of the header is not given (log entry 67). -/
opaque firmwareFormed (image : List (BitVec 8)) : Bool
opaque firmwareVersion (image : List (BitVec 8)) : BitVec 32
opaque firmwareSign (image : List (BitVec 8)) : List (BitVec 8)
/-- The module's identity fuses, LCS.ID (R391). -/
opaque moduleId : BitVec 64
/-- The n-th random LCS.NONCE (R384, R391). -/
opaque nonce (n : Nat) : BitVec 64
/-- The silicon stepping, HUB.STEPPING (R420). -/
opaque stepping : BitVec 8
/-- The records that the bytes of an image spell: the spec gives no byte layout of most sections (log entry 21). -/
opaque imageOf (bytes : List (BitVec 8)) : Image
/-- The place of a program word (core × 4096 + index) in a PROGRAMS section, in words (log entry 21). -/
opaque imageWord (n : Nat) : Nat
/-- Versions in boot flash at delivery: firmware areas A (0) and B (1), sequencer of die d (2 + d) (R459). -/
opaque flashVersion (n : Nat) : BitVec 32
/-- Whether the bank of a stack word (die, byte address divided by 8) has a post-package repair left (R377). -/
opaque repairLeft (die hword : Nat) : Bool
/-- The set of a die's translation cache that a page goes to, modulo 256 (R197 gives ways, not the sets). -/
opaque tlbSet (vpn : Nat) : Nat
/-- Which page of the table area, after the first two, holds an L2 table (by its region) or an L1 table (by 2^19 + its index in the
root), or its mirror (copy 1); R204 leaves the placement internal. -/
opaque tablePlace (copy table : Nat) : Nat
/-- The requester tags in the share of a function under layout n (PCX.TAGS, R422). -/
opaque pcieTags (layout func : Nat) : BitVec 14

/-- Flits beyond the first that a buffer of the edge ring (0), of a saddle (1) and of a transit lane (2) holds, and tokens beyond the first
that a port's queue holds of a stream (3), by channel: the spec gives these buffers no size (log entry 58). -/
opaque linkRoom (kind vc : Nat) : Nat

end Sys2Proof.Config
end

