-- ==== Sys2Proof/Machine/RegMap.lean ====
section
/-! DEFINITION. Machine/RegMap.lean: the pages of the register window (R399, R400), the rows of every page's block
registers with their access, reset value and writable bits (R4, R7), and the common page header (R401). -/
namespace Sys2Proof.Machine

/-- Access codes of R4. -/
inductive Acc where
  | ro | rw | wo | w1c | rc
  deriving DecidableEq, Repr

/-- One row of a register table: the first offset, the distance and number of its registers, access code, reset value
and the bits that a write can change. -/
structure RegRow where
  off : Nat
  stride : Nat
  count : Nat
  acc : Acc
  reset : Nat
  mask : Nat
  deriving DecidableEq, Repr

/-- A page of the register window (R399, R400, R412). -/
inductive Page where
  | hub | lcs | fus | wipH | scbH | pwr | thmH
  | kld (i : Nat) | pcx (i : Nat) | fld (i : Nat) | tckG (s : Nat) | tmt (i : Nat) | clv (s : Nat) | ckp (s : Nat)
  | tke (d : Nat) | stm (d : Nat) | gch (d : Nat) | mem (d : Nat) | pgt (d : Nat) | wkc (d i : Nat) | tckR (d : Nat)
  | smp (d : Nat) | scb (d : Nat) | wip (d : Nat) | thm (d : Nat) | trc (d t : Nat) | cor (d site : Nat)
  deriving DecidableEq, Repr

/-- Offset of a die's region (R399). -/
def dieBase (d : Nat) : Nat := 0x01000000 + d * 0x00200000

/-- Offset of a page in the register window (R399, R400). -/
def pageBase : Page → Nat
  | .hub => 0 | .lcs => 0x1000 | .fus => 0x2000 | .wipH => 0x3000 | .scbH => 0x4000 | .pwr => 0x5000 | .thmH => 0x6000
  | .kld i => 0x10000 + i * 0x1000 | .pcx i => 0x20000 + i * 0x1000 | .fld i => 0x30000 + i * 0x1000
  | .tckG s => 0x50000 + s * 0x1000 | .tmt i => 0x60000 + i * 0x1000 | .clv s => 0x70000 + s * 0x1000
  | .ckp s => 0x80000 + s * 0x1000
  | .tke d => dieBase d | .stm d => dieBase d + 0x1000 | .gch d => dieBase d + 0x2000 | .mem d => dieBase d + 0x3000
  | .pgt d => dieBase d + 0x4000 | .wkc d i => dieBase d + 0x5000 + i * 0x1000 | .tckR d => dieBase d + 0x9000
  | .smp d => dieBase d + 0xA000 | .scb d => dieBase d + 0xB000 | .wip d => dieBase d + 0xC000
  | .thm d => dieBase d + 0xD000 | .trc d t => dieBase d + 0x40000 + t * 0x1000
  | .cor d site => dieBase d + 0x80000 + site * 0x1000

/-- The page at an offset of the register window; none for an unassigned offset (R399, R400). -/
def pageOf (off : Nat) : Option Page :=
  let p := off / 0x1000
  if p < 0x10 then
    match p with
    | 0 => some .hub | 1 => some .lcs | 2 => some .fus | 3 => some .wipH | 4 => some .scbH | 5 => some .pwr
    | 6 => some .thmH | _ => none
  else if p < 0x19 then some (.kld (p - 0x10))
  else if p < 0x20 then none
  else if p < 0x29 then some (.pcx (p - 0x20))
  else if p < 0x30 then none
  else if p < 0x48 then some (.fld (p - 0x30))
  else if p < 0x50 then none
  else if p < 0x58 then some (.tckG (p - 0x50))
  else if p < 0x60 then none
  else if p < 0x69 then some (.tmt (p - 0x60))
  else if p < 0x70 then none
  else if p < 0x78 then some (.clv (p - 0x70))
  else if p < 0x80 then none
  else if p < 0x88 then some (.ckp (p - 0x80))
  else if p < 0x1000 then none
  else if p < 0x2000 then
    let d := (p - 0x1000) / 0x200
    let q := (p - 0x1000) % 0x200
    if q < 0xE then
      match q with
      | 0 => some (.tke d) | 1 => some (.stm d) | 2 => some (.gch d) | 3 => some (.mem d) | 4 => some (.pgt d)
      | 9 => some (.tckR d) | 10 => some (.smp d) | 11 => some (.scb d) | 12 => some (.wip d) | 13 => some (.thm d)
      | _ => some (.wkc d (q - 5))
    else if 0x40 ≤ q ∧ q < 0x58 then some (.trc d (q - 0x40))
    else if 0x80 ≤ q then some (.cor d (q - 0x80))
    else none
  else none

/-! Offsets of the block registers within their page. -/

def trc_MAP_n : Nat := 0x100
def trc_RESERVE : Nat := 0x140
def trc_SITE_STATE : Nat := 0x144
def trc_LOGICAL_BASE : Nat := 0x148
def trc_SWAP_COUNT : Nat := 0x14C
def tke_FMT_CLASS_n_A : Nat := 0x600
def tke_FMT_CLASS_n_B : Nat := 0x604
def tke_SR_SEED_LO : Nat := 0x680
def tke_SR_SEED_HI : Nat := 0x684
def tke_ESC_COUNT_J2 : Nat := 0x688
def tke_ESC_COUNT_J3 : Nat := 0x68C
def tke_ESC_COUNT_E2M1 : Nat := 0x690
def tke_ESC_FAIL : Nat := 0x694
def tke_ESC_LAST_TASK : Nat := 0x698
def tke_ESC_LAST_INFO : Nat := 0x69C
def cor_AMAX_n : Nat := 0x600
def cor_STATE : Nat := 0x100
def cor_PC : Nat := 0x104
def cor_TASK : Nat := 0x108
def cor_STALL : Nat := 0x10C
def cor_CHK_COUNT : Nat := 0x110
def cor_CHK_FAIL : Nat := 0x114
def cor_FAULT_INFO : Nat := 0x118
def cor_UNMATCHED : Nat := 0x11C
def cor_EPOCH_REFUSED : Nat := 0x120
def cor_SEM_SAT : Nat := 0x124
def cor_RULE_EN : Nat := 0x128
def cor_SEM_n : Nat := 0x180
def tck_TICK_LEN : Nat := 0x100
def tck_STRETCH_LIMIT : Nat := 0x104
def tck_THERM_EXT : Nat := 0x108
def tck_ALIGN : Nat := 0x10C
def tck_GUARD : Nat := 0x110
def tck_WINDOW : Nat := 0x114
def tck_DEPTH : Nat := 0x118
def tck_PEERS : Nat := 0x11C
def tck_EPOCH : Nat := 0x120
def tck_PHASE : Nat := 0x124
def tck_TICK_LO : Nat := 0x128
def tck_TICK_HI : Nat := 0x12C
def tck_WINDOW_TICK : Nat := 0x130
def tck_WINDOW_COUNT : Nat := 0x134
def tck_RESIDUE : Nat := 0x138
def tck_EXT_APPLIED : Nat := 0x13C
def tck_OVERRUN_COUNT : Nat := 0x140
def tck_STRETCH_TOTAL : Nat := 0x144
def tck_STRETCH_MAX : Nat := 0x148
def tck_LATE_DIES : Nat := 0x14C
def tck_THERM_TICKS : Nat := 0x150
def tck_EPOCH_REFUSED : Nat := 0x154
def tck_RX_STATE : Nat := 0x100
def tck_RX_MARKER_LAT : Nat := 0x104
def tck_RX_DONE_LAST : Nat := 0x108
def tck_RX_DONE_MAX : Nat := 0x10C
def tck_RX_LATE_COUNT : Nat := 0x110
def tck_RX_THERM_REQ : Nat := 0x114
def tke_CONTEXTS : Nat := 0x100
def tke_RELEASED : Nat := 0x104
def tke_READY : Nat := 0x108
def tke_RUNNING : Nat := 0x10C
def tke_SPEC : Nat := 0x110
def tke_COMMIT_COUNT : Nat := 0x114
def tke_DISCARD_COUNT : Nat := 0x118
def tke_AHEAD_DISCARDS : Nat := 0x11C
def tke_SAMPLE_FAULTS : Nat := 0x120
def tke_DEADLINE_MISS : Nat := 0x124
def tke_LAST_MISS : Nat := 0x128
def tke_YIELD_COUNT : Nat := 0x12C
def tke_DEP_SENT : Nat := 0x130
def tke_DEP_RECV : Nat := 0x134
def tke_FAULT_TASK : Nat := 0x138
def tke_FAULT_INFO : Nat := 0x13C
def tke_CTX_SEL : Nat := 0x140
def tke_CTX_DATA_n : Nat := 0x180
def tke_CTX_RUN_n : Nat := 0x1C0
def tke_SHD_SEL : Nat := 0x240
def tke_SHD_CFG : Nat := 0x244
def tke_SHD_STATE : Nat := 0x248
def wkc_VALUE_m : Nat := 0x100
def wkc_LIMIT_m : Nat := 0x104
def wkc_BASE_m : Nat := 0x108
def wkc_CFG_m : Nat := 0x10C
def wkc_EXHAUSTED : Nat := 0x500
def wkc_CLAIMS : Nat := 0x504
def wkc_WRITE_REFUSED : Nat := 0x508
def wkc_LAST_EXHAUSTED : Nat := 0x50C
def pgt_ROOT_LO : Nat := 0x100
def pgt_ROOT_HI : Nat := 0x104
def pgt_HOME : Nat := 0x108
def pgt_AGE_PERIOD : Nat := 0x10C
def pgt_T0_LOW : Nat := 0x110
def pgt_T0_HIGH : Nat := 0x114
def pgt_T1_LOW : Nat := 0x118
def pgt_T1_HIGH : Nat := 0x11C
def pgt_FREE_T0 : Nat := 0x120
def pgt_FREE_T1 : Nat := 0x124
def pgt_FREE_T2 : Nat := 0x128
def pgt_POOL_T0 : Nat := 0x12C
def pgt_POOL_T1 : Nat := 0x130
def pgt_POOL_T2 : Nat := 0x134
def pgt_QUOTA_SUM : Nat := 0x138
def pgt_WALK_LO : Nat := 0x13C
def pgt_WALK_HI : Nat := 0x140
def pgt_DEMOTE_COUNT : Nat := 0x144
def pgt_PROMOTE_COUNT : Nat := 0x148
def pgt_EXPAND_COUNT : Nat := 0x14C
def pgt_RUNAHEAD_DROP : Nat := 0x150
def pgt_FAULT_COUNT : Nat := 0x154
def pgt_FAULT_VA_LO : Nat := 0x158
def pgt_FAULT_VA_HI : Nat := 0x15C
def pgt_FAULT_INFO : Nat := 0x160
def pgt_TLB_MISS : Nat := 0x164
def pgt_CMD_DROPPED : Nat := 0x168
def pgt_QUOTA_j : Nat := 0x180
def pgt_USED_j : Nat := 0x184
def mem_STACK_INFO : Nat := 0x100
def mem_SECTORS : Nat := 0x104
def mem_RD_UNITS : Nat := 0x108
def mem_WR_UNITS : Nat := 0x10C
def mem_CODEC_ENC : Nat := 0x110
def mem_CODEC_DEC : Nat := 0x114
def mem_CODEC_RAW : Nat := 0x118
def mem_CODEC_SECT : Nat := 0x11C
def mem_CODEC_CRC_ERR : Nat := 0x120
def mem_ODECC_CE : Nat := 0x124
def mem_TEMP : Nat := 0x128
def mem_TAGS_HELD : Nat := 0x12C
def mem_LAT_MAX : Nat := 0x130
def mem_CAL_STATUS : Nat := 0x134
def stm_DESC_SEL : Nat := 0x100
def stm_DESC_STATUS : Nat := 0x104
def stm_DESC_DATA_n : Nat := 0x120
def stm_ACTIVE : Nat := 0x140
def stm_ARMS_DONE : Nat := 0x144
def stm_EMPTY_COUNT : Nat := 0x148
def stm_OVERRUN_COUNT : Nat := 0x14C
def stm_RA_ISSUED : Nat := 0x150
def stm_RA_USED : Nat := 0x154
def stm_RA_TAG_LIMIT : Nat := 0x158
def stm_RD_UNITS : Nat := 0x15C
def stm_WR_UNITS : Nat := 0x160
def stm_HALT_COUNT : Nat := 0x164
def stm_LAST_FAULT : Nat := 0x168
def stm_LAST_SAMPLE : Nat := 0x16C
def stm_WRITE_REFUSED : Nat := 0x170
def gch_GDESC_SEL : Nat := 0x100
def gch_GDESC_STATUS : Nat := 0x104
def gch_GDESC_DATA_n : Nat := 0x120
def gch_RA_WAYS : Nat := 0x140
def gch_GEN_VA_LO : Nat := 0x144
def gch_GEN_VA_HI : Nat := 0x148
def gch_GEN_PAGES : Nat := 0x14C
def gch_GEN_TBL_LO : Nat := 0x150
def gch_GEN_TBL_HI : Nat := 0x154
def gch_HITS : Nat := 0x158
def gch_MISSES : Nat := 0x15C
def gch_NULL_ROWS : Nat := 0x160
def gch_OOB_ROWS : Nat := 0x164
def gch_STALE_COUNT : Nat := 0x168
def gch_LAST_STALE : Nat := 0x16C
def gch_INVALIDATIONS : Nat := 0x170
def gch_RA_EVICT : Nat := 0x174
def gch_LAST_FAULT : Nat := 0x178
def gch_WRITE_REFUSED : Nat := 0x17C
def tmt_STATE : Nat := 0x100
def tmt_FRAME_LEN : Nat := 0x104
def tmt_IDLE_UNIT : Nat := 0x108
def tmt_ENTRY_LEFT : Nat := 0x10C
def tmt_FRAME_LAST : Nat := 0x110
def tmt_FRAME_MAX : Nat := 0x114
def tmt_SWITCH_COUNT : Nat := 0x118
def tmt_SWITCH_LAST : Nat := 0x11C
def tmt_SWITCH_MAX : Nat := 0x120
def tmt_HALT_INFO : Nat := 0x124
def tmt_ACCT_REDIRECT : Nat := 0x128
def tmt_CTX_NEED : Nat := 0x12C
def tmt_CTX_LAST : Nat := 0x130
def tmt_OWN_DIES : Nat := 0x134
def tmt_OWN_PORTS : Nat := 0x138
def tmt_OWN_GROUPS : Nat := 0x13C
def tmt_TT_SEL : Nat := 0x140
def tmt_TT_LO : Nat := 0x144
def tmt_TT_HI : Nat := 0x148
def tmt_JOB_SEL : Nat := 0x14C
def tmt_JOB_CFG : Nat := 0x150
def tmt_JOB_CTX : Nat := 0x154
def tmt_JOB_STATE : Nat := 0x158
def tmt_ACCT_LO : Nat := 0x15C
def tmt_ACCT_HI : Nat := 0x160
def tmt_PASS_LO : Nat := 0x164
def tmt_PASS_HI : Nat := 0x168
def tmt_LAYOUT : Nat := 0x100
def tmt_PORT_MASK_s : Nat := 0x104
def tmt_SADDLE_REFUSED : Nat := 0x124
def smp_INTERVAL : Nat := 0x100
def smp_SHIFT : Nat := 0x104
def smp_SAMPLES : Nat := 0x108
def smp_HIST_SEL : Nat := 0x10C
def smp_BUSY : Nat := 0x110
def smp_TOP_CORE : Nat := 0x114
def smp_HIST_BIN_n : Nat := 0x140
def fld_STATE : Nat := 0x100
def fld_PEER : Nat := 0x104
def fld_HB_AGE : Nat := 0x108
def fld_TX_FLITS : Nat := 0x10C
def fld_RX_FLITS : Nat := 0x110
def fld_CRC_ERR : Nat := 0x114
def fld_REPLAYS : Nat := 0x118
def fld_FEC_CORR : Nat := 0x11C
def fld_FEC_UNCORR : Nat := 0x120
def fld_DISCARDED : Nat := 0x124
def fld_LANE_STATUS : Nat := 0x128
def fld_TRAIN_COUNT : Nat := 0x12C
def fld_MODULE : Nat := 0x100
def fld_TORUS : Nat := 0x104
def fld_EXC_SEL : Nat := 0x108
def fld_EXC_MATCH : Nat := 0x10C
def fld_EXC_MASK : Nat := 0x110
def fld_EXC_ACTION : Nat := 0x114
def fld_UNROUTABLE : Nat := 0x118
def fld_FOREIGN_REFUSED : Nat := 0x11C
def clv_GRP_SEL : Nat := 0x100
def clv_GRP_DATA_n : Nat := 0x104
def clv_OP_SEL : Nat := 0x124
def clv_OP_STATE : Nat := 0x128
def clv_ACTIVE : Nat := 0x12C
def clv_RUNS : Nat := 0x130
def clv_ABORTS : Nat := 0x134
def clv_VERSION_REFUSED : Nat := 0x138
def clv_POST_REFUSED : Nat := 0x13C
def clv_BYTES_OUT : Nat := 0x140
def clv_BYTES_IN : Nat := 0x144
def clv_LAST_ABORT : Nat := 0x148
def clv_OP_BASE_j_LO : Nat := 0x200
def clv_OP_BASE_j_HI : Nat := 0x204
def ckp_STATE : Nat := 0x100
def ckp_AREA_OFF : Nat := 0x104
def ckp_AREA_SIZE : Nat := 0x108
def ckp_BUDDY : Nat := 0x10C
def ckp_HOST_FOR : Nat := 0x110
def ckp_HOST_AREA_LO : Nat := 0x114
def ckp_HOST_AREA_HI : Nat := 0x118
def ckp_HOST_AREA_SIZE : Nat := 0x11C
def ckp_CURSOR : Nat := 0x120
def ckp_SETTLED : Nat := 0x124
def ckp_REPLAY_LIMIT : Nat := 0x128
def ckp_FAULT_SAMPLE : Nat := 0x12C
def ckp_FAULT_INFO : Nat := 0x130
def ckp_SAMPLE_FAULTS : Nat := 0x134
def ckp_WINDOW_FAULTS : Nat := 0x138
def ckp_PAGES_TOTAL : Nat := 0x13C
def ckp_PAGES_DONE : Nat := 0x140
def ckp_PAGES_RIDE : Nat := 0x144
def ckp_COW_STALLS : Nat := 0x148
def ckp_COW_STALL_MAX : Nat := 0x14C
def ckp_HOLD_LAST : Nat := 0x150
def ckp_BYTES_BUDDY : Nat := 0x154
def ckp_COUNT : Nat := 0x158
def ckp_LAST_PAGE : Nat := 0x15C
def ckp_VERIFY_PAGES : Nat := 0x160
def ckp_VERIFY_FETCHED : Nat := 0x164
def ckp_VERIFY_BAD : Nat := 0x168
def ckp_REFUSED : Nat := 0x16C
def ckp_SAMPLE_WRAP : Nat := 0x170
def ckp_SLOT_n_STATE : Nat := 0x180
def ckp_SLOT_n_WINDOW : Nat := 0x184
def ckp_SLOT_n_CURSOR : Nat := 0x188
def ckp_SLOT_n_NUMBER : Nat := 0x18C
def scb_SRAM_PERIOD : Nat := 0x100
def scb_HBM_PERIOD : Nat := 0x104
def scb_SRAM_PASSES : Nat := 0x108
def scb_HBM_PASSES : Nat := 0x10C
def scb_SRAM_POS : Nat := 0x110
def scb_HBM_POS : Nat := 0x114
def scb_CE_FOUND : Nat := 0x118
def scb_UE_FOUND : Nat := 0x11C
def fus_LOG_COUNT : Nat := 0x100
def fus_LOG_PENDING : Nat := 0x104
def fus_EXHAUSTED : Nat := 0x108
def fus_RETIRED : Nat := 0x10C
def fus_LOG_SEL : Nat := 0x110
def fus_LOG_DATA_n : Nat := 0x114
def fus_APPLIED : Nat := 0x124
def wip_STATE : Nat := 0x100
def wip_COUNT : Nat := 0x104
def wip_LAST_US : Nat := 0x108
def wip_REFUSED : Nat := 0x10C
def lcs_STATE : Nat := 0x100
def lcs_ID_LO : Nat := 0x104
def lcs_ID_HI : Nat := 0x108
def lcs_NONCE_LO : Nat := 0x10C
def lcs_NONCE_HI : Nat := 0x110
def lcs_CHANGES : Nat := 0x114
def lcs_AUTH_n : Nat := 0x400
def hub_STATE : Nat := 0x100
def hub_PART : Nat := 0x104
def hub_STEPPING : Nat := 0x108
def hub_REJECT_COUNT : Nat := 0x10C
def hub_REJECT_LAST : Nat := 0x110
def hub_UPTIME_LO : Nat := 0x114
def hub_UPTIME_HI : Nat := 0x118
def hub_SADDLE_k_STATE : Nat := 0x200
def hub_SADDLE_k_CRC : Nat := 0x204
def hub_SADDLE_k_REPLAY : Nat := 0x208
def pcx_FUNC : Nat := 0x100
def pcx_LINK : Nat := 0x104
def pcx_MW_BASE : Nat := 0x108
def pcx_MW_SLOT : Nat := 0x10C
def pcx_BAD_ACCESS : Nat := 0x110
def pcx_FOREIGN : Nat := 0x114
def pcx_MW_REFUSED : Nat := 0x118
def pcx_POISONED : Nat := 0x11C
def pcx_REJECTS : Nat := 0x120
def pcx_TAGS : Nat := 0x124
def pcx_LINK_REPLAY : Nat := 0x128
def pcx_FEC_CORR : Nat := 0x12C
def pcx_SRC_PEND_n : Nat := 0x140
def pcx_TRC_PEND_d : Nat := 0x160
def pcx_CORE_PEND_d_w : Nat := 0x180
def pcx_VMAP_n : Nat := 0x300
def pwr_VIN : Nat := 0x100
def pwr_IIN : Nat := 0x104
def pwr_PIN : Nat := 0x108
def pwr_PIN_MAX : Nat := 0x10C
def pwr_PIN_ALARM : Nat := 0x110
def pwr_RAIL_STATUS : Nat := 0x114
def pwr_FAULT_INFO : Nat := 0x118
def pwr_CORE_MHZ : Nat := 0x11C
def pwr_SLEW : Nat := 0x120
def pwr_UV_EVENTS : Nat := 0x124
def pwr_OV_EVENTS : Nat := 0x128
def pwr_ENERGY_LO : Nat := 0x12C
def pwr_ENERGY_HI : Nat := 0x130
def pwr_CORE_POWER_d : Nat := 0x140
def thm_THROTTLE_C : Nat := 0x100
def thm_HYST_C : Nat := 0x104
def thm_STEP_PCT : Nat := 0x108
def thm_HBM_THROTTLE_C : Nat := 0x10C
def thm_COOLANT : Nat := 0x110
def thm_HUB_TEMP : Nat := 0x114
def thm_MODULE_MAX : Nat := 0x118
def thm_LIMIT_COUNT : Nat := 0x11C
def thm_TRIP_LATCH : Nat := 0x120
def thm_EXT_PCT_s : Nat := 0x140
def thm_DIE_MAX : Nat := 0x100
def thm_DIE_HOT_TRACT : Nat := 0x104
def thm_DIE_PEAK : Nat := 0x108
def thm_TRACT_t : Nat := 0x140
def kld_FW_STATE : Nat := 0x100
def kld_FW_VER_A : Nat := 0x104
def kld_FW_VER_B : Nat := 0x108
def kld_SEQ_VER_d : Nat := 0x10C
def kld_HEARTBEAT : Nat := 0x12C
def kld_NODE_CFG : Nat := 0x130
def kld_SMB_REFUSED : Nat := 0x134
def kld_STAGE_DONE : Nat := 0x138
def kld_SLOT_TEMP : Nat := 0x180
def kld_SLOT_HBM_TEMP : Nat := 0x184
def kld_SLOT_EXT_PCT : Nat := 0x188
def kld_SLOT_POWER : Nat := 0x18C

/-- Block registers of R18. -/
def rowsTrc : List RegRow := [
  ⟨0x100, 4, 15, .ro, 0x0, 0x0⟩ /- TRC.MAP_n -/,
  ⟨0x140, 4, 1, .ro, 0x0, 0x0⟩ /- TRC.RESERVE -/,
  ⟨0x144, 4, 1, .ro, 0x0, 0x0⟩ /- TRC.SITE_STATE -/,
  ⟨0x148, 4, 1, .ro, 0x0, 0x0⟩ /- TRC.LOGICAL_BASE -/,
  ⟨0x14C, 4, 1, .ro, 0x0, 0x0⟩ /- TRC.SWAP_COUNT -/]

/-- Block registers of R185, R46. -/
def rowsTke : List RegRow := [
  ⟨0x100, 4, 1, .ro, 0x0, 0x0⟩ /- TKE.CONTEXTS -/,
  ⟨0x104, 4, 1, .ro, 0x0, 0x0⟩ /- TKE.RELEASED -/,
  ⟨0x108, 4, 1, .ro, 0x0, 0x0⟩ /- TKE.READY -/,
  ⟨0x10C, 4, 1, .ro, 0x0, 0x0⟩ /- TKE.RUNNING -/,
  ⟨0x110, 4, 1, .ro, 0x0, 0x0⟩ /- TKE.SPEC -/,
  ⟨0x114, 4, 1, .rc, 0x0, 0x0⟩ /- TKE.COMMIT_COUNT -/,
  ⟨0x118, 4, 1, .rc, 0x0, 0x0⟩ /- TKE.DISCARD_COUNT -/,
  ⟨0x11C, 4, 1, .rc, 0x0, 0x0⟩ /- TKE.AHEAD_DISCARDS -/,
  ⟨0x120, 4, 1, .rc, 0x0, 0x0⟩ /- TKE.SAMPLE_FAULTS -/,
  ⟨0x124, 4, 1, .rc, 0x0, 0x0⟩ /- TKE.DEADLINE_MISS -/,
  ⟨0x128, 4, 1, .ro, 0x0, 0x0⟩ /- TKE.LAST_MISS -/,
  ⟨0x12C, 4, 1, .rc, 0x0, 0x0⟩ /- TKE.YIELD_COUNT -/,
  ⟨0x130, 4, 1, .rc, 0x0, 0x0⟩ /- TKE.DEP_SENT -/,
  ⟨0x134, 4, 1, .rc, 0x0, 0x0⟩ /- TKE.DEP_RECV -/,
  ⟨0x138, 4, 1, .ro, 0x0, 0x0⟩ /- TKE.FAULT_TASK -/,
  ⟨0x13C, 4, 1, .ro, 0x0, 0x0⟩ /- TKE.FAULT_INFO -/,
  ⟨0x140, 4, 1, .rw, 0x0, 0x1FFF⟩ /- TKE.CTX_SEL -/,
  ⟨0x180, 4, 16, .ro, 0x0, 0x0⟩ /- TKE.CTX_DATA_n -/,
  ⟨0x1C0, 4, 32, .ro, 0x0, 0x0⟩ /- TKE.CTX_RUN_n -/,
  ⟨0x240, 4, 1, .rw, 0x0, 0x301FF⟩ /- TKE.SHD_SEL -/,
  ⟨0x244, 4, 1, .rw, 0x0, 0x3FFFFF⟩ /- TKE.SHD_CFG -/,
  ⟨0x248, 4, 1, .ro, 0x0, 0x0⟩ /- TKE.SHD_STATE -/,
  ⟨0x600, 8, 16, .rw, 0x0, 0xFFFF01FF⟩ /- TKE.FMT_CLASS_n_A -/,
  ⟨0x604, 8, 16, .rw, 0x0, 0xFFFFFFFF⟩ /- TKE.FMT_CLASS_n_B -/,
  ⟨0x680, 4, 1, .rw, 0x0, 0xFFFFFFFF⟩ /- TKE.SR_SEED_LO -/,
  ⟨0x684, 4, 1, .rw, 0x0, 0xFFFFFFFF⟩ /- TKE.SR_SEED_HI -/,
  ⟨0x688, 4, 1, .rc, 0x0, 0x0⟩ /- TKE.ESC_COUNT_J2 -/,
  ⟨0x68C, 4, 1, .rc, 0x0, 0x0⟩ /- TKE.ESC_COUNT_J3 -/,
  ⟨0x690, 4, 1, .rc, 0x0, 0x0⟩ /- TKE.ESC_COUNT_E2M1 -/,
  ⟨0x694, 4, 1, .rc, 0x0, 0x0⟩ /- TKE.ESC_FAIL -/,
  ⟨0x698, 4, 1, .ro, 0x0, 0x0⟩ /- TKE.ESC_LAST_TASK -/,
  ⟨0x69C, 4, 1, .ro, 0x0, 0x0⟩ /- TKE.ESC_LAST_INFO -/]

/-- Block registers of R107, R47. -/
def rowsCor : List RegRow := [
  ⟨0x100, 4, 1, .ro, 0x0, 0x0⟩ /- COR.STATE -/,
  ⟨0x104, 4, 1, .ro, 0x0, 0x0⟩ /- COR.PC -/,
  ⟨0x108, 4, 1, .ro, 0x0, 0x0⟩ /- COR.TASK -/,
  ⟨0x10C, 4, 1, .ro, 0x0, 0x0⟩ /- COR.STALL -/,
  ⟨0x110, 4, 1, .rc, 0x0, 0x0⟩ /- COR.CHK_COUNT -/,
  ⟨0x114, 4, 1, .rc, 0x0, 0x0⟩ /- COR.CHK_FAIL -/,
  ⟨0x118, 4, 1, .ro, 0x0, 0x0⟩ /- COR.FAULT_INFO -/,
  ⟨0x11C, 4, 1, .rc, 0x0, 0x0⟩ /- COR.UNMATCHED -/,
  ⟨0x120, 4, 1, .rc, 0x0, 0x0⟩ /- COR.EPOCH_REFUSED -/,
  ⟨0x124, 4, 1, .rc, 0x0, 0x0⟩ /- COR.SEM_SAT -/,
  ⟨0x128, 4, 1, .ro, 0x0, 0x0⟩ /- COR.RULE_EN -/,
  ⟨0x180, 4, 32, .ro, 0x0, 0x0⟩ /- COR.SEM_n -/,
  ⟨0x600, 4, 16, .rw, 0x0, 0xFFFFFFFF⟩ /- COR.AMAX_n -/]

/-- Block registers of R155. -/
def rowsTckG : List RegRow := [
  ⟨0x100, 4, 1, .rw, 0x1000, 0x1FFFFF⟩ /- TCK.TICK_LEN -/,
  ⟨0x104, 4, 1, .rw, 0x0, 0x1FFFFF⟩ /- TCK.STRETCH_LIMIT -/,
  ⟨0x108, 4, 1, .rw, 0x0, 0x1FFFFF⟩ /- TCK.THERM_EXT -/,
  ⟨0x10C, 4, 1, .rw, 0x40, 0xFFF⟩ /- TCK.ALIGN -/,
  ⟨0x110, 4, 1, .ro, 0x80, 0x0⟩ /- TCK.GUARD -/,
  ⟨0x114, 4, 1, .rw, 0x0, 0xFFFFFFFF⟩ /- TCK.WINDOW -/,
  ⟨0x118, 4, 1, .rw, 0x0, 0xFF⟩ /- TCK.DEPTH -/,
  ⟨0x11C, 4, 1, .rw, 0x0, 0x7FF⟩ /- TCK.PEERS -/,
  ⟨0x120, 4, 1, .ro, 0x0, 0x0⟩ /- TCK.EPOCH -/,
  ⟨0x124, 4, 1, .ro, 0x0, 0x0⟩ /- TCK.PHASE -/,
  ⟨0x128, 4, 1, .ro, 0x0, 0x0⟩ /- TCK.TICK_LO -/,
  ⟨0x12C, 4, 1, .ro, 0x0, 0x0⟩ /- TCK.TICK_HI -/,
  ⟨0x130, 4, 1, .ro, 0x0, 0x0⟩ /- TCK.WINDOW_TICK -/,
  ⟨0x134, 4, 1, .ro, 0x0, 0x0⟩ /- TCK.WINDOW_COUNT -/,
  ⟨0x138, 4, 1, .ro, 0x0, 0x0⟩ /- TCK.RESIDUE -/,
  ⟨0x13C, 4, 1, .ro, 0x0, 0x0⟩ /- TCK.EXT_APPLIED -/,
  ⟨0x140, 4, 1, .rc, 0x0, 0x0⟩ /- TCK.OVERRUN_COUNT -/,
  ⟨0x144, 4, 1, .rc, 0x0, 0x0⟩ /- TCK.STRETCH_TOTAL -/,
  ⟨0x148, 4, 1, .rc, 0x0, 0x0⟩ /- TCK.STRETCH_MAX -/,
  ⟨0x14C, 4, 1, .ro, 0x0, 0x0⟩ /- TCK.LATE_DIES -/,
  ⟨0x150, 4, 1, .rc, 0x0, 0x0⟩ /- TCK.THERM_TICKS -/,
  ⟨0x154, 4, 1, .rc, 0x0, 0x0⟩ /- TCK.EPOCH_REFUSED -/]

/-- Block registers of R157. -/
def rowsTckR : List RegRow := [
  ⟨0x100, 4, 1, .ro, 0x0, 0x0⟩ /- TCK.RX_STATE -/,
  ⟨0x104, 4, 1, .ro, 0x0, 0x0⟩ /- TCK.RX_MARKER_LAT -/,
  ⟨0x108, 4, 1, .ro, 0x0, 0x0⟩ /- TCK.RX_DONE_LAST -/,
  ⟨0x10C, 4, 1, .rc, 0x0, 0x0⟩ /- TCK.RX_DONE_MAX -/,
  ⟨0x110, 4, 1, .rc, 0x0, 0x0⟩ /- TCK.RX_LATE_COUNT -/,
  ⟨0x114, 4, 1, .ro, 0x0, 0x0⟩ /- TCK.RX_THERM_REQ -/]

/-- Block registers of R188. -/
def rowsWkc : List RegRow := [
  ⟨0x100, 16, 64, .rw, 0x0, 0xFFFFFFFF⟩ /- WKC.VALUE_m -/,
  ⟨0x104, 16, 64, .rw, 0x0, 0xFFFFFFFF⟩ /- WKC.LIMIT_m -/,
  ⟨0x108, 16, 64, .rw, 0x0, 0xFFFFFFFF⟩ /- WKC.BASE_m -/,
  ⟨0x10C, 16, 64, .rw, 0x0, 0x7⟩ /- WKC.CFG_m -/,
  ⟨0x500, 4, 1, .rc, 0x0, 0x0⟩ /- WKC.EXHAUSTED -/,
  ⟨0x504, 4, 1, .rc, 0x0, 0x0⟩ /- WKC.CLAIMS -/,
  ⟨0x508, 4, 1, .rc, 0x0, 0x0⟩ /- WKC.WRITE_REFUSED -/,
  ⟨0x50C, 4, 1, .ro, 0x0, 0x0⟩ /- WKC.LAST_EXHAUSTED -/]

/-- Block registers of R218. -/
def rowsPgt : List RegRow := [
  ⟨0x100, 4, 1, .ro, 0x0, 0x0⟩ /- PGT.ROOT_LO -/,
  ⟨0x104, 4, 1, .ro, 0x0, 0x0⟩ /- PGT.ROOT_HI -/,
  ⟨0x108, 4, 1, .ro, 0x0, 0x0⟩ /- PGT.HOME -/,
  ⟨0x10C, 4, 1, .rw, 0x64, 0xFFFF⟩ /- PGT.AGE_PERIOD -/,
  ⟨0x110, 4, 1, .rw, 0x0, 0xFFFFFFFF⟩ /- PGT.T0_LOW -/,
  ⟨0x114, 4, 1, .rw, 0x0, 0xFFFFFFFF⟩ /- PGT.T0_HIGH -/,
  ⟨0x118, 4, 1, .rw, 0x0, 0xFFFFFFFF⟩ /- PGT.T1_LOW -/,
  ⟨0x11C, 4, 1, .rw, 0x0, 0xFFFFFFFF⟩ /- PGT.T1_HIGH -/,
  ⟨0x120, 4, 1, .ro, 0x0, 0x0⟩ /- PGT.FREE_T0 -/,
  ⟨0x124, 4, 1, .ro, 0x0, 0x0⟩ /- PGT.FREE_T1 -/,
  ⟨0x128, 4, 1, .ro, 0x0, 0x0⟩ /- PGT.FREE_T2 -/,
  ⟨0x12C, 4, 1, .ro, 0x0, 0x0⟩ /- PGT.POOL_T0 -/,
  ⟨0x130, 4, 1, .ro, 0x0, 0x0⟩ /- PGT.POOL_T1 -/,
  ⟨0x134, 4, 1, .ro, 0x0, 0x0⟩ /- PGT.POOL_T2 -/,
  ⟨0x138, 4, 1, .ro, 0x0, 0x0⟩ /- PGT.QUOTA_SUM -/,
  ⟨0x13C, 4, 1, .ro, 0x0, 0x0⟩ /- PGT.WALK_LO -/,
  ⟨0x140, 4, 1, .ro, 0x0, 0x0⟩ /- PGT.WALK_HI -/,
  ⟨0x144, 4, 1, .rc, 0x0, 0x0⟩ /- PGT.DEMOTE_COUNT -/,
  ⟨0x148, 4, 1, .rc, 0x0, 0x0⟩ /- PGT.PROMOTE_COUNT -/,
  ⟨0x14C, 4, 1, .rc, 0x0, 0x0⟩ /- PGT.EXPAND_COUNT -/,
  ⟨0x150, 4, 1, .rc, 0x0, 0x0⟩ /- PGT.RUNAHEAD_DROP -/,
  ⟨0x154, 4, 1, .rc, 0x0, 0x0⟩ /- PGT.FAULT_COUNT -/,
  ⟨0x158, 4, 1, .ro, 0x0, 0x0⟩ /- PGT.FAULT_VA_LO -/,
  ⟨0x15C, 4, 1, .ro, 0x0, 0x0⟩ /- PGT.FAULT_VA_HI -/,
  ⟨0x160, 4, 1, .ro, 0x0, 0x0⟩ /- PGT.FAULT_INFO -/,
  ⟨0x164, 4, 1, .rc, 0x0, 0x0⟩ /- PGT.TLB_MISS -/,
  ⟨0x168, 4, 1, .rc, 0x0, 0x0⟩ /- PGT.CMD_DROPPED -/,
  ⟨0x180, 8, 64, .ro, 0x0, 0x0⟩ /- PGT.QUOTA_j -/,
  ⟨0x184, 8, 64, .ro, 0x0, 0x0⟩ /- PGT.USED_j -/]

/-- Block registers of R222. -/
def rowsMem : List RegRow := [
  ⟨0x100, 4, 1, .ro, 0x20500818, 0x0⟩ /- MEM.STACK_INFO -/,
  ⟨0x104, 4, 1, .ro, 0x59682F, 0x0⟩ /- MEM.SECTORS -/,
  ⟨0x108, 4, 1, .rc, 0x0, 0x0⟩ /- MEM.RD_UNITS -/,
  ⟨0x10C, 4, 1, .rc, 0x0, 0x0⟩ /- MEM.WR_UNITS -/,
  ⟨0x110, 4, 1, .rc, 0x0, 0x0⟩ /- MEM.CODEC_ENC -/,
  ⟨0x114, 4, 1, .rc, 0x0, 0x0⟩ /- MEM.CODEC_DEC -/,
  ⟨0x118, 4, 1, .rc, 0x0, 0x0⟩ /- MEM.CODEC_RAW -/,
  ⟨0x11C, 4, 1, .rc, 0x0, 0x0⟩ /- MEM.CODEC_SECT -/,
  ⟨0x120, 4, 1, .rc, 0x0, 0x0⟩ /- MEM.CODEC_CRC_ERR -/,
  ⟨0x124, 4, 1, .rc, 0x0, 0x0⟩ /- MEM.ODECC_CE -/,
  ⟨0x128, 4, 1, .ro, 0x0, 0x0⟩ /- MEM.TEMP -/,
  ⟨0x12C, 4, 1, .ro, 0x0, 0x0⟩ /- MEM.TAGS_HELD -/,
  ⟨0x130, 4, 1, .rc, 0x0, 0x0⟩ /- MEM.LAT_MAX -/,
  ⟨0x134, 4, 1, .ro, 0x2, 0x0⟩ /- MEM.CAL_STATUS -/]

/-- Block registers of R244. -/
def rowsStm : List RegRow := [
  ⟨0x100, 4, 1, .rw, 0x0, 0x3FF⟩ /- STM.DESC_SEL -/,
  ⟨0x104, 4, 1, .ro, 0x0, 0x0⟩ /- STM.DESC_STATUS -/,
  ⟨0x120, 4, 8, .rw, 0x0, 0xFFFFFFFF⟩ /- STM.DESC_DATA_n -/,
  ⟨0x140, 4, 1, .ro, 0x0, 0x0⟩ /- STM.ACTIVE -/,
  ⟨0x144, 4, 1, .rc, 0x0, 0x0⟩ /- STM.ARMS_DONE -/,
  ⟨0x148, 4, 1, .rc, 0x0, 0x0⟩ /- STM.EMPTY_COUNT -/,
  ⟨0x14C, 4, 1, .rc, 0x0, 0x0⟩ /- STM.OVERRUN_COUNT -/,
  ⟨0x150, 4, 1, .rc, 0x0, 0x0⟩ /- STM.RA_ISSUED -/,
  ⟨0x154, 4, 1, .rc, 0x0, 0x0⟩ /- STM.RA_USED -/,
  ⟨0x158, 4, 1, .rw, 0x80, 0x3FF⟩ /- STM.RA_TAG_LIMIT -/,
  ⟨0x15C, 4, 1, .rc, 0x0, 0x0⟩ /- STM.RD_UNITS -/,
  ⟨0x160, 4, 1, .rc, 0x0, 0x0⟩ /- STM.WR_UNITS -/,
  ⟨0x164, 4, 1, .rc, 0x0, 0x0⟩ /- STM.HALT_COUNT -/,
  ⟨0x168, 4, 1, .ro, 0x0, 0x0⟩ /- STM.LAST_FAULT -/,
  ⟨0x16C, 4, 1, .ro, 0x0, 0x0⟩ /- STM.LAST_SAMPLE -/,
  ⟨0x170, 4, 1, .rc, 0x0, 0x0⟩ /- STM.WRITE_REFUSED -/]

/-- Block registers of R248. -/
def rowsGch : List RegRow := [
  ⟨0x100, 4, 1, .rw, 0x0, 0x3FF⟩ /- GCH.GDESC_SEL -/,
  ⟨0x104, 4, 1, .ro, 0x0, 0x0⟩ /- GCH.GDESC_STATUS -/,
  ⟨0x120, 4, 8, .rw, 0x0, 0xFFFFFFFF⟩ /- GCH.GDESC_DATA_n -/,
  ⟨0x140, 4, 1, .rw, 0x4, 0x1F⟩ /- GCH.RA_WAYS -/,
  ⟨0x144, 4, 1, .rw, 0x0, 0xFFFF0000⟩ /- GCH.GEN_VA_LO -/,
  ⟨0x148, 4, 1, .rw, 0x0, 0xFFFF⟩ /- GCH.GEN_VA_HI -/,
  ⟨0x14C, 4, 1, .rw, 0x0, 0xFFFFFF⟩ /- GCH.GEN_PAGES -/,
  ⟨0x150, 4, 1, .rw, 0x0, 0xFFFFFFC0⟩ /- GCH.GEN_TBL_LO -/,
  ⟨0x154, 4, 1, .rw, 0x0, 0xFFFF⟩ /- GCH.GEN_TBL_HI -/,
  ⟨0x158, 4, 1, .rc, 0x0, 0x0⟩ /- GCH.HITS -/,
  ⟨0x15C, 4, 1, .rc, 0x0, 0x0⟩ /- GCH.MISSES -/,
  ⟨0x160, 4, 1, .rc, 0x0, 0x0⟩ /- GCH.NULL_ROWS -/,
  ⟨0x164, 4, 1, .rc, 0x0, 0x0⟩ /- GCH.OOB_ROWS -/,
  ⟨0x168, 4, 1, .rc, 0x0, 0x0⟩ /- GCH.STALE_COUNT -/,
  ⟨0x16C, 4, 1, .ro, 0x0, 0x0⟩ /- GCH.LAST_STALE -/,
  ⟨0x170, 4, 1, .rc, 0x0, 0x0⟩ /- GCH.INVALIDATIONS -/,
  ⟨0x174, 4, 1, .rc, 0x0, 0x0⟩ /- GCH.RA_EVICT -/,
  ⟨0x178, 4, 1, .ro, 0x0, 0x0⟩ /- GCH.LAST_FAULT -/,
  ⟨0x17C, 4, 1, .rc, 0x0, 0x0⟩ /- GCH.WRITE_REFUSED -/]

/-- Block registers of R278. -/
def rowsTmt : List RegRow := [
  ⟨0x100, 4, 1, .ro, 0x40, 0x0⟩ /- TMT.STATE -/,
  ⟨0x104, 4, 1, .rw, 0x1, 0x1FF⟩ /- TMT.FRAME_LEN -/,
  ⟨0x108, 4, 1, .rw, 0x1000, 0x1FFFFF⟩ /- TMT.IDLE_UNIT -/,
  ⟨0x10C, 4, 1, .ro, 0x0, 0x0⟩ /- TMT.ENTRY_LEFT -/,
  ⟨0x110, 4, 1, .ro, 0x0, 0x0⟩ /- TMT.FRAME_LAST -/,
  ⟨0x114, 4, 1, .rc, 0x0, 0x0⟩ /- TMT.FRAME_MAX -/,
  ⟨0x118, 4, 1, .rc, 0x0, 0x0⟩ /- TMT.SWITCH_COUNT -/,
  ⟨0x11C, 4, 1, .ro, 0x0, 0x0⟩ /- TMT.SWITCH_LAST -/,
  ⟨0x120, 4, 1, .rc, 0x0, 0x0⟩ /- TMT.SWITCH_MAX -/,
  ⟨0x124, 4, 1, .ro, 0x0, 0x0⟩ /- TMT.HALT_INFO -/,
  ⟨0x128, 4, 1, .rc, 0x0, 0x0⟩ /- TMT.ACCT_REDIRECT -/,
  ⟨0x12C, 4, 1, .ro, 0x3C04, 0x0⟩ /- TMT.CTX_NEED -/,
  ⟨0x130, 4, 1, .ro, 0x0, 0x0⟩ /- TMT.CTX_LAST -/,
  ⟨0x134, 4, 1, .ro, 0x0, 0x0⟩ /- TMT.OWN_DIES -/,
  ⟨0x138, 4, 1, .ro, 0x0, 0x0⟩ /- TMT.OWN_PORTS -/,
  ⟨0x13C, 4, 1, .ro, 0x0, 0x0⟩ /- TMT.OWN_GROUPS -/,
  ⟨0x140, 4, 1, .rw, 0x0, 0xFF⟩ /- TMT.TT_SEL -/,
  ⟨0x144, 4, 1, .rw, 0x0, 0xFFFFFFFF⟩ /- TMT.TT_LO -/,
  ⟨0x148, 4, 1, .rw, 0x0, 0xFFFFFFFF⟩ /- TMT.TT_HI -/,
  ⟨0x14C, 4, 1, .rw, 0x0, 0x3F⟩ /- TMT.JOB_SEL -/,
  ⟨0x150, 4, 1, .rw, 0x0, 0x3FFFF⟩ /- TMT.JOB_CFG -/,
  ⟨0x154, 4, 1, .rw, 0x0, 0x7FFFF⟩ /- TMT.JOB_CTX -/,
  ⟨0x158, 4, 1, .ro, 0x0, 0x0⟩ /- TMT.JOB_STATE -/,
  ⟨0x15C, 4, 1, .ro, 0x0, 0x0⟩ /- TMT.ACCT_LO -/,
  ⟨0x160, 4, 1, .ro, 0x0, 0x0⟩ /- TMT.ACCT_HI -/,
  ⟨0x164, 4, 1, .ro, 0x0, 0x0⟩ /- TMT.PASS_LO -/,
  ⟨0x168, 4, 1, .ro, 0x0, 0x0⟩ /- TMT.PASS_HI -/]

/-- Block registers of R281. -/
def rowsLayout : List RegRow := [
  ⟨0x100, 4, 1, .ro, 0x1, 0x0⟩ /- TMT.LAYOUT -/,
  ⟨0x104, 4, 8, .rw, 0x0, 0xFFFF⟩ /- TMT.PORT_MASK_s -/,
  ⟨0x124, 4, 1, .rc, 0x0, 0x0⟩ /- TMT.SADDLE_REFUSED -/]

/-- Block registers of R283. -/
def rowsSmp : List RegRow := [
  ⟨0x100, 4, 1, .rw, 0x400, 0xFFFF⟩ /- SMP.INTERVAL -/,
  ⟨0x104, 4, 1, .rw, 0x24, 0xFFF⟩ /- SMP.SHIFT -/,
  ⟨0x108, 4, 1, .ro, 0x0, 0x0⟩ /- SMP.SAMPLES -/,
  ⟨0x10C, 4, 1, .rw, 0x0, 0xFFF⟩ /- SMP.HIST_SEL -/,
  ⟨0x110, 4, 1, .ro, 0x0, 0x0⟩ /- SMP.BUSY -/,
  ⟨0x114, 4, 1, .ro, 0x0, 0x0⟩ /- SMP.TOP_CORE -/,
  ⟨0x140, 4, 16, .ro, 0x0, 0x0⟩ /- SMP.HIST_BIN_n -/]

/-- Block registers of R321. -/
def rowsPort : List RegRow := [
  ⟨0x100, 4, 1, .ro, 0xF0, 0x0⟩ /- FLD.STATE -/,
  ⟨0x104, 4, 1, .ro, 0x0, 0x0⟩ /- FLD.PEER -/,
  ⟨0x108, 4, 1, .ro, 0x0, 0x0⟩ /- FLD.HB_AGE -/,
  ⟨0x10C, 4, 1, .rc, 0x0, 0x0⟩ /- FLD.TX_FLITS -/,
  ⟨0x110, 4, 1, .rc, 0x0, 0x0⟩ /- FLD.RX_FLITS -/,
  ⟨0x114, 4, 1, .rc, 0x0, 0x0⟩ /- FLD.CRC_ERR -/,
  ⟨0x118, 4, 1, .rc, 0x0, 0x0⟩ /- FLD.REPLAYS -/,
  ⟨0x11C, 4, 1, .rc, 0x0, 0x0⟩ /- FLD.FEC_CORR -/,
  ⟨0x120, 4, 1, .rc, 0x0, 0x0⟩ /- FLD.FEC_UNCORR -/,
  ⟨0x124, 4, 1, .rc, 0x0, 0x0⟩ /- FLD.DISCARDED -/,
  ⟨0x128, 4, 1, .ro, 0x0, 0x0⟩ /- FLD.LANE_STATUS -/,
  ⟨0x12C, 4, 1, .rc, 0x0, 0x0⟩ /- FLD.TRAIN_COUNT -/]

/-- Block registers of R324. -/
def rowsRoute : List RegRow := [
  ⟨0x100, 4, 1, .rw, 0x0, 0x3FFFF⟩ /- FLD.MODULE -/,
  ⟨0x104, 4, 1, .rw, 0x0, 0x1F1F1F⟩ /- FLD.TORUS -/,
  ⟨0x108, 4, 1, .rw, 0x0, 0xFF⟩ /- FLD.EXC_SEL -/,
  ⟨0x10C, 4, 1, .rw, 0x0, 0x3FFFF⟩ /- FLD.EXC_MATCH -/,
  ⟨0x110, 4, 1, .rw, 0x0, 0x3FFFF⟩ /- FLD.EXC_MASK -/,
  ⟨0x114, 4, 1, .rw, 0x0, 0x7F⟩ /- FLD.EXC_ACTION -/,
  ⟨0x118, 4, 1, .rc, 0x0, 0x0⟩ /- FLD.UNROUTABLE -/,
  ⟨0x11C, 4, 1, .rc, 0x0, 0x0⟩ /- FLD.FOREIGN_REFUSED -/]

/-- Block registers of R326. -/
def rowsClv : List RegRow := [
  ⟨0x100, 4, 1, .rw, 0x0, 0xFFF⟩ /- CLV.GRP_SEL -/,
  ⟨0x104, 4, 8, .ro, 0x0, 0x0⟩ /- CLV.GRP_DATA_n -/,
  ⟨0x124, 4, 1, .rw, 0x0, 0xFFF⟩ /- CLV.OP_SEL -/,
  ⟨0x128, 4, 1, .ro, 0x0, 0x0⟩ /- CLV.OP_STATE -/,
  ⟨0x12C, 4, 1, .ro, 0x0, 0x0⟩ /- CLV.ACTIVE -/,
  ⟨0x130, 4, 1, .rc, 0x0, 0x0⟩ /- CLV.RUNS -/,
  ⟨0x134, 4, 1, .rc, 0x0, 0x0⟩ /- CLV.ABORTS -/,
  ⟨0x138, 4, 1, .rc, 0x0, 0x0⟩ /- CLV.VERSION_REFUSED -/,
  ⟨0x13C, 4, 1, .rc, 0x0, 0x0⟩ /- CLV.POST_REFUSED -/,
  ⟨0x140, 4, 1, .rc, 0x0, 0x0⟩ /- CLV.BYTES_OUT -/,
  ⟨0x144, 4, 1, .rc, 0x0, 0x0⟩ /- CLV.BYTES_IN -/,
  ⟨0x148, 4, 1, .ro, 0x0, 0x0⟩ /- CLV.LAST_ABORT -/,
  ⟨0x200, 8, 64, .rw, 0x0, 0xFFFF0000⟩ /- CLV.OP_BASE_j_LO -/,
  ⟨0x204, 8, 64, .rw, 0x0, 0x1FFFFFFF⟩ /- CLV.OP_BASE_j_HI -/]

/-- Block registers of R358. -/
def rowsCkp : List RegRow := [
  ⟨0x100, 4, 1, .ro, 0x0, 0x0⟩ /- CKP.STATE -/,
  ⟨0x104, 4, 1, .rw, 0x0, 0x7FFFF⟩ /- CKP.AREA_OFF -/,
  ⟨0x108, 4, 1, .rw, 0x0, 0xFFFF⟩ /- CKP.AREA_SIZE -/,
  ⟨0x10C, 4, 1, .rw, 0x0, 0x8003FFFF⟩ /- CKP.BUDDY -/,
  ⟨0x110, 4, 1, .rw, 0x0, 0x8003FFFF⟩ /- CKP.HOST_FOR -/,
  ⟨0x114, 4, 1, .rw, 0x0, 0xFFFF0000⟩ /- CKP.HOST_AREA_LO -/,
  ⟨0x118, 4, 1, .rw, 0x0, 0xFFFF⟩ /- CKP.HOST_AREA_HI -/,
  ⟨0x11C, 4, 1, .rw, 0x0, 0xFFFF⟩ /- CKP.HOST_AREA_SIZE -/,
  ⟨0x120, 4, 1, .rw, 0x0, 0xFFFFFFFF⟩ /- CKP.CURSOR -/,
  ⟨0x124, 4, 1, .ro, 0xFFFFFFFF, 0x0⟩ /- CKP.SETTLED -/,
  ⟨0x128, 4, 1, .rw, 0x3, 0xFF⟩ /- CKP.REPLAY_LIMIT -/,
  ⟨0x12C, 4, 1, .ro, 0x0, 0x0⟩ /- CKP.FAULT_SAMPLE -/,
  ⟨0x130, 4, 1, .ro, 0x1FF00, 0x0⟩ /- CKP.FAULT_INFO -/,
  ⟨0x134, 4, 1, .rc, 0x0, 0x0⟩ /- CKP.SAMPLE_FAULTS -/,
  ⟨0x138, 4, 1, .rc, 0x0, 0x0⟩ /- CKP.WINDOW_FAULTS -/,
  ⟨0x13C, 4, 1, .ro, 0x0, 0x0⟩ /- CKP.PAGES_TOTAL -/,
  ⟨0x140, 4, 1, .ro, 0x0, 0x0⟩ /- CKP.PAGES_DONE -/,
  ⟨0x144, 4, 1, .ro, 0x0, 0x0⟩ /- CKP.PAGES_RIDE -/,
  ⟨0x148, 4, 1, .rc, 0x0, 0x0⟩ /- CKP.COW_STALLS -/,
  ⟨0x14C, 4, 1, .rc, 0x0, 0x0⟩ /- CKP.COW_STALL_MAX -/,
  ⟨0x150, 4, 1, .ro, 0x0, 0x0⟩ /- CKP.HOLD_LAST -/,
  ⟨0x154, 4, 1, .rc, 0x0, 0x0⟩ /- CKP.BYTES_BUDDY -/,
  ⟨0x158, 4, 1, .ro, 0x0, 0x0⟩ /- CKP.COUNT -/,
  ⟨0x15C, 4, 1, .ro, 0x0, 0x0⟩ /- CKP.LAST_PAGE -/,
  ⟨0x160, 4, 1, .ro, 0x0, 0x0⟩ /- CKP.VERIFY_PAGES -/,
  ⟨0x164, 4, 1, .ro, 0x0, 0x0⟩ /- CKP.VERIFY_FETCHED -/,
  ⟨0x168, 4, 1, .ro, 0x0, 0x0⟩ /- CKP.VERIFY_BAD -/,
  ⟨0x16C, 4, 1, .rc, 0x0, 0x0⟩ /- CKP.REFUSED -/,
  ⟨0x170, 4, 1, .ro, 0xFFFFFFF0, 0x0⟩ /- CKP.SAMPLE_WRAP -/,
  ⟨0x180, 16, 2, .ro, 0x0, 0x0⟩ /- CKP.SLOT_n_STATE -/,
  ⟨0x184, 16, 2, .ro, 0x0, 0x0⟩ /- CKP.SLOT_n_WINDOW -/,
  ⟨0x188, 16, 2, .ro, 0x0, 0x0⟩ /- CKP.SLOT_n_CURSOR -/,
  ⟨0x18C, 16, 2, .ro, 0x0, 0x0⟩ /- CKP.SLOT_n_NUMBER -/]

/-- Block registers of R387. -/
def rowsScb : List RegRow := [
  ⟨0x100, 4, 1, .rw, 0x18, 0xFF⟩ /- SCB.SRAM_PERIOD -/,
  ⟨0x104, 4, 1, .rw, 0x48, 0xFF⟩ /- SCB.HBM_PERIOD -/,
  ⟨0x108, 4, 1, .ro, 0x0, 0x0⟩ /- SCB.SRAM_PASSES -/,
  ⟨0x10C, 4, 1, .ro, 0x0, 0x0⟩ /- SCB.HBM_PASSES -/,
  ⟨0x110, 4, 1, .ro, 0x0, 0x0⟩ /- SCB.SRAM_POS -/,
  ⟨0x114, 4, 1, .ro, 0x0, 0x0⟩ /- SCB.HBM_POS -/,
  ⟨0x118, 4, 1, .rc, 0x0, 0x0⟩ /- SCB.CE_FOUND -/,
  ⟨0x11C, 4, 1, .rc, 0x0, 0x0⟩ /- SCB.UE_FOUND -/]

/-- The hub's SCB page has no HBM registers: they read zero and ignore writes. -/
def rowsScbH : List RegRow := rowsScb.filter (fun r => !(r.off == 0x104 || r.off == 0x10C || r.off == 0x114))

/-- Block registers of R388. -/
def rowsFus : List RegRow := [
  ⟨0x100, 4, 1, .ro, 0x0, 0x0⟩ /- FUS.LOG_COUNT -/,
  ⟨0x104, 4, 1, .ro, 0x0, 0x0⟩ /- FUS.LOG_PENDING -/,
  ⟨0x108, 4, 1, .ro, 0x0, 0x0⟩ /- FUS.EXHAUSTED -/,
  ⟨0x10C, 4, 1, .ro, 0x0, 0x0⟩ /- FUS.RETIRED -/,
  ⟨0x110, 4, 1, .rw, 0x0, 0xFFF⟩ /- FUS.LOG_SEL -/,
  ⟨0x114, 4, 4, .ro, 0x0, 0x0⟩ /- FUS.LOG_DATA_n -/,
  ⟨0x124, 4, 1, .rc, 0x0, 0x0⟩ /- FUS.APPLIED -/]

/-- Block registers of R390. -/
def rowsWip : List RegRow := [
  ⟨0x100, 4, 1, .ro, 0x0, 0x0⟩ /- WIP.STATE -/,
  ⟨0x104, 4, 1, .ro, 0x0, 0x0⟩ /- WIP.COUNT -/,
  ⟨0x108, 4, 1, .ro, 0x0, 0x0⟩ /- WIP.LAST_US -/,
  ⟨0x10C, 4, 1, .rc, 0x0, 0x0⟩ /- WIP.REFUSED -/]

/-- Block registers of R391. -/
def rowsLcs : List RegRow := [
  ⟨0x100, 4, 1, .ro, 0x0, 0x0⟩ /- LCS.STATE -/,
  ⟨0x104, 4, 1, .ro, 0x0, 0x0⟩ /- LCS.ID_LO -/,
  ⟨0x108, 4, 1, .ro, 0x0, 0x0⟩ /- LCS.ID_HI -/,
  ⟨0x10C, 4, 1, .ro, 0x0, 0x0⟩ /- LCS.NONCE_LO -/,
  ⟨0x110, 4, 1, .ro, 0x0, 0x0⟩ /- LCS.NONCE_HI -/,
  ⟨0x114, 4, 1, .ro, 0x0, 0x0⟩ /- LCS.CHANGES -/,
  ⟨0x400, 4, 32, .rw, 0x0, 0xFFFFFFFF⟩ /- LCS.AUTH_n -/]

/-- Block registers of R420. -/
def rowsHub : List RegRow := [
  ⟨0x100, 4, 1, .ro, 0x0, 0x0⟩ /- HUB.STATE -/,
  ⟨0x104, 4, 1, .ro, 0x417200, 0x0⟩ /- HUB.PART -/,
  ⟨0x108, 4, 1, .ro, 0x0, 0x0⟩ /- HUB.STEPPING -/,
  ⟨0x10C, 4, 1, .rc, 0x0, 0x0⟩ /- HUB.REJECT_COUNT -/,
  ⟨0x110, 4, 1, .ro, 0x0, 0x0⟩ /- HUB.REJECT_LAST -/,
  ⟨0x114, 4, 1, .ro, 0x0, 0x0⟩ /- HUB.UPTIME_LO -/,
  ⟨0x118, 4, 1, .ro, 0x0, 0x0⟩ /- HUB.UPTIME_HI -/,
  ⟨0x200, 16, 12, .ro, 0x0, 0x0⟩ /- HUB.SADDLE_k_STATE -/,
  ⟨0x204, 16, 12, .rc, 0x0, 0x0⟩ /- HUB.SADDLE_k_CRC -/,
  ⟨0x208, 16, 12, .rc, 0x0, 0x0⟩ /- HUB.SADDLE_k_REPLAY -/]

/-- Block registers of R422. -/
def rowsPcx : List RegRow := [
  ⟨0x100, 4, 1, .ro, 0x0, 0x0⟩ /- PCX.FUNC -/,
  ⟨0x104, 4, 1, .ro, 0x0, 0x0⟩ /- PCX.LINK -/,
  ⟨0x108, 4, 1, .rw, 0x0, 0x3FF⟩ /- PCX.MW_BASE -/,
  ⟨0x10C, 4, 1, .rw, 0x0, 0x107⟩ /- PCX.MW_SLOT -/,
  ⟨0x110, 4, 1, .rc, 0x0, 0x0⟩ /- PCX.BAD_ACCESS -/,
  ⟨0x114, 4, 1, .rc, 0x0, 0x0⟩ /- PCX.FOREIGN -/,
  ⟨0x118, 4, 1, .rc, 0x0, 0x0⟩ /- PCX.MW_REFUSED -/,
  ⟨0x11C, 4, 1, .rc, 0x0, 0x0⟩ /- PCX.POISONED -/,
  ⟨0x120, 4, 1, .rc, 0x0, 0x0⟩ /- PCX.REJECTS -/,
  ⟨0x124, 4, 1, .ro, 0x0, 0x0⟩ /- PCX.TAGS -/,
  ⟨0x128, 4, 1, .rc, 0x0, 0x0⟩ /- PCX.LINK_REPLAY -/,
  ⟨0x12C, 4, 1, .rc, 0x0, 0x0⟩ /- PCX.FEC_CORR -/,
  ⟨0x140, 4, 8, .ro, 0x0, 0x0⟩ /- PCX.SRC_PEND_n -/,
  ⟨0x160, 4, 8, .ro, 0x0, 0x0⟩ /- PCX.TRC_PEND_d -/,
  ⟨0x180, 4, 96, .ro, 0x0, 0x0⟩ /- PCX.CORE_PEND_d_w -/,
  ⟨0x300, 4, 128, .rw, 0x0, 0x87FF87FF⟩ /- PCX.VMAP_n -/]

/-- Block registers of R455. -/
def rowsPwr : List RegRow := [
  ⟨0x100, 4, 1, .ro, 0x0, 0x0⟩ /- PWR.VIN -/,
  ⟨0x104, 4, 1, .ro, 0x0, 0x0⟩ /- PWR.IIN -/,
  ⟨0x108, 4, 1, .ro, 0x0, 0x0⟩ /- PWR.PIN -/,
  ⟨0x10C, 4, 1, .rc, 0x0, 0x0⟩ /- PWR.PIN_MAX -/,
  ⟨0x110, 4, 1, .rw, 0xE10, 0xFFFF⟩ /- PWR.PIN_ALARM -/,
  ⟨0x114, 4, 1, .ro, 0x0, 0x0⟩ /- PWR.RAIL_STATUS -/,
  ⟨0x118, 4, 1, .ro, 0x0, 0x0⟩ /- PWR.FAULT_INFO -/,
  ⟨0x11C, 4, 1, .rw, 0x384, 0x7FF⟩ /- PWR.CORE_MHZ -/,
  ⟨0x120, 4, 1, .rw, 0x0, 0xFF⟩ /- PWR.SLEW -/,
  ⟨0x124, 4, 1, .rc, 0x0, 0x0⟩ /- PWR.UV_EVENTS -/,
  ⟨0x128, 4, 1, .rc, 0x0, 0x0⟩ /- PWR.OV_EVENTS -/,
  ⟨0x12C, 4, 1, .ro, 0x0, 0x0⟩ /- PWR.ENERGY_LO -/,
  ⟨0x130, 4, 1, .ro, 0x0, 0x0⟩ /- PWR.ENERGY_HI -/,
  ⟨0x140, 4, 8, .ro, 0x0, 0x0⟩ /- PWR.CORE_POWER_d -/]

/-- Block registers of R457. -/
def rowsThmH : List RegRow := [
  ⟨0x100, 4, 1, .rw, 0x5F, 0xFF⟩ /- THM.THROTTLE_C -/,
  ⟨0x104, 4, 1, .rw, 0x3, 0xF⟩ /- THM.HYST_C -/,
  ⟨0x108, 4, 1, .rw, 0x5, 0x1F⟩ /- THM.STEP_PCT -/,
  ⟨0x10C, 4, 1, .rw, 0x58, 0xFF⟩ /- THM.HBM_THROTTLE_C -/,
  ⟨0x110, 4, 1, .ro, 0x0, 0x0⟩ /- THM.COOLANT -/,
  ⟨0x114, 4, 1, .ro, 0x0, 0x0⟩ /- THM.HUB_TEMP -/,
  ⟨0x118, 4, 1, .ro, 0x0, 0x0⟩ /- THM.MODULE_MAX -/,
  ⟨0x11C, 4, 1, .rc, 0x0, 0x0⟩ /- THM.LIMIT_COUNT -/,
  ⟨0x120, 4, 1, .ro, 0x0, 0x0⟩ /- THM.TRIP_LATCH -/,
  ⟨0x140, 4, 8, .ro, 0x0, 0x0⟩ /- THM.EXT_PCT_s -/]

/-- Block registers of R458. -/
def rowsThm : List RegRow := [
  ⟨0x100, 4, 1, .ro, 0x0, 0x0⟩ /- THM.DIE_MAX -/,
  ⟨0x104, 4, 1, .ro, 0x0, 0x0⟩ /- THM.DIE_HOT_TRACT -/,
  ⟨0x108, 4, 1, .rc, 0x0, 0x0⟩ /- THM.DIE_PEAK -/,
  ⟨0x140, 4, 24, .ro, 0x0, 0x0⟩ /- THM.TRACT_t -/]

/-- Block registers of R459. -/
def rowsKld : List RegRow := [
  ⟨0x100, 4, 1, .ro, 0x0, 0x0⟩ /- KLD.FW_STATE -/,
  ⟨0x104, 4, 1, .ro, 0x0, 0x0⟩ /- KLD.FW_VER_A -/,
  ⟨0x108, 4, 1, .ro, 0x0, 0x0⟩ /- KLD.FW_VER_B -/,
  ⟨0x10C, 4, 8, .ro, 0x0, 0x0⟩ /- KLD.SEQ_VER_d -/,
  ⟨0x12C, 4, 1, .ro, 0x0, 0x0⟩ /- KLD.HEARTBEAT -/,
  ⟨0x130, 4, 1, .ro, 0x0, 0x0⟩ /- KLD.NODE_CFG -/,
  ⟨0x134, 4, 1, .rc, 0x0, 0x0⟩ /- KLD.SMB_REFUSED -/,
  ⟨0x138, 4, 1, .ro, 0x0, 0x0⟩ /- KLD.STAGE_DONE -/,
  ⟨0x180, 4, 1, .ro, 0x0, 0x0⟩ /- KLD.SLOT_TEMP -/,
  ⟨0x184, 4, 1, .ro, 0x0, 0x0⟩ /- KLD.SLOT_HBM_TEMP -/,
  ⟨0x188, 4, 1, .ro, 0x0, 0x0⟩ /- KLD.SLOT_EXT_PCT -/,
  ⟨0x18C, 4, 1, .ro, 0x0, 0x0⟩ /- KLD.SLOT_POWER -/]

/-- The rows of a page's block registers. -/
def rowsOf : Page → List RegRow
  | .hub => rowsHub | .lcs => rowsLcs | .fus => rowsFus | .wipH => rowsWip | .scbH => rowsScbH | .pwr => rowsPwr
  | .thmH => rowsThmH | .kld _ => rowsKld | .pcx _ => rowsPcx | .fld i => if i < 16 then rowsPort else rowsRoute
  | .tckG _ => rowsTckG | .tmt i => if i < 8 then rowsTmt else rowsLayout | .clv _ => rowsClv | .ckp _ => rowsCkp
  | .tke _ => rowsTke | .stm _ => rowsStm | .gch _ => rowsGch | .mem _ => rowsMem | .pgt _ => rowsPgt
  | .wkc _ _ => rowsWkc | .tckR _ => rowsTckR | .smp _ => rowsSmp | .scb _ => rowsScb | .wip _ => rowsWip
  | .thm _ => rowsThm | .trc _ _ => rowsTrc | .cor _ _ => rowsCor

/-! The page header (R401). -/

def hCTRL : Nat := 0x008
def hSTATUS : Nat := 0x00C
def hCMD : Nat := 0x010
def hRESULT : Nat := 0x014
def hARG : Nat := 0x018
def hEVT : Nat := 0x040
def hENABLE : Nat := 0x044
def hFORCE : Nat := 0x048
def hCE : Nat := 0x050
def hUE : Nat := 0x054

/-- Writable bits and reset value of CTRL, by block (the chapters' CTRL tables; zero where none is given). -/
def ctrlOf : Page → Nat × Nat
  | .tckG _ => (7, 0) | .tke _ => (3, 2) | .pgt _ => (0xF, 0) | .mem _ => (1, 1) | .stm _ => (3, 2) | .gch _ => (3, 0)
  | .tmt i => if i < 8 then (1, 0) else (0, 0) | .smp _ => (3, 3) | .fld i => if i < 16 then (7, 1) else (0, 0)
  | .clv _ => (1, 0) | .ckp _ => (0xF, 8) | .scb _ => (1, 1) | .scbH => (1, 1) | .thmH => (3, 1) | _ => (0, 0)

/-- Defined bits of EVT_STATUS, by block (R156, R187, R188, R220, R224, R246, R250, R280, R284, R323, R328, R360, R387
to R392, R421, R423, R456, R457, R461). -/
def evtOf : Page → Nat
  | .tckG _ => 0x3F | .tke _ => 0x1F | .wkc _ _ => 1 | .pgt _ => 7 | .mem _ => 7 | .stm _ => 7 | .gch _ => 0xF
  | .tmt i => if i < 8 then 0x3F else 0 | .smp _ => 1 | .fld i => if i < 16 then 0xF else 0 | .clv _ => 7
  | .ckp _ => 0x3F | .hub => 7 | .pcx _ => 0xF | .scbH => 3 | .scb _ => 3 | .fus => 7 | .wipH => 3 | .wip _ => 3
  | .lcs => 3 | .trc _ _ => 3 | .cor _ _ => 0 | .pwr => 7 | .thmH => 7 | .thm _ => 1
  | .kld i => if i < 8 then 3 else 0xF | .tckR _ => 0

/-- The header's rows that the machine stores; the words of PAGE_ID, PAGE_CAP and STATUS are computed on a read. -/
def headerRows (p : Page) : List RegRow :=
  [⟨hCTRL, 4, 1, .rw, (ctrlOf p).2, (ctrlOf p).1⟩, ⟨hCMD, 4, 1, .wo, 0, 0xFFFFFFFF⟩, ⟨hARG, 4, 8, .rw, 0, 0xFFFFFFFF⟩,
   ⟨hEVT, 4, 1, .w1c, 0, evtOf p⟩, ⟨hENABLE, 4, 1, .rw, 0, evtOf p⟩, ⟨hFORCE, 4, 1, .wo, 0, evtOf p⟩,
   ⟨hCE, 4, 1, .rc, 0, 0⟩, ⟨hUE, 4, 1, .rc, 0, 0⟩]

/-- Whether an offset within a page is one of a row's registers. -/
def RegRow.has (r : RegRow) (o : Nat) : Bool :=
  decide (r.off ≤ o) && decide (o < r.off + r.stride * r.count) && decide ((o - r.off) % r.stride = 0)

/-- The row of an offset within a page; none for a reserved offset (R6). -/
def rowAt (p : Page) (o : Nat) : Option RegRow := (headerRows p ++ rowsOf p).find? (·.has o)

/-- Reset values that a table calls "per ..." (R14, R376, R383, R391, R420, R459; log entries 3 and 7): an unrepaired
part, all lane groups of a saddle carrying, life cycle OPERATIONAL, firmware area A active. -/
def resetOf (p : Page) (o : Nat) (r : RegRow) : W32 :=
  match p with
  | .trc _ t =>
    if 0x100 ≤ o ∧ o < 0x13C then w32 (0x100 + (o - 0x100) / 4)
    else if o = trc_RESERVE then 0x10F#32
    else if o = trc_LOGICAL_BASE then w32 (15 * t)
    else w32 r.reset
  | .hub =>
    if o = hub_STEPPING then (Config.stepping).setWidth 32
    else if o ≥ 0x200 ∧ o % 16 = 0 then 16#32
    else w32 r.reset
  | .lcs =>
    if o = lcs_STATE then 0x1002#32
    else if o = lcs_ID_LO then w32 (Config.moduleId).toNat
    else if o = lcs_ID_HI then w32 ((Config.moduleId).toNat / 2 ^ 32)
    else w32 r.reset
  | .kld i =>
    if i < 8 then w32 r.reset
    else if o = kld_FW_STATE then 2#32
    else if o = kld_FW_VER_A then Config.flashVersion 0
    else if o = kld_FW_VER_B then Config.flashVersion 1
    else if 0x10C ≤ o ∧ o < 0x12C then Config.flashVersion (2 + (o - 0x10C) / 4)
    else w32 r.reset
  | _ => w32 r.reset

/-- What a register word holds until something is written to it: the reset column of its row (R7). -/
def regDefault (off : Nat) : W32 :=
  match pageOf off with
  | none => 0
  | some p => match rowAt p (off % 0x1000) with
    | none => 0
    | some r => resetOf p (off % 0x1000) r

end Sys2Proof.Machine
end

