-- ==== Sys2Proof/Machine/Num.lean ====
section
/-! DEFINITION. Machine/Num.lean: exact numbers, the number formats of R21 to R35 and the FP32 arithmetic of R28 and R87.
An exact number is an integer counted in units of 2^-k; k stands beside it. FP32 values have k = 149, products of two
decoded elements or of two FP32 values have k = 298. -/
namespace Sys2Proof.Machine

/-! Rounding. -/

/-- The integer below n / 2^sh, and what is left over. -/
def floorCut (n sh : Nat) : Nat × Nat := (n >>> sh, n % 2 ^ sh)

/-- n / 2^sh to the nearest integer, ties to even. -/
def rneShift (n sh : Nat) : Nat :=
  let (q, r) := floorCut n sh
  if 2 ^ sh < 2 * r ∨ (2 * r = 2 ^ sh ∧ 0 < sh ∧ q % 2 = 1) then q + 1 else q

/-- Where a magnitude n * 2^-k falls among the codes of a floating-point format with `m` mantissa bits: the code at or
below it, the remainder, and the shift that remainder is counted in (R25; the code is not bounded above). -/
def floatCut (m bias n k : Nat) : Nat × Nat × Nat :=
  if n = 0 then (0, 0, 0) else
  let p := Nat.log2 n
  -- quantum 2^-u, u counted so that the quantum never falls below the smallest subnormal
  let u : Int := min ((m : Int) + k - p) ((bias : Int) - 1 + m)
  let sh : Int := (k : Int) - u
  let n' := if sh < 0 then n <<< (-sh).toNat else n
  let sh' := if sh < 0 then 0 else sh.toNat
  let (q, r) := floorCut n' sh'
  let field : Int := (bias : Int) - 1 + m - u
  ((field.toNat <<< m) + q, r, sh')

/-- The code nearest a magnitude, ties to the even code (R32); not bounded above. -/
def floatNear (m bias n k : Nat) : Nat :=
  let (c, r, sh) := floatCut m bias n k
  if 2 ^ sh < 2 * r ∨ (2 * r = 2 ^ sh ∧ 0 < sh ∧ c % 2 = 1) then c + 1 else c

/-! FP32. -/

def f32Sign (x : W32) : Bool := x.toNat.testBit 31
def f32Exp (x : W32) : Nat := fld x.toNat 23 8
def f32Man (x : W32) : Nat := fld x.toNat 0 23
def f32IsNaN (x : W32) : Bool := f32Exp x == 255 && f32Man x != 0
def f32IsInf (x : W32) : Bool := f32Exp x == 255 && f32Man x == 0
def f32IsFinite (x : W32) : Bool := f32Exp x != 255
def f32IsZero (x : W32) : Bool := x.toNat % 2 ^ 31 == 0
/-- The canonical NaN of R38 and R87. -/
def f32NaN : W32 := 0x7FC00000#32
def f32Inf (neg : Bool) : W32 := if neg then 0xFF800000#32 else 0x7F800000#32
def f32Zero (neg : Bool) : W32 := if neg then 0x80000000#32 else 0#32
def f32Abs (x : W32) : W32 := w32 (x.toNat % 2 ^ 31)
def f32Neg (x : W32) : W32 := x ^^^ 0x80000000#32

/-- A finite FP32 value in units of 2^-149. -/
def f32Fx (x : W32) : Int :=
  let e := f32Exp x
  let n : Nat := if e = 0 then f32Man x else (2 ^ 23 + f32Man x) <<< (e - 1)
  if f32Sign x then -(n : Int) else n

/-- An exact magnitude as FP32, nearest even, infinity beyond the range. -/
def f32RoundNat (n k : Nat) : Nat := min (floatNear 23 127 n k) 0x7F800000

/-- An exact value as FP32, nearest even (R28); an exact zero is +0. -/
def f32Round (x : Int) (k : Nat) : W32 :=
  w32 (f32RoundNat x.natAbs k + (if x < 0 then 2 ^ 31 else 0))

/-- A quiet NaN whose sign and payload the spec leaves open (log entry 5). `low` low bits are zero, so that it is also
a NaN of the narrower type. -/
def openNaN (op low : Nat) (a b c : W32) : W32 :=
  0x7FC00000#32 ||| (Config.nanBits op a b c &&& w32 (0x803FFFFF - (2 ^ low - 1)))

/-- FP32 addition (R28, R65, R68, R87). -/
def f32Add (a b : W32) : W32 :=
  if f32IsNaN a || f32IsNaN b then openNaN 0 0 a b 0
  else if f32IsInf a then (if f32IsInf b && f32Sign a != f32Sign b then openNaN 0 0 a b 0 else a)
  else if f32IsInf b then b
  else
    let x := f32Fx a + f32Fx b
    if x = 0 then f32Zero (f32Sign a && f32Sign b) else f32Round x 149

/-- FP32 multiplication. -/
def f32Mul (a b : W32) : W32 :=
  let neg := f32Sign a != f32Sign b
  if f32IsNaN a || f32IsNaN b then openNaN 1 0 a b 0
  else if f32IsInf a || f32IsInf b then
    (if f32IsZero a || f32IsZero b then openNaN 1 0 a b 0 else f32Inf neg)
  else
    let x := f32Fx a * f32Fx b
    w32 (f32RoundNat x.natAbs 298 + (if neg then 2 ^ 31 else 0))

/-- FP32 fused multiply-add with one rounding. -/
def f32Fma (a b c : W32) : W32 :=
  let neg := f32Sign a != f32Sign b
  let pInf := f32IsInf a || f32IsInf b
  if f32IsNaN a || f32IsNaN b || f32IsNaN c then openNaN 2 0 a b c
  else if pInf && (f32IsZero a || f32IsZero b) then openNaN 2 0 a b c
  else if pInf then (if f32IsInf c && f32Sign c != neg then openNaN 2 0 a b c else f32Inf neg)
  else if f32IsInf c then c
  else
    let x := f32Fx a * f32Fx b + f32Fx c * 2 ^ 149
    if x = 0 then f32Zero (neg && f32Sign c) else f32Round x 298

/-- Order of two FP32 values that are no NaN, -0 below +0 (IEEE 754-2019 maximum and minimum). -/
def f32Lt (a b : W32) : Bool :=
  let key (x : W32) : Int := if f32Sign x then -(f32Abs x).toNat - 1 else (f32Abs x).toNat
  decide (key a < key b)

/-- Numeric order of two FP32 values that are no NaN; the two zeros are equal (R38). -/
def f32NumLt (a b : W32) : Bool := f32Lt a b && !(f32IsZero a && f32IsZero b)

/-- IEEE 754-2019 maximum, a NaN giving 0x7FC0_0000 (R87). -/
def f32Max (a b : W32) : W32 :=
  if f32IsNaN a || f32IsNaN b then f32NaN else if f32Lt a b then b else a

/-- IEEE 754-2019 minimum, a NaN giving 0x7FC0_0000 (R87). -/
def f32Min (a b : W32) : W32 :=
  if f32IsNaN a || f32IsNaN b then f32NaN else if f32Lt b a then b else a

/-! BF16 and FP16, as the FP32 values that hold them. -/

/-- FP32 to a 16-bit format, nearest even, as IEEE 754: mantissa bits m, bias, and the NaN's open bits. -/
def toHalf (m bias : Nat) (x : W32) : Nat :=
  let sgn := if f32Sign x then 0x8000 else 0
  let inf := (2 * bias + 1) <<< m
  if f32IsNaN x then
    sgn + inf + 2 ^ (m - 1) + (Config.nanBits 3 x (w32 m) 0).toNat % 2 ^ (m - 1)
  else if f32IsInf x then sgn + inf
  else sgn + min (floatNear m bias (f32Fx x).natAbs 149) inf

/-- A 16-bit format to FP32, exact. -/
def ofHalf (m bias : Nat) (h : Nat) : W32 :=
  let neg := h.testBit 15
  let sgn := if neg then 2 ^ 31 else 0
  let e := fld h m (15 - m)
  let f := fld h 0 m
  if e = 2 * bias + 1 then
    (if f = 0 then f32Inf neg else w32 (sgn + 0x7F800000 + (f <<< (23 - m))))
  else
    let n := if e = 0 then f else (2 ^ m + f) <<< (e - 1)
    w32 (sgn + f32RoundNat n (bias - 1 + m))

def toBf16 (x : W32) : Nat := toHalf 7 127 x
def toFp16 (x : W32) : Nat := toHalf 10 15 x
def ofBf16 (h : Nat) : W32 := ofHalf 7 127 h
def ofFp16 (h : Nat) : W32 := ofHalf 10 15 h

/-- The FP32 result of a vector operation in TYPE 0 FP32, 1 BF16, 2 FP16: rounded once to the type and held as FP32
(R87). A NaN that the type already holds stays as it is. -/
def roundType (ty : Nat) (x : W32) : W32 :=
  if f32IsNaN x && fld x.toNat 0 (if ty = 1 then 16 else 13) == 0 then x
  else if ty = 1 then ofBf16 (toBf16 x) else if ty = 2 then ofFp16 (toFp16 x) else x

/-! The functions of R87 that are bound to 2 units in the last place. A reference value is computed in fixed point with
96 fractional bits or more; the result is the reference rounded and moved by the open distance of Config.ulpError where
that stays within the bound, and the rounded reference otherwise. -/

/-- Fractional bits of the fixed point of the reference. -/
def refBits : Nat := 128

/-- ln 2 in units of 2^-160. -/
def ln2Fx : Nat :=
  -- ln 2 = sum over i >= 1 of 1 / (i * 2^i)
  iter 170 (fun i acc => acc + 2 ^ 192 / ((i + 1) * 2 ^ (i + 1))) 0 / 2 ^ 32

/-- e^r for 0 <= r < 1, both in units of 2^-refBits: the power series. -/
def expSeries (r : Nat) : Nat :=
  let step := fun (i : Nat) (st : Nat × Nat) =>
    let term := st.1 * r / (2 ^ refBits * (i + 1))
    (term, st.2 + term)
  (iter 40 step (2 ^ refBits, 2 ^ refBits)).2

/-- e^x as (n, k), meaning n * 2^-k, for x in units of 2^-149 with |x| below 2^8. k may be negative. -/
def expRef (x : Int) : Nat × Int :=
  -- x = q ln 2 + r, in units of 2^-160
  let x160 : Int := x * 2 ^ 11
  let q : Int := x160 / (ln2Fx : Int)
  let r : Int := x160 - q * (ln2Fx : Int)
  (expSeries (r.toNat / 2 ^ (160 - refBits)), (refBits : Int) - q)

/-- Integer square root by bits. -/
def isqrt (n : Nat) : Nat :=
  let b := Nat.log2 n / 2 + 1
  iter b (fun i acc => let t := acc + 2 ^ (b - 1 - i); if t * t ≤ n then t else acc) 0

/-- An exact reference n * 2^-k, k possibly negative, as FP32 code with the open distance of the operation, kept within
2 units in the last place of the reference (R87). -/
def within2 (op : Nat) (x : W32) (n : Nat) (k : Int) : Nat :=
  let (n, k) := if k < 0 then (n <<< (-k).toNat, 0) else (n, k.toNat)
  let ref := f32RoundNat n k
  let cand : Int := (ref : Int) + Config.ulpError op x
  if cand < 0 ∨ 0x7F800000 < cand ∨ ref = 0x7F800000 then ref
  else
    -- |cand - exact| <= 2 units of the reference's binade: the exact value lies in [c, c + 1)
    let (c, r, _) := floatCut 23 127 n k
    let ok := (if r = 0 then c - 2 else c - 1) ≤ cand.toNat ∧ cand.toNat ≤ c + 2
    if ok then cand.toNat else ref

/-- e^x in FP32, within 2 units in the last place. -/
def f32Exp2ulp (x : W32) : W32 :=
  if f32IsNaN x then openNaN 4 0 x 0 0
  else if f32IsInf x then (if f32Sign x then 0 else x)
  else
    let v := f32Fx x
    if 100 * 2 ^ 149 < v then f32Inf false
    else if v < -(120 * 2 ^ 149) then w32 (within2 0 x 1 400)
    else let (n, k) := expRef v; w32 (within2 0 x n k)

/-- 1 / sqrt x in FP32, within 2 units in the last place; the corners follow IEEE 754 rSqrt. -/
def f32Rsq2ulp (x : W32) : W32 :=
  if f32IsNaN x then openNaN 5 0 x 0 0
  else if f32IsZero x then f32Inf (f32Sign x)
  else if f32Sign x then openNaN 5 0 x 0 0
  else if f32IsInf x then 0
  else
    -- x = n * 2^-149 = 2n * 2^-150; 1/sqrt x = 2^75 / sqrt (2n), computed with 100 more bits
    let n := (f32Fx x).natAbs
    w32 (within2 1 x (isqrt (2 ^ 600 / (2 * n))) 225)

/-- tanh x in FP32, within 2 units in the last place. -/
def f32Tanh2ulp (x : W32) : W32 :=
  if f32IsNaN x then openNaN 6 0 x 0 0
  else
    let sgn := if f32Sign x then 2 ^ 31 else 0
    if f32IsZero x then x
    else if f32IsInf x then w32 (sgn + 0x3F800000)
    else
      let v := (f32Fx x).natAbs
      if 20 * 2 ^ 149 < v then w32 (sgn + within2 2 x (2 ^ 200 - 1) 200)
      else if v < 2 ^ (149 - 20) then
        -- tanh x = x - x^3/3 + ..., the next term is below 2^-60 of x
        let n := v * 2 ^ 320 - v * v * v * 2 ^ 22 / 3
        w32 (sgn + within2 2 x n 469)
      else
        let (n, k) := expRef (2 * v)
        let one : Nat := if k < 0 then 1 else 2 ^ k.toNat
        let e : Nat := if k < 0 then n <<< (-k).toNat else n
        w32 (sgn + within2 2 x ((e - one) * 2 ^ 200 / (e + one)) 200)

/-! Element formats (R21 to R27). -/

/-- Bits of one element, 0 for a code that is no element format. -/
def fmtBits (f : Nat) : Nat :=
  match f with
  | 0 => 8 | 1 => 8 | 2 => 8 | 3 => 8 | 4 => 6 | 5 => 6 | 6 => 4 | 7 => 4 | 8 => 3 | 9 => 2
  | 10 => 16 | 11 => 16 | 12 => 32 | _ => 0

/-- Whether a format has block scales (R23). -/
def fmtBlocked (f : Nat) : Bool := (1 ≤ f && f ≤ 6) || f == 8 || f == 9

/-- Whether a format may be an operand of LATCH and STREAM (R21). -/
def fmtArray (f : Nat) : Bool := f ≤ 10

/-- Whether a format may be the destination of VCVT (R21). -/
def fmtVcvt (f : Nat) : Bool := f ≤ 11

/-- Width class of an array format: 0 8-bit, 1 4-bit, 2 2/3-bit, 3 BF16 (R22). -/
def fmtClass (f : Nat) : Nat := if f = 10 then 3 else if f = 8 ∨ f = 9 then 2 else if f = 6 ∨ f = 7 then 1 else 0

/-- K-elements per column in one pass, by class (R22, R48). -/
def chunkLen (cls : Nat) : Nat := if cls = 1 then 32 else if cls = 2 then 64 else 16

/-- A decoded element: refused, or an exact value in units of 2^-149 (R24 to R30). -/
structure Elt where
  refused : Bool
  v : Int
  deriving DecidableEq, Repr

def Elt.zero : Elt := ⟨false, 0⟩

/-- Value of a floating-point element in units of 2^-(bias - 1 + m), the sign apart. -/
def eltFloat (e m code : Nat) : Int :=
  let ex := fld code m e
  let n : Nat := if ex = 0 then fld code 0 m else (2 ^ m + fld code 0 m) <<< (ex - 1)
  if code.testBit (e + m) then -(n : Int) else n

/-- Unscaled value of an element code as (integer, k): integer * 2^-k. none: refused (R25 to R27, R30). -/
def eltCode (f code : Nat) : Option (Int × Nat) :=
  match f with
  | 0 => some (sext code 8, 0)
  | 1 => some (sext code 8, 6)
  | 2 => if code % 128 = 127 then none else some (eltFloat 4 3 code, 9)
  | 3 => if 124 ≤ code % 128 then none else some (eltFloat 5 2 code, 16)
  | 4 => some (eltFloat 3 2 code, 4)
  | 5 => some (eltFloat 2 3 code, 3)
  | 6 => some (eltFloat 2 1 code, 1)
  | 7 => some (sext code 4, 0)
  | 8 => match code with
    | 0 => some (0, 0) | 1 => some (1, 0) | 2 => some (2, 0) | 3 => some (4, 0)
    | 5 => some (-1, 0) | 6 => some (-2, 0) | 7 => some (-4, 0) | _ => none
  | 9 => match code with | 0 => some (0, 0) | 1 => some (1, 0) | 2 => some (-1, 0) | _ => none
  | _ => none

/-- A stored element with its block scale byte (R24): refused elements of R30, else the exact value. The scale byte
does not count for an unblocked format. -/
def decodeElt (f code scale : Nat) : Elt :=
  if fmtBlocked f ∧ scale = 0xFF then ⟨true, 0⟩
  else match eltCode f code with
    | none => ⟨true, 0⟩
    | some (i, k) =>
      -- i * 2^-k * 2^(scale - 127) in units of 2^-149: i * 2^(22 + scale - k)
      if fmtBlocked f then ⟨false, i * 2 ^ (22 + scale - k)⟩ else ⟨false, i * 2 ^ (149 - k)⟩

/-- Whether a BF16 pattern is refused: subnormal, infinity or NaN (R29, R30). -/
def bf16Refused (h : Nat) : Bool := fld h 7 8 == 255 || (fld h 7 8 == 0 && fld h 0 7 != 0)

/-- The split conversion of R29 over one group of BF16 patterns: the elements as rounded to 15-bit fixed point, and how
many nonzero elements rounded to 0. -/
def splitGroup (g : List Nat) : List Elt × Nat :=
  let live := fun h => !bf16Refused h && h % 2 ^ 15 != 0
  let emax := maxOf ((g.filter live).map (fun h => fld h 7 8))
  -- x * 2^(140 - emax) to nearest even; x = (128 + m) * 2^(e - 134)
  let conv := fun h =>
    if bf16Refused h then (⟨true, 0⟩ : Elt)
    else if h % 2 ^ 15 = 0 then Elt.zero
    else
      let e := fld h 7 8
      let n := (128 + fld h 0 7) <<< 6        -- (128 + m) * 2^(e-134) * 2^(140-e)
      let v := rneShift n (emax - e)
      let x : Int := (v : Int) * 2 ^ (9 + emax)  -- v * 2^(emax - 140) in units of 2^-149
      ⟨false, if h.testBit 15 then -x else x⟩
  let out := g.map conv
  (out, ((g.zip out).filter (fun p => live p.1 && p.2.v == 0)).length)

/-! Conversion with VCVT (R31 to R35). -/

/-- Largest magnitude of a destination format in units of 2^-6, for blocked formats (R31). -/
def fmtMax64 (f : Nat) : Nat :=
  match f with
  | 1 => 127 | 2 => 448 * 64 | 3 => 57344 * 64 | 4 => 28 * 64 | 5 => 480 | 6 => 6 * 64 | 8 => 4 * 64 | 9 => 64 | _ => 0

/-- The scale byte of BLOCK mode for the largest magnitude (units of 2^-149) of a block (R31). -/
def blockScale (f amax : Nat) : Nat :=
  if amax = 0 then 0 else
  match (List.range 255).find? (fun e => decide (amax * 64 ≤ fmtMax64 f * 2 ^ (e + 22))) with
  | some e => e
  | none => 254

/-- Result of one lane: its code and what it counts (R33, R37). -/
structure LaneOut where
  code : Nat
  sat  : Nat
  deriving DecidableEq, Repr

/-- A magnitude step: the lower code, the remainder and its shift, then the rounding asked for: none nearest even,
some r stochastic with the 16-bit value r (R32, R34). -/
def stepUp (c r sh : Nat) (sr : Option Nat) : Nat :=
  match sr with
  | none => if 2 ^ sh < 2 * r ∨ (2 * r = 2 ^ sh ∧ 0 < sh ∧ c % 2 = 1) then c + 1 else c
  | some rnd => if rnd < r * 65536 / 2 ^ sh then c + 1 else c

/-- Index of a J magnitude in the list 0, 1, 2, 4 (top index `top`) for n * 2^-k, with remainder and shift (R27). -/
def jCut (top n k : Nat) : Nat × Nat × Nat :=
  let one := 2 ^ k
  if top = 3 ∧ 4 * one ≤ n then (3, 0, 0)
  else if top = 3 ∧ 2 * one ≤ n then (2, n - 2 * one, k + 1)
  else if top = 3 ∧ one ≤ n then (1, n - one, k)
  else if one ≤ n then (1, 0, 0)
  else (0, n, k)

/-- Converts a finite quantity q = (neg, n * 2^-k) to an element code of a format (R32 to R34). -/
def quantize (f : Nat) (neg : Bool) (n k : Nat) (sr : Option Nat) : LaneOut :=
  let flt := fun (e m bias maxc maxn maxk : Nat) =>
    -- maxn * 2^-maxk is the largest finite magnitude
    if maxn * 2 ^ k < n * 2 ^ maxk then ⟨maxc + (if neg then 2 ^ (e + m) else 0), 1⟩
    else
      let (c, r, sh) := floatCut m bias n k
      let c' := stepUp c r sh sr
      (⟨if c' = 0 then 0 else c' + (if neg then 2 ^ (e + m) else 0), 0⟩ : LaneOut)
  let int := fun (w hi lo shift : Nat) =>
    -- two's complement of w bits, value = code / 2^shift, ends hi and -lo
    let lim := if neg then lo else hi
    let n' := n * 2 ^ shift
    if lim * 2 ^ k < n' then ⟨(if neg then 2 ^ w - lo else hi) % 2 ^ w, 1⟩
    else
      let (c, r) := floorCut n' k
      let c' := stepUp c r k sr
      (⟨(if neg then 2 ^ w - c' else c') % 2 ^ w, 0⟩ : LaneOut)
  let jay := fun (top sentinel negBase : Nat) (thNum : Nat) =>
    -- sentinel from thNum / 2, clamp above the largest magnitude
    let one := 2 ^ k
    let big := if top = 3 then 4 * one else one
    if thNum * one ≤ 2 * n then ⟨sentinel, 1⟩
    else if big < n then ⟨if neg then negBase + top else top, 1⟩
    else
      let (c, r, sh) := jCut top n k
      let c' := stepUp c r sh sr
      (⟨if c' = 0 then 0 else if neg then negBase + c' else c', 0⟩ : LaneOut)
  match f with
  | 0 => int 8 127 128 0
  | 1 => int 8 127 127 6
  | 2 => flt 4 3 7 0x7E 448 0
  | 3 => flt 5 2 15 0x7B 57344 0
  | 4 => flt 3 2 3 0x1F 28 0
  | 5 => flt 2 3 1 0x1F 60 3
  | 6 => flt 2 1 1 0x7 6 0
  | 7 => int 4 7 8 0
  | 8 => jay 3 4 4 12
  | 9 => jay 1 3 1 3
  | 10 =>
    -- stochastic BF16 and FP16 end at the largest finite magnitude (R34); nearest follows IEEE 754
    let (c, r, sh) := floatCut 7 127 n k
    let s := if neg then 0x8000 else 0
    match sr with
    | none => ⟨s + min (stepUp c r sh none) 0x7F80, 0⟩
    | some _ => if 0x7F7F ≤ c then ⟨s + 0x7F7F, b2n (decide (0x7F7F < c ∨ r ≠ 0))⟩ else ⟨s + stepUp c r sh sr, 0⟩
  | _ =>
    let (c, r, sh) := floatCut 10 15 n k
    let s := if neg then 0x8000 else 0
    match sr with
    | none => ⟨s + min (stepUp c r sh none) 0x7C00, 0⟩
    | some _ => if 0x7BFF ≤ c then ⟨s + 0x7BFF, b2n (decide (0x7BFF < c ∨ r ≠ 0))⟩ else ⟨s + stepUp c r sh sr, 0⟩

/-- The code of a NaN or infinite lane outside BLOCK mode of a blocked format (R33), which counts one saturation; BF16
and FP16 keep the value and count nothing. -/
def specialLane (f : Nat) (x : W32) : LaneOut :=
  let neg := f32Sign x
  match f with
  | 10 => ⟨toBf16 x, 0⟩
  | 11 => ⟨toFp16 x, 0⟩
  | 8 => ⟨4, 1⟩
  | 9 => ⟨3, 1⟩
  | 2 => ⟨0x7F + 128 * (Config.nanCode 2 x % 2), 1⟩
  | 3 => ⟨0x7D + Config.nanCode 3 x % 3 + 128 * (Config.nanCode 3 x / 3 % 2), 1⟩
  | _ => if f32IsNaN x then ⟨0, 1⟩ else ⟨(quantize f neg (2 ^ 20) 0 none).code, 1⟩

/-- The rounding bits of a lane (R35). -/
def srBits (seed rkey sample index lane : Nat) : Nat :=
  let m := 2 ^ 64
  let z := seed ^^^ (sample * 0x9E3779B97F4A7C15 % m)
  let z := (z + ((rkey <<< 32) ||| ((index % 2 ^ 26) <<< 6) ||| lane)) % m
  let z := (z ^^^ (z >>> 30)) * 0xBF58476D1CE4E5B9 % m
  let z := (z ^^^ (z >>> 27)) * 0x94D049BB133111EB % m
  let z := z ^^^ (z >>> 31)
  fld z 48 16

/-- One VCVT: what it writes for each of its two half vectors (none: no enabled lane), the scale byte where the format
has one, and the counts SAT, NZ, UF (R31 to R37, R89). -/
structure VcvtOut where
  halves : List (Option (List Nat × Nat))
  sat : Nat
  nz : Nat
  uf : Nat
  deriving DecidableEq, Repr

/-- Converts one half vector of 32 lanes. `fixed` is the scale byte of FIXED mode; `rnd` gives the stochastic bits. -/
def cvtHalf (f : Nat) (fixed : Option Nat) (rnd : Option (Nat → Nat)) (base : Nat) (lanes : List (W32 × Bool)) :
    Option (List Nat × Nat) × Nat × Nat × Nat :=
  if !lanes.any (·.2) then (none, 0, 0, 0) else
  let blocked := fmtBlocked f
  let en := (lanes.filter (·.2)).map (·.1)
  let special := en.any (fun x => !f32IsFinite x)
  let amax := maxOf ((en.filter f32IsFinite).map (fun x => (f32Fx x).natAbs))
  let sel := match fixed with | some b => b | none => blockScale f amax
  let k := if blocked then 22 + sel else 149
  let one := fun (i : Nat) (p : W32 × Bool) =>
    let x := p.1
    if !p.2 then (⟨0, 0⟩ : LaneOut)
    else if blocked ∧ fixed = some 0xFF then ⟨0, b2n (!f32IsFinite x)⟩
    else if !f32IsFinite x then (if blocked ∧ fixed = none then ⟨0, 1⟩ else specialLane f x)
    else if (f == 10 || f == 11) && f32IsZero x then ⟨if f32Sign x then 0x8000 else 0, 0⟩
    else quantize f (f32Sign x) (f32Fx x).natAbs k (rnd.map (fun g => g (base + i)))
  let outs := (lanes.zipIdx).map (fun q => (q.1, one q.2 q.1))
  let scale := if blocked then (if fixed = none ∧ special then 0xFF else sel) else 0
  let nzl := outs.filter (fun q => q.1.2 && f32IsFinite q.1.1 && !f32IsZero q.1.1)
  (some (outs.map (·.2.code), scale), sumOf (outs.map (·.2.sat)), nzl.length,
    (nzl.filter (fun q => q.2.code == 0)).length)

/-- Converts 64 lanes (R31 to R34). -/
def vcvt (f : Nat) (fixed : Option Nat) (rnd : Option (Nat → Nat)) (lanes : List (W32 × Bool)) : VcvtOut :=
  let a := cvtHalf f fixed rnd 0 (lanes.take 32)
  let b := cvtHalf f fixed rnd 32 ((lanes.drop 32).take 32)
  ⟨[a.1, b.1], a.2.1 + b.2.1, a.2.2.1 + b.2.2.1, a.2.2.2 + b.2.2.2⟩

end Sys2Proof.Machine
end

