-- ==== Sys2Proof/Machine/Parts.lean ====
section
/-! DEFINITION. Machine/Parts.lean: the records that State is made of: tokens, a core's state, task contexts. Every
record is plain data and every table lists only what differs from its default. -/
namespace Sys2Proof.Machine

/-! Tokens (R96, R134, R176, R177). -/

/-- An endpoint: logical core or die-level endpoint, die (8: hub), module. -/
structure End where
  core : Nat
  die  : Nat
  mod  : Nat
  deriving DecidableEq, Repr

/-- A token: the header fields of R96 and the payload bytes. `dcount` is DCOUNT of a CONTROL token, and INFO (with
`offset` zero) of TASK and DEP tokens (R177). -/
structure Token where
  vc : Nat
  kind : Nat
  epoch : Nat
  slot : Nat
  length : Nat
  arm : Bool
  tag : Nat
  dest : End
  src : End
  offset : Nat
  dcount : Nat
  sample : Nat
  value : Nat
  payload : List Byte
  deriving DecidableEq, Repr

/-- Who waits for the acceptance of a token, or of a collective segment (R93, R105, R171, R314): nobody, a task's attempt on
a core, the engine of a die, or a run of a slot's operation. -/
inductive Owner where
  | nobody
  | task (core ctx : Nat)
  | engine (die : Nat)
  | run (slot op : Nat)
  deriving DecidableEq, Repr

/-- A token in flight or queued, with the partition slot that sent it and the one that waits for it. `hops` marks a
token that has crossed to the Flidric port (R306). -/
structure Flight where
  tok : Token
  owner : Owner
  pslot : Nat
  deriving DecidableEq, Repr

/-! The array (R48 to R73). -/

/-- An array instruction with the operand values read when it entered the queue (R90). -/
inductive ArrOp where
  | latch (ea sa fmt c kv stride sstride : Nat)
  | stream (ea sa fmt n g : Nat) (reuse keep : Bool) (kv stride sstride : Nat)
  | opn (g nt c : Nat) (seq : Bool) (gsz lv spill t : Nat) (ck : Bool)
  | drain (g base stride : Nat) (row : Bool) (ofmt : Nat) (add : Bool) (amax : Option Nat) (hold : Bool)
  | chk (g : Nat)
  deriving DecidableEq, Repr

/-- An entry of the array queue (R53): the instruction, its PC and opcode (R62), the context it belongs to, the format
that TASK stands for, the vectors that its fill has placed in the feeder (R51), the sub-passes begun (R42) and its place among
all that have entered the queue. -/
structure QEntry where
  op : ArrOp
  pc : Nat
  opcode : Nat
  ctx : Nat
  now : Nat
  fill : Option (List (List Elt))
  sub : Nat
  serial : Nat
  deriving DecidableEq, Repr

/-- A latched input tile (R49, R50): C columns of Kv decoded elements. -/
structure Bank where
  fmt : Nat
  c : Nat
  kv : Nat
  cols : List (List Elt)
  deriving DecidableEq, Repr

/-- The retained set of the feeder (R51): the format code of the LOAD that filled it, N, Kv and the vectors. -/
structure Retained where
  ctx : Nat
  fmt : Nat
  n : Nat
  vecs : List (List Elt)
  deriving DecidableEq, Repr

/-- A tile with its check entries (R58): rows of FP32 entries, check row, check column and corner. -/
structure Tile where
  body : List (List W32)
  chkRow : List W32
  chkCol : List W32
  corner : W32
  deriving DecidableEq, Repr

/-- An open accumulation group (R63): settings, chunks taken, landing rows, whether the merge of its last chunk is due
(R66), whether it is exact (R61), its refused elements (R30) and the context that opened it. -/
structure Group where
  nt : Nat
  c : Nat
  seq : Bool
  gsz : Nat
  lv : Nat
  spill : Nat
  t : Nat
  ck : Bool
  chunks : Nat
  landing : Option Tile
  mergeDue : Bool
  exact : Bool
  refused : Nat
  ctx : Nat
  deriving DecidableEq, Repr

/-! Switchback, shadow table, deferrals, terrace. -/

/-- A switchback rule as loaded by STEER (R99). -/
structure Rule where
  enable : Bool
  join : Bool
  slotsM1 : Nat
  sem : Nat
  semen : Bool
  hold : Nat
  size : Nat
  arm0 : Nat
  arm1 : Nat
  deriving DecidableEq, Repr

/-- A rule that no STEER has loaded. -/
def Rule.none : Rule :=
  { enable := false, join := false, slotsM1 := 0, sem := 0, semen := false, hold := 0, size := 0, arm0 := 0, arm1 := 0 }

/-- What a rule holds for one sample slot (R100 to R102, R174): DATA tokens in arrival order, the CONTROL token, the fire
record, a record that the speculative attempt of a context took while its area stays held, the mark of an unmatched slot, and
the sample of the record. -/
structure Hold where
  data : List Token
  ctrl : Option Token
  record : Option W32
  taken : Option (Nat × W32)
  unmatched : Bool
  sample : Nat
  deriving DecidableEq, Repr

def Hold.none : Hold :=
  { data := [], ctrl := Option.none, record := Option.none, taken := Option.none, unmatched := false, sample := 0 }

/-- An entry of the shadow table (R173). `sel` and `written` hold one bit per slab, `holder` the context that holds the
region. -/
structure Shadow where
  base : Nat
  slabsM1 : Nat
  kind : Nat
  sel : Nat
  written : Nat
  holder : Option Nat
  deriving DecidableEq, Repr

def Shadow.none : Shadow :=
  { base := 0, slabsM1 := 0, kind := 0, sel := 0, written := 0, holder := Option.none }

/-- A deferred effect (R106, R175, R333); a SIGNAL keeps the serial of the core's array queue at its issue. A SEND's payload, a
STEER's descriptor and the tile of a held add lie in the DEFER ring from byte `off` (R173); `dests` are the core addresses of the
tile's words. -/
inductive Deferred where
  | send (t : Token) (off : Nat)
  | signal (t : Token) (mark : Nat)
  | fence (scope : Nat)
  | steer (rule off : Nat)
  | amax (n : Nat) (v : W32)
  | held (off : Nat) (dests : List Nat)
  deriving DecidableEq, Repr

/-- A held terrace entry (R141, R462). `stop` is the end of the highest byte written by committed attempts. -/
structure TEntry where
  sample : Nat
  start : Nat
  stop : Nat
  deriving DecidableEq, Repr

/-- A core's terrace (R462). -/
structure Terrace where
  base : Nat
  size : Nat
  stash : Nat
  head : Nat
  entries : List TEntry
  deriving DecidableEq, Repr

def Terrace.none : Terrace := ⟨0, 0, 0, 0, []⟩

/-! Tasks (R158, R166). -/

/-- The run record of a task context (R158): counts, VCVT index, the save state of a YIELD, a CLAIM index kept under R95,
and the fingerprint that a gather RECORD reports (R239). -/
structure RunRec where
  sat : Nat
  nz : Nat
  uf : Nat
  vidx : Nat
  pc : Nat
  s : Tab W32
  a : Tab W32
  ret : List Nat
  claim : Option W32
  finger : W32
  deriving DecidableEq, Repr

def RunRec.zero : RunRec :=
  { sat := 0, nz := 0, uf := 0, vidx := 0, pc := 0, s := [], a := [], ret := [], claim := none, finger := 0 }

/-- Task states (R166). -/
inductive TaskState where
  | idle | waiting | ready | running | yielded | ended | committed | discarded | halted
  deriving DecidableEq, Repr

/-- STATE as the descriptor holds it. -/
def TaskState.code : TaskState → Nat
  | .idle => 0 | .waiting => 1 | .ready => 2 | .running => 3 | .yielded => 4 | .ended => 5 | .committed => 6
  | .discarded => 7 | .halted => 8

/-- A task context: the descriptor of R158, its engine part, the run record, the core time of the release (R266), the
replay mark RETAINED (R335) and the syndromes of its damaged words, by word of the run record and of the descriptor (R363,
R367); its fields hold what the words give once corrected. -/
structure Ctx where
  task : Nat
  core : Nat
  entry : Nat
  args : Nat
  deps : Nat
  spec : Nat
  fmtc : Nat
  account : Nat
  cls : Nat
  offset : Nat
  stage : Nat
  nsucc : Nat
  deadline : Nat
  succ : Nat
  shadow : Nat
  rkey : Nat
  sample : Nat
  dcur : Nat
  pcur : Nat
  state : TaskState
  hard : Bool
  rung : Nat
  fmtNow : Nat
  run : RunRec
  cycles : Nat
  released : Bool
  retained : Bool
  badRun : Tab Byte
  badDesc : Tab Byte
  deriving DecidableEq, Repr

def Ctx.none : Ctx :=
  { task := 0, core := 0, entry := 0, args := 0, deps := 0, spec := 0, fmtc := 0, account := 0, cls := 7, offset := 0,
    stage := 0, nsucc := 0, deadline := 0, succ := 0, shadow := 0, rkey := 0, sample := 0, dcur := 0, pcur := 0,
    state := .idle, hard := false, rung := 0, fmtNow := 15, run := RunRec.zero, cycles := 0, released := false,
    retained := false, badRun := [], badDesc := [] }

/-- The running task of a core, as the core knows it from DISPATCH or RESUME. -/
structure Run where
  ctx : Nat
  task : Nat
  sample : Nat
  cls : Nat
  spec : Nat
  narrow : Bool
  speculative : Bool
  fmtNow : Nat
  ceiling : Nat
  fmtc : Nat
  shadow : Nat
  rkey : Nat
  retained : Bool
  sat : Nat
  nz : Nat
  uf : Nat
  vidx : Nat
  ended : Bool
  deriving DecidableEq, Repr

/-- What a core waits for after an instruction that does not complete at once: a CLAIM's response, a FENCE, or an END or
YIELD that has been reported. -/
inductive Wait where
  | none
  | claim (rd : Nat)
  | fence (scope : Nat)
  deriving DecidableEq, Repr

/-- A core site (R78 to R107). Scalar registers s1 to s15, address registers and vector registers that a table does not
list hold zero. `busy` lists the slabs whose ready flag is clear. The deferral list, the AMAX shadows (key context × 16 +
slot), the WAIT records and the ring bytes written belong to the attempt of a context; `away` holds the attempts that
have left the core at END, YIELD or a trip and await the engine. `serial` numbers the entries of the array queue, `sigs` holds its
value at the issue of each SIGNAL of the send queue (R104), and `due` the groups whose merges are due, in that order (R66). -/
structure Core where
  s : Tab W32
  a : Tab W32
  v : Tab (List W32)
  pc : Nat
  ret : List Nat
  sem : Tab Nat
  run : Option Run
  wait : Wait
  stall : Nat
  halted : Bool
  queue : List QEntry
  serial : Nat
  due : List Nat
  bankA : Option Bank
  bankB : Option Bank
  recentB : Bool
  retained : Option Retained
  groups : Tab (Option Group)
  sendq : List Flight
  sigs : List Nat
  releasing : List (Nat × Deferred)
  deferred : List (Nat × Deferred)
  away : List Run
  rules : Tab Rule
  holds : Tab Hold
  busy : Tab Bool
  shadows : Tab Shadow
  amaxSh : Tab W32
  terr : Terrace
  highs : Tab Nat
  waits : List (Nat × Nat × Nat)
  parity : Tab Bool
  deriving DecidableEq, Repr

/-- A core after a wipe (R380) with no terrace set. -/
def Core.reset : Core :=
  { s := [], a := [], v := [], pc := 0, ret := [], sem := [], run := none, wait := .none, stall := 0, halted := false,
    queue := [], serial := 0, due := [], bankA := none, bankB := none, recentB := false, retained := none, groups := [], sendq := [], sigs := [],
    releasing := [], deferred := [], away := [], rules := [], holds := [], busy := [], shadows := [], amaxSh := [],
    terr := Terrace.none, highs := [], waits := [], parity := [] }

/-! Flidric ports (R298 to R304). -/

/-- What waits to leave on a port: stream (VC 0 CTRL, 1 DATA, 2 COLL, and CLASS), the bytes not yet in a flit, and the
token with its owner, none for a collective segment. -/
structure TxItem where
  vc : Nat
  cls : Nat
  bytes : List Byte
  own : Option Flight
  deriving DecidableEq, Repr

/-- A flit of the replay buffer (R301): its place in the order, stream, credit byte, payload, and the tokens and segments
whose last byte it carries. -/
structure TxFlit where
  seq : Nat
  vc : Nat
  cls : Nat
  credit : Nat
  payload : List Byte
  ends : List (Option Flight)
  deriving DecidableEq, Repr

/-- A Flidric port: the queue to send, the stream served last among DATA and COLL, the next SEQ, the replay buffer, send
credits by stream (key VC × 2 + CLASS), the SEQ expected, failures of that flit in a row, whether flits are being discarded
until the replay, whether a NAK has come in, the received bytes of each stream that no whole token takes yet, the payload bytes
still held of each flit in a stream's receive buffer, credits to return by stream, whole tokens and segments received, flits
received since one was sent, the flits sent on the wire, and by stream the bytes discarded of a token or segment in progress whose
rest is to be discarded too (R319). -/
structure PortSt where
  queue : List TxItem
  lastColl : Bool
  seq : Nat
  replay : List TxFlit
  credit : Tab Nat
  expect : Nat
  bad : Nat
  skipping : Bool
  nakIn : Bool
  rx : Tab (List Byte)
  fills : Tab (List Nat)
  owed : Tab Nat
  inbox : List (Nat × Nat × List Byte)
  unanswered : Nat
  wire : List (List Byte)
  void : Tab Nat
  deriving DecidableEq, Repr

def PortSt.reset : PortSt :=
  { queue := [], lastColl := false, seq := 0, replay := [], credit := [], expect := 0, bad := 0, skipping := false,
    nakIn := false, rx := [], fills := [], owed := [], inbox := [], unanswered := 0, wire := [], void := [] }

/-! Collective runs (R309 to R318). -/

/-- Data that a run has still to send: ring, step, chunk, offset, length, destination module, the rank whose credit it
takes, and its bytes, or the address to read them from when it is sent. -/
structure CollSend where
  ring : Nat
  step : Nat
  chunk : Nat
  offset : Nat
  len : Nat
  dest : Nat
  grantor : Nat
  src : Nat
  data : Option (List Byte)
  deriving DecidableEq, Repr

/-- A run in progress: operation, run number, group index and version, the operation entry's first 48 bytes, the group's size,
rank and neighbours, whether its sends have been planned, credit by rank × 2 + ring, sends and local copies still to make,
bytes still to arrive, ranges staged (R314), the ranges of each written page not yet written, whether a BARRIER has passed,
and the sample of its last post and of the last post toward the run after it. -/
structure CollRun where
  op : Nat
  run : Nat
  group : Nat
  version : Nat
  entry : List Byte
  n : Nat
  rank : Nat
  next : Nat
  prev : Nat
  planned : Bool
  credit : Tab Nat
  sends : List CollSend
  copies : List (Nat × Nat × Nat)
  due : Nat
  staged : List (Nat × Nat)
  cover : Tab (List (Nat × Nat))
  passed : Bool
  sample : Option Nat
  nextSample : Option Nat
  deriving DecidableEq, Repr

/-! Checkpoints (R339 to R351). -/

/-- A page of a checkpoint: its directory entry (R345), whether its local copy is made, and how far its copy on the buddy
is: 0 not sent, 1 sent, 2 acknowledged. While it is captured for a buddy alone, `sector` is the directory index that it was sent
under. -/
structure CkPage where
  vpn : Nat
  ride : Bool
  coded : Bool
  poison : Bool
  sectors : Nat
  tier : Nat
  stack : Nat
  crc : Nat
  sector : Nat
  made : Bool
  buddy : Nat
  deriving DecidableEq, Repr

/-- A RESTORE or VERIFY that waits for another module (R349, R351): command, argument 0, the module asked, what it waits
for (0 nothing, 1 record bytes, 2 a page copy, 3 a CRC, 4 a live page), the bytes received, the record, the pages still to
treat, and of the first of them whether the local copy has been tried and whether it has been replaced. -/
structure CkTask where
  op : Nat
  flags : Nat
  peer : Nat
  want : Nat
  buf : List Byte
  record : List Byte
  todo : List CkPage
  second : Bool
  put : Bool
  deriving DecidableEq, Repr

/-- The checkpoint engine of a slot: destination, slot written, number, regions, captured pages' copies, the directory, the record for the buddy, and the task that waits. -/
structure CkSt where
  dest : Nat
  slot : Nat
  number : Nat
  regions : List Nat
  caps : Tab CkPage
  pages : List CkPage
  record : List Byte
  task : Option CkTask
  deriving DecidableEq, Repr

def CkSt.reset : CkSt :=
  { dest := 0, slot := 0, number := 0, regions := [], caps := [], pages := [], record := [], task := none }

/-! Protection and board (R376, R378, R425 to R448). -/

/-- An entry of the field-repair log (R376); `pending`: not in effect yet (R377). -/
structure Repair where
  kind : Nat
  die : Nat
  site : Nat
  mac : Nat
  index : Nat
  hword : Nat
  seq : Nat
  pending : Bool
  deriving DecidableEq, Repr

/-- What the Koldo controller reads at a module reset beside the field-repair log (R376): the sites (die × 384 + site) that the
factory fuse map retires, the routers that it takes out of service, the spares that it has switched in (kind, die, site and
macro, one entry for each), and the entries of the log whose CHECK fails in a flash copy (index, area). -/
structure Fuses where
  sites : List Nat
  routers : List Nat
  spares : List (Nat × Nat × Nat × Nat)
  badCopy : List (Nat × Nat)
  deriving DecidableEq, Repr

def Fuses.none : Fuses := ⟨[], [], [], []⟩

/-- An image area of the boot flash beside its log region (R441): the fields of its header, and the image. -/
structure FlashArea where
  version : W32
  active : Bool
  length : Nat
  sign : List Byte
  image : List Byte
  deriving DecidableEq, Repr

/-- The board side of the module: input above 55 V, the pins PWR_EN, MOD_RESETn and PERSTn (true: asserted as PWR_EN high,
the others low), main rails in regulation, SLOT_ID as sampled, the latches of R425 and R431, ALERT_CAUSE and the stored
NODE_CONFIG (R447), junctions above 105 °C (die 0 to 7, 8 the hub), an FW_ACTIVATE that waits, the firmware area left by a
switch that has still to prove itself, the two flash areas as they have been written since delivery (R441, R448), and the index of the NONCE that the module
shows (R391). -/
structure Board where
  input : Bool
  pwrEn : Bool
  modReset : Bool
  perst : Bool
  rails : Bool
  slotId : Nat
  powerFault : Bool
  trip : Bool
  alert : Nat
  node : Option Nat
  hot : List Nat
  fwNext : Option Nat
  fwOld : Option Nat
  flash : Tab FlashArea
  nonce : Nat
  deriving DecidableEq, Repr

/-- The board with power good and every reset released. -/
def Board.up : Board :=
  { input := true, pwrEn := true, modReset := false, perst := false, rails := true, slotId := 0, powerFault := false,
    trip := false, alert := 0, node := none, hot := [], fwNext := none, fwOld := none, flash := [], nonce := 0 }

end Sys2Proof.Machine
end

