-- ==== Sys2Proof/Machine/State.lean ====
section
/-! DEFINITION. Machine/State.lean: everything the spec gives the module, as plain data, and the module right after
reset. -/
namespace Sys2Proof.Machine

/-! Dies. -/

/-- A request to arm a descriptor: arm index and sample (R229), whether its producer is of a class whose faults are window-level
(R329), and the logical core and context whose commit made it while a FENCE of that commit was still to complete (R230). -/
structure ArmReq where
  arm : Nat
  sample : Nat
  window : Bool
  after : Option (Nat × Nat)
  deriving DecidableEq, Repr

/-- A running arm: its request, whether its bytes have moved, the memory tags it holds with the pages that they name,
its status so far (R230), and whether a rewind has taken its completion action away (R231). -/
structure Arm where
  req : ArmReq
  moved : Bool
  tags : Nat
  vpns : List Nat
  status : Nat
  mute : Bool
  deriving DecidableEq, Repr

/-- A stream or gather descriptor (R227, R234): its 32 bytes, state (0 IDLE, 1 ACTIVE, 2 HALTED), last status, the arm
that runs or halted, the shadow register, and the number of arms accepted. -/
structure SDesc where
  bytes : List Byte
  state : Nat
  last : Nat
  arm : Option Arm
  shadow : Option ArmReq
  nextArm : Nat
  deriving DecidableEq, Repr

def SDesc.none : SDesc := ⟨[], 0, 0, Option.none, Option.none, 0⟩

/-- A gather cache line (R236): line address VA[47:8], valid bytes, run-ahead owner as descriptor and arm, page generation at
fill, bytes as corrected, the syndromes of its damaged words, and its way within the set. A die's lines stand in order of use,
the latest first. -/
structure GLine where
  va : Nat
  valid : Nat
  ra : Option (Nat × Nat)
  gen : Nat
  data : List Byte
  bad : Tab Byte
  way : Nat
  deriving DecidableEq, Repr

/-- A compute die's engines (R158 to R188, R225 to R250, R274, R335), among them the UPDATE contexts that
have committed in the window, the program words to refresh (R368), the stack
temperature at the last calibration, the thermal steps since the controller's last one (R450), and the successor cache: the list
of a context as it was read, and the syndromes of its damaged words (R158, R363). `owed` names discarded contexts, with their
sample, whose list waits for a page before the DISCARDs along it can go (R170, R213). -/
structure DieSt where
  ctxs : Tab Ctx
  loaded : Nat
  early : List Token
  submits : List (Nat × Nat × Nat)
  firstOut : Tab Bool
  faulted : List Nat
  retain : List (Nat × Nat × Bool)
  doneSent : Bool
  updates : List Nat
  started : Bool
  missed : Tab Bool
  streams : Tab SDesc
  gathers : Tab SDesc
  lines : List GLine
  hist : Tab Nat
  busyCnt : Tab Nat
  refresh : List (Nat × Nat)
  calTemp : Nat
  calWait : Nat
  succs : Tab (List Nat × Tab Byte)
  owed : List (Nat × Nat)
  deriving DecidableEq, Repr

def DieSt.reset : DieSt :=
  { ctxs := [], loaded := 0, early := [], submits := [], firstOut := [], faulted := [], retain := [], doneSent := false,
    updates := [], started := false, missed := [], streams := [], gathers := [], lines := [], hist := [], busyCnt := [],
    refresh := [], calTemp := 0, calWait := 0, succs := [], owed := [] }

/-! Partition slots. -/

/-- A pool extent (R204): tier, first sector (physical address [47:12]) and sectors. -/
structure Extent where
  tier : Nat
  base : Nat
  n : Nat
  deriving DecidableEq, Repr

/-- A page of the partition in transit (R213): page number, its new entry, and the count that its switch adds to: 0
none, 1 DEMOTE_COUNT, 2 PROMOTE_COUNT, 3 EXPAND_COUNT. -/
structure Transit where
  vpn : Nat
  entry : Nat
  cause : Nat
  deriving DecidableEq, Repr

/-- Job states (R260). -/
inductive JobState where
  | absent | empty | current | saved | lost
  deriving DecidableEq, Repr

def JobState.code : JobState → Nat
  | .absent => 0 | .empty => 1 | .current => 2 | .saved => 3 | .lost => 4

/-- A die's DONE as the leader holds it (R130, R134): reporting module and die, extension, WINDOW_COMPLETE, EMPTY. -/
structure Done where
  mod : Nat
  die : Nat
  therm : Nat
  windowComplete : Bool
  empty : Bool
  deriving DecidableEq, Repr

/-- The leader's count within a tick where it stands still (R136, R138): a number that the rules give, or the open number of an
index (log entry 4). -/
inductive Count where
  | known (n : Nat)
  | free (index : Nat)
  deriving DecidableEq, Repr

/-- The tick of a job as its generator holds it (R127 to R150, R330, R337): DONEs of the current tick, modules that are ARMED,
dies that have paused, whether the tick has overrun and waits without limit, whether the window boundary has passed and the
next window's first tick has not begun, the samples of the window by injection slot, those that the current tick's boundary
discarded, the sample faults of each sample, the sample from which the next boundary rewinds, and the count at which the tick
stopped. -/
structure TickSt where
  dones : List Done
  armed : List Nat
  paused : List (Nat × Nat)
  overrun : Bool
  noLimit : Bool
  bounded : Bool
  inj : Tab Nat
  rewound : List Nat
  faultCount : Tab Nat
  rewindTo : Option Nat
  count : Count
  deriving DecidableEq, Repr

def TickSt.reset : TickSt :=
  { dones := [], armed := [], paused := [], overrun := false, noLimit := false, bounded := false, inj := [], rewound := [],
    faultCount := [], rewindTo := none, count := .known 0 }

/-- The saved state of a job (R268, R269): cores by logical number (die × 512 + core), the directory of its live frames as (core,
frame), whose bytes lie in its context area, dies, the hub registers saved, the token log, and a mark of uncorrectable words in its
records. -/
structure Saved where
  cores : Tab Core
  frames : List (Nat × Nat)
  dies : Tab DieSt
  regs : Tab W32
  toks : List Flight
  tick : TickSt
  phase : Nat
  epoch : Nat
  image : Option (Image × Nat)
  progs : Nat × Nat
  badRecord : Bool
  deriving DecidableEq, Repr

/-- A job (R260, R264, R266, R278). -/
structure Job where
  state : JobState
  share : Nat
  ctxValid : Bool
  ctxOff : Nat
  pass : Nat
  acct : Nat
  saved : Option Saved
  deriving DecidableEq, Repr

def Job.none : Job :=
  { state := .absent, share := 0, ctxValid := false, ctxOff := 0, pass := 0, acct := 0, saved := Option.none }

/-- A partition slot. `badPte` holds the syndromes of damaged table entries and of their mirrors (R369), by page for L2 entries and
by `dirKey` for L1 entries; `tlb` and `dirs` what the translation and directory caches hold, as (cache, page or region). -/
structure SlotSt where
  -- Flidric route exceptions, as match, mask and action (R307), and translation (R193 to R214)
  areaPages : Nat
  regions : Tab Nat
  l1 : Tab Bool
  ptes : Tab Nat
  badPte : Tab (Byte × Byte)
  exc : Tab (Nat × Nat × Nat)
  pools : List Extent
  tlb : List (Nat × Nat)
  dirs : List (Nat × Nat)
  used : List Nat
  transit : List Transit
  pgtWait : Option (Nat × List Nat)
  -- group entries, runs, and segments that came before their run (R309 to R318)
  groups : Tab (List Byte)
  runs : List CollRun
  earlySegs : List (List Byte)
  -- the checkpoint engine, captures, and the writes that wait for the copier as page, unit and address (R339 to R351)
  ck : CkSt
  captured : List Nat
  cowNext : List (Nat × Nat × Nat)
  -- jobs and timetable (R260 to R267)
  jobs : Tab Job
  current : Option Nat
  tt : Tab W64
  freeAcct : Nat
  freeEntry : Bool
  entryFresh : Bool
  saving : Option (Nat × Bool)
  switchTo : Option Nat
  frameUs : Nat
  walkWaits : Bool
  clearRun : Bool
  loading : Bool
  laying : Bool
  -- tick (R127 to R150)
  tick : TickSt
  -- the image of the current job: its sections and the placement that LOAD chose (R118, R367, R368), and the physical address and
  -- length of its PROGRAMS section on the stack
  image : Option (Image × Nat)
  progs : Nat × Nat
  deriving DecidableEq, Repr

def SlotSt.reset : SlotSt :=
  { areaPages := 0, regions := [], l1 := [], ptes := [], badPte := [], exc := [], pools := [], tlb := [], dirs := [], used := [],
    transit := [], pgtWait := none, groups := [], runs := [], earlySegs := [], ck := CkSt.reset, captured := [], cowNext := [],
    jobs := [(0, { Job.none with state := .current, share := 1 })], current := some 0, tt := [], freeAcct := 0,
    freeEntry := false, entryFresh := false, saving := none, switchTo := none, frameUs := 0, walkWaits := false, clearRun := false,
    loading := false, laying := false,
    tick := TickSt.reset, image := none, progs := (0, 0) }

/-! The machine. -/

/-- An MSI-X message sent to the host (R415): function, vector, and the address and data of its table entry. -/
structure Msg where
  func : Nat
  vector : Nat
  addr : Nat
  data : Nat
  deriving DecidableEq, Repr

/-- A request of a function that waits at the hub (R416 to R418): a write through the memory window, with the slot and the device
virtual address that it maps to; a read through it; a read of the register window. -/
inductive HostReq where
  | memWrite (slot va : Nat) (bytes : List Byte)
  | memRead (off len : Nat)
  | regRead (off len : Nat) (full : Bool)
  deriving DecidableEq, Repr

/-- A function's configuration state (R394 to R396, R415): MSI-X Enable, Function Mask, the words of the MSI-X table by
word index (vector control words read 1 until written), the PBA bits, whether it is in D3hot, its base address registers by index,
its Max Payload Size in bytes and the width of its requester tags; and, oldest first, the requests that hold its credits (R393). -/
structure FuncSt where
  msix : Bool
  fmask : Bool
  table : Tab W32
  pba : Tab Bool
  d3 : Bool
  bars : Tab W32
  payload : Nat
  tagBits : Nat
  waits : List HostReq
  deriving DecidableEq, Repr

def FuncSt.reset : FuncSt :=
  { msix := false, fmask := false, table := [], pba := [], d3 := false, bars := [], payload := 128, tagBits := 8, waits := [] }

/-- A command of a page that runs (R405, R407, R408): its result word, the event bits that its end sets, and whether it
is a long operation. -/
structure CmdRun where
  result : Nat
  evt : Nat
  long : Bool
  ready : Bool
  deriving DecidableEq, Repr

/-- The state of one module and its queue of waiting commands; `net` holds the tokens on the mesh and between dies, `vfs` is NumVFs and `vfOn` VF Enable (R393, R395; log entry 25), `repairs`
the field-repair log and `fuses` the factory fuse map (R376), `corr` the corrections that R378 looks back on (word, syndrome, scrub pass or 0) with the number
of scrub passes begun, `board` the board side, `hard` the words whose cells fail for good, with the syndrome that they show
whatever is written (R378), `hubErr` the damaged words of the hub buffers (R363), `wipes` for each WIP page
(die, or 8 the hub) whose wipe runs the pages that the wipe covers and whether a part of it has failed (R382), `answer` the bytes that the latest host read or
SMBus read returned, and `ep` the EP bit of the latest read through a memory window (R367). -/
structure State where
  pending : List Instr
  regs : Tab W32
  cores : Tab Core
  dies : Tab DieSt
  slots : Tab SlotSt
  mem : List Host.Cell
  synd : Tab Byte
  net : List Flight
  ports : Tab PortSt
  msgs : List Msg
  funcs : Tab FuncSt
  vfs : Nat
  vfOn : Bool
  cmds : Tab CmdRun
  logN : Tab Nat
  masks : List Nat
  repairs : List Repair
  fuses : Fuses
  corr : List (Nat × Nat × Nat)
  passes : Nat
  board : Board
  hard : Tab Byte
  hubErr : Tab Byte
  wipes : Tab (List Nat × Bool)
  answer : List Byte
  ep : Bool
  free : Nat
  deriving DecidableEq, Repr

/-- Why a command could stop the machine. No command of this part does: every condition of R413 is an effect on State. -/
inductive Fault where
  /-- Raised by no command; safe. -/
  | none
  deriving DecidableEq, Repr

/-- Why a command could have no meaning. -/
inductive Refusal where
  /-- Raised by a command of exec that this model does not yet give a meaning; safe. -/
  | notModelled (mnemonic : String)
  deriving DecidableEq, Repr

/-- The module right after reset (R7). -/
def State.reset : State :=
  { pending := [], regs := [], cores := [], dies := [], slots := [], mem := [], synd := [], net := [], ports := [], msgs := [],
    funcs := [], vfs := 8, vfOn := true, cmds := [], logN := [], masks := [], repairs := [], fuses := Fuses.none, corr := [], passes := 0, board := Board.up,
    hard := [], hubErr := [], wipes := [], answer := [], ep := false, free := 0 }

end Sys2Proof.Machine
end

