-- ==== Sys2Proof/Machine/Ops.lean ====
section
/-! DEFINITION. Machine/Ops.lean: the named operations over registers, memory, error codes, events and messages,
commands of a page, halts and sample faults, and tokens, which every chapter's meanings share. -/
namespace Sys2Proof.Machine

/-! ## Registers -/

/-- The word at an offset of the register window. -/
def regAt (s : State) (off : Nat) : Nat := (tget (regDefault off) s.regs off).toNat

/-- Stores a word at an offset of the register window. -/
def setRegAt (s : State) (off v : Nat) : State := { s with regs := tset (regDefault off) s.regs off (w32 v) }

/-- A register of a page. -/
def rd (s : State) (p : Page) (o : Nat) : Nat := regAt s (pageBase p + o)

/-- Hardware writes a register of a page. -/
def wr (s : State) (p : Page) (o v : Nat) : State := setRegAt s (pageBase p + o) v

/-- Adds to a saturating register (R8). -/
def bump (s : State) (p : Page) (o n : Nat) : State := wr s p o (min (rd s p o + n) 0xFFFFFFFF)

/-- Raises a register to a value if that is larger. -/
def wrMax (s : State) (p : Page) (o v : Nat) : State := wr s p o (max (rd s p o) v)

/-- Writes a field of a register. -/
def wrFld (s : State) (p : Page) (o lo len v : Nat) : State := wr s p o (setFld (rd s p o) lo len v)

/-! ## Parts of the state -/

/-- The key of a core site: die × 384 + site. -/
def cid (c : CoreId) : Nat := c.die.val * 384 + c.site.val

def getCore (s : State) (k : Nat) : Core := tget Core.reset s.cores k
def setCore (s : State) (k : Nat) (c : Core) : State := { s with cores := tset Core.reset s.cores k c }
def getDie (s : State) (d : Nat) : DieSt := tget DieSt.reset s.dies d
def setDie (s : State) (d : Nat) (x : DieSt) : State := { s with dies := tset DieSt.reset s.dies d x }
def getSlot (s : State) (k : Nat) : SlotSt := tget SlotSt.reset s.slots k
def setSlot (s : State) (k : Nat) (x : SlotSt) : State := { s with slots := tset SlotSt.reset s.slots k x }
def getFunc (s : State) (f : Nat) : FuncSt := tget FuncSt.reset s.funcs f
def setFunc (s : State) (f : Nat) (x : FuncSt) : State := { s with funcs := tset FuncSt.reset s.funcs f x }
def getPort (s : State) (p : Nat) : PortSt := tget PortSt.reset s.ports p
def setPort (s : State) (p : Nat) (x : PortSt) : State := { s with ports := tset PortSt.reset s.ports p x }

/-- The page of a core site. -/
def corPage (k : Nat) : Page := .cor (k / 384) (k % 384)

/-- Draws the next open number (log entry 4). -/
def drawNat (s : State) : Nat × State := (Config.freeNat s.free, { s with free := s.free + 1 })

/-- Draws the next open word (log entry 4). -/
def drawWord (s : State) : W32 × State := (Config.freeWord s.free, { s with free := s.free + 1 })

/-- LCS shows a new random NONCE (R384, R391). -/
def newNonce (s : State) : State := { s with board := { s.board with nonce := s.free }, free := s.free + 1 }

/-! ## Layout and ownership (R251 to R254, R398, R403) -/

/-- The number of partitions of the current layout. -/
def layoutN (s : State) : Nat := min 8 (rd s (.tmt 8) tmt_LAYOUT % 16)

/-- Dies of one partition. -/
def diesPer (s : State) : Nat := 8 / layoutN s

/-- The slot that holds a die. -/
def slotOf (s : State) (d : Nat) : Nat := d / diesPer s

/-- Whether a slot is in use under the current layout. -/
def slotUsed (s : State) (k : Nat) : Bool := decide (k < layoutN s)

/-- The dies of a slot, home die first. -/
def diesOf (s : State) (k : Nat) : List Nat :=
  if slotUsed s k then (List.range (diesPer s)).map (· + k * diesPer s) else []

/-- The home die of a slot (R196). -/
def homeDie (s : State) (k : Nat) : Nat := k * diesPer s

/-- The Flidric port mask of a slot (R254). -/
def portMask (s : State) (k : Nat) : Nat :=
  if !slotUsed s k then 0
  else match s.masks[k]? with
    | some m => m
    | none => (2 ^ (2 * diesPer s) - 1) <<< (2 * diesPer s * k)

/-- The slot whose port mask holds a port. -/
def portSlot (s : State) (p : Nat) : Option Nat := (List.range 8).find? (fun k => (portMask s k).testBit p)

/-- PAGE_CAP.OWNER of a page: a slot, or 15 for hub-wide pages and pages of an unused slot (R403). -/
def ownerOf (s : State) (p : Page) : Nat :=
  let used := fun k => if slotUsed s k then k else 15
  match p with
  | .tckG k | .clv k | .ckp k => used k
  | .tmt k | .kld k => if k < 8 then used k else 15
  | .pcx i => if i = 0 then 15 else used (i - 1)
  | .fld i => if i < 16 then (portSlot s i).getD 15 else used (i - 16)
  | .tke d | .stm d | .gch d | .mem d | .pgt d | .wkc d _ | .tckR d | .smp d | .scb d | .wip d | .thm d | .trc d _
  | .cor d _ => slotOf s d
  | _ => 15

/-- Whether a function may access a page (R398). -/
def owns (s : State) (fn : Nat) (p : Page) : Bool := fn == 0 || ownerOf s p == fn - 1

/-! ## The tick generator's state (R155) -/

/-- TCK.PHASE.STATE of a slot: 0 STOPPED, 1 LOADED, 2 ARMED, 3 RUN, 4 DRAIN, 5 HALTED, 6 UNLOADED. -/
def phase (s : State) (k : Nat) : Nat := fld (rd s (.tckG k) tck_PHASE) 0 3

def setPhase (s : State) (k v : Nat) : State := wrFld s (.tckG k) tck_PHASE 0 3 v

/-- The configuration epoch of a slot (R148). -/
def epochOf (s : State) (k : Nat) : Nat := rd s (.tckG k) tck_EPOCH % 16

/-- Whether a partition is stopped in the sense of R182 and R184. -/
def quiet (s : State) (k : Nat) : Bool := phase s k == 0 || phase s k == 1 || phase s k == 6

/-- Tick phases in which a job needs engine time (R261): ARMED, RUN, DRAIN. -/
def activePhase (ph : Nat) : Bool := ph == 2 || ph == 3 || ph == 4

/-! ## Remap tables (R12 to R18) -/

/-- The physical site that carries a logical core of a die, if it has one. -/
def siteOf (s : State) (d l : Nat) : Option Nat :=
  if l < 360 ∧ d < 8 then
    let t := l / 15
    let m := rd s (.trc d t) (trc_MAP_n + 4 * (l % 15))
    if m.testBit 8 then
      let ls := m % 16
      some ((t / 6 * 4 + ls / 4) * 24 + (t % 6 * 4 + ls % 4))
    else none
  else none

/-- The tract of a site (R12). -/
def tractOf (site : Nat) : Nat := (site / 24 / 4) * 6 + (site % 24) / 4

/-- The place of a site in its tract (R12). -/
def localOf (site : Nat) : Nat := (site / 24 % 4) * 4 + site % 24 % 4

/-- The logical core that a site of a die carries, if it carries one. -/
def logicalOf (s : State) (d site : Nat) : Option Nat :=
  let t := tractOf site
  ((List.range 15).find? (fun n =>
    let m := rd s (.trc d t) (trc_MAP_n + 4 * n)
    m.testBit 8 && m % 16 == localOf site)).map (fun n => 15 * t + n)

/-- COR.STATE.ROLE of a site: 0 service, 1 reserve, 2 retired (R107). A good site that is neither, on a die that offers no core
(R291), reads as retired (log entry 81). -/
def roleOf (s : State) (d site : Nat) : Nat :=
  let t := tractOf site
  if (rd s (.trc d t) trc_SITE_STATE).testBit (localOf site) then 2
  else if (logicalOf s d site).isSome then 0
  else if rd s (.trc d t) trc_RESERVE = 0x100 + localOf site then 1
  else 2

/-- The key of the core that carries a logical number. -/
def coreOf (s : State) (d l : Nat) : Option Nat := (siteOf s d l).map (fun x => d * 384 + x)

/-! ## Device physical memory (R190) -/

/-- Device physical address of a core address on a site. -/
def coreAddr (k a : Nat) : Nat := (k / 384) <<< 43 + (k % 384) <<< 34 + a

/-- Device physical address of a byte of a stack. -/
def hbmAddr (st b : Nat) : Nat := 2 ^ 46 + st <<< 43 + b

/-- The one form of a memory: addresses strictly rising, no byte listed that reads as an unlisted one. -/
def Memory.wf (m : List Host.Cell) : Bool := twf (fun _ => (0 : Byte)) m

/-- One byte; memory that nothing has written reads zero, as after a wipe (log entry 2). -/
def rdByte (s : State) (a : Nat) : Byte := tget 0 s.mem a

/-- `n` bytes from an address. -/
def memRead (s : State) (a n : Nat) : List Byte := (List.range n).map (fun i => rdByte s (a + i))

/-- Writes one byte. -/
def wrByte (s : State) (a : Nat) (b : Byte) : State := { s with mem := tset 0 s.mem a b }

/-- Writes bytes from an address on. -/
def memWrite : State → Nat → List Byte → State
  | s, _, [] => s
  | s, a, b :: bs => memWrite (wrByte s a b) (a + 1) bs

/-- Sets a range of memory to zero with correct check bits (R380). -/
def memClear (s : State) (a n : Nat) : State :=
  { s with mem := tkeep (fun k => decide (k < a ∨ a + n ≤ k)) s.mem,
           synd := tkeep (fun k => decide (k < a / 8 ∨ (a + n) / 8 ≤ k)) s.synd }

/-- The stored syndrome of the word at 8 × w (R362): 0 for a word without error. -/
def syndAt (s : State) (w : Nat) : Byte := tget 0 s.synd w

def setSynd (s : State) (w : Nat) (x : Byte) : State := { s with synd := tset 0 s.synd w x }

/-! ## Events and messages (R405, R414, R415) -/

/-- The event source of a page (R414). -/
def sourceOf : Page → Nat
  | .hub => 0 | .lcs => 1 | .fus => 2 | .wipH => 3 | .scbH => 4 | .pwr => 5 | .thmH => 6
  | .kld i => 8 + i | .pcx i => 17 + i | .fld i => 26 + i | .tckG k => 50 + k | .tmt i => 58 + i | .clv k => 67 + k
  | .ckp k => 75 + k
  | .tke d => 128 + 16 * d | .stm d => 129 + 16 * d | .gch d => 130 + 16 * d | .mem d => 131 + 16 * d
  | .pgt d => 132 + 16 * d | .wkc d i => 133 + 16 * d + i | .tckR d => 137 + 16 * d | .smp d => 138 + 16 * d
  | .scb d => 139 + 16 * d | .wip d => 140 + 16 * d | .thm d => 141 + 16 * d | .trc d _ => 142 + 16 * d
  | .cor d _ => 143 + 16 * d

/-- The pages of an event source; none for a reserved number. -/
def pagesOf (n : Nat) : List Page :=
  if n < 128 then
    match n with
    | 0 => [.hub] | 1 => [.lcs] | 2 => [.fus] | 3 => [.wipH] | 4 => [.scbH] | 5 => [.pwr] | 6 => [.thmH]
    | _ =>
      if 8 ≤ n ∧ n < 17 then [.kld (n - 8)] else if 17 ≤ n ∧ n < 26 then [.pcx (n - 17)]
      else if 26 ≤ n ∧ n < 50 then [.fld (n - 26)] else if 50 ≤ n ∧ n < 58 then [.tckG (n - 50)]
      else if 58 ≤ n ∧ n < 67 then [.tmt (n - 58)] else if 67 ≤ n ∧ n < 75 then [.clv (n - 67)]
      else if 75 ≤ n ∧ n < 83 then [.ckp (n - 75)] else []
  else if n < 256 then
    let d := (n - 128) / 16
    match (n - 128) % 16 with
    | 0 => [.tke d] | 1 => [.stm d] | 2 => [.gch d] | 3 => [.mem d] | 4 => [.pgt d] | 9 => [.tckR d] | 10 => [.smp d]
    | 11 => [.scb d] | 12 => [.wip d] | 13 => [.thm d] | 14 => (List.range 24).map (Page.trc d)
    | 15 => (List.range 384).map (Page.cor d)
    | i => [.wkc d (i - 5)]
  else []

/-- Whether a page is pending; a page without defined events never is. -/
def pagePending (s : State) (p : Page) : Bool := evtOf p != 0 && (rd s p hEVT &&& rd s p hENABLE) != 0

/-- Whether an event source is pending. -/
def srcPending (s : State) (n : Nat) : Bool := (pagesOf n).any (pagePending s)

/-- Whether a function owns an event source (R414). -/
def ownsSrc (s : State) (f n : Nat) : Bool := (pagesOf n).all (owns s f)

/-- Sends a message on a vector of a function, or marks it in the PBA while the vector or the function is masked (R415). -/
def sendMsi (s : State) (f v : Nat) : State :=
  let x := getFunc s f
  if x.msix then
    if x.fmask || (tget 1 x.table (4 * v + 3)).toNat.testBit 0 then setFunc s f { x with pba := tset false x.pba v true }
    else
      let a := (tget 0 x.table (4 * v)).toNat + 2 ^ 32 * (tget 0 x.table (4 * v + 1)).toNat
      let m : Msg := ⟨f, v, a, (tget 0 x.table (4 * v + 2)).toNat⟩
      setFunc { s with msgs := s.msgs ++ [m] } f { x with pba := tset false x.pba v false }
  else s

/-- The vector map entry of a source in a function's PCX page (R422). -/
def vmapEntry (s : State) (f n : Nat) : Nat := fld (rd s (.pcx f) (pcx_VMAP_n + 4 * (n / 2))) (16 * (n % 2)) 16

/-- Delivers a source to one function if its entry is enabled. -/
def deliverTo (n f : Nat) (s : State) : State :=
  let e := vmapEntry s f n
  if ownsSrc s f n && e.testBit 15 then sendMsi s f (e % 2 ^ 11) else s

/-- Delivers a source to every function that owns it. -/
def deliver (s : State) (n : Nat) : State := each (List.range 9) (deliverTo n) s

/-- Sets event bits as hardware does: the defined ones, with a message where the source becomes pending (R406, R415). -/
def raise (s : State) (p : Page) (bits : Nat) : State :=
  let before := srcPending s (sourceOf p)
  let s1 := wr s p hEVT (rd s p hEVT ||| (bits &&& evtOf p))
  if !before && srcPending s1 (sourceOf p) then deliver s1 (sourceOf p) else s1

/-- Records a condition in STATUS.LAST of a page (R404). -/
def last (s : State) (p : Page) (code : Nat) : State := wrFld s p hSTATUS 8 8 code

/-- Sets or clears STATUS.FAULT of a page (R404). -/
def faultBit (s : State) (p : Page) (b : Bool) : State := wrFld s p hSTATUS 1 1 (b2n b)

/-- A block raises a condition: LAST and its event bits. -/
def condition (s : State) (p : Page) (code bits : Nat) : State := raise (last s p code) p bits

/-! ## Commands of a page (R405, R408, R410) -/

/-- Whether a page is busy. -/
def busy (s : State) (p : Page) : Bool := match tfind s.cmds (pageBase p) with | some c => c.long | none => false

/-- CMD_RESULT of R405. -/
def resultWord (code reason tag : Nat) : Nat := code % 256 + 256 * (reason % 256) + 65536 * (tag % 65536)

/-- Ends a command that is not long: CMD_RESULT, then its event bits. -/
def endCmd (s : State) (p : Page) (code reason tag evt : Nat) : State :=
  raise (wr s p hRESULT (resultWord code reason tag)) p evt

/-- Starts a long operation of a page. -/
def startLong (s : State) (p : Page) (tag : Nat) : State :=
  { s with cmds := tput s.cmds (pageBase p) ⟨resultWord 0 0 tag, 0, true, false⟩ }

/-- The operation of a busy page has done its work: the result that LONG_OPERATION_END will write, and its events. -/
def finishLong (s : State) (p : Page) (code reason evt : Nat) : State :=
  match tfind s.cmds (pageBase p) with
  | some c => { s with cmds := tput s.cmds (pageBase p) ⟨resultWord code reason (c.result / 65536), evt, c.long, true⟩ }
  | none => s

/-- The eight arguments of a page's next command. -/
def arg (s : State) (p : Page) (n : Nat) : Nat := rd s p (hARG + 4 * n)

/-- Whether LAYOUT runs, when every access of a virtual function is foreign (R419). -/
def layoutRuns (s : State) : Bool := busy s (.tmt 8)

/-- Whether a page answers in the life-cycle state of the module (R383). -/
def answers (s : State) (p : Page) : Bool :=
  rd s .lcs lcs_STATE % 8 != 4 || p == .hub || p == .lcs || p == .fus

/-- An access of a function to a page that it does not own (R398). -/
def foreign (s : State) (fn : Nat) : State := raise (bump s (.pcx fn) pcx_FOREIGN 1) (.pcx fn) 4

/-- A write to a busy page (R408). -/
def rejectBusy (s : State) (fn off : Nat) : State :=
  raise (wr (bump (bump s .hub hub_REJECT_COUNT 1) (.pcx fn) pcx_REJECTS 1) .hub hub_REJECT_LAST (off + 2 ^ 26 * fn))
    .hub 1

/-- Whether the hub is up: rails in regulation, no reset held (R442). -/
def hubUp (s : State) : Bool := s.board.rails && !s.board.modReset && !s.board.perst

/-- Whether a virtual function exists (R393, R395); the physical function always does. -/
def present (s : State) (fn : Nat) : Bool := fn == 0 || (s.vfOn && decide (fn ≤ s.vfs))

/-- Whether a function's memory requests reach the module: the hub is up, the function exists and is not in D3hot (R393, R394). -/
def hears (s : State) (fn : Nat) : Bool := hubUp s && present s fn && !(getFunc s fn).d3

/-- A write of a function to a register of a page, judged by R398, R383 and R408 before its own effect `f`; a function that the module
does not hear has none. -/
def hostWrite (s : State) (fn : Nat) (p : Page) (o : Nat) (f : State → State) : State :=
  if !hears s fn then s
  else if !owns s fn p || (fn != 0 && layoutRuns s) then foreign s fn
  else if !answers s p then s
  else if busy s p then rejectBusy s fn (pageBase p + o)
  else f s

/-- A command written by a function to a page. -/
def hostCmd (s : State) (fn : Nat) (p : Page) (f : State → State) : State := hostWrite s fn p hCMD f

/-- The bit of EVT_STATUS that stands for CMD_DONE, by block; zero where there is none. -/
def doneBit : Page → Nat
  | .pgt _ => 4 | .tmt i => if i < 8 then 0x20 else 0 | .ckp _ => 0x20 | .kld i => if i < 8 then 0 else 8 | _ => 0

/-- A command that the page refuses (R405). -/
def reject (s : State) (p : Page) (reason tag : Nat) : State := endCmd s p 0x14 reason tag (doneBit p)

/-- A command that the page has done. -/
def done (s : State) (p : Page) (tag : Nat) : State := endCmd s p 0 0 tag (doneBit p)

/-! ## Error codes (R364 to R371) -/

/-- The page that counts and logs errors of a device physical address; none for host memory. -/
def eccPage (a : Nat) : Option Page :=
  if fld a 46 2 = 0 then some (.cor (fld a 43 3) (fld a 34 9))
  else if fld a 46 2 = 1 then some (.mem (fld a 43 3))
  else none

/-- SOURCE of a log entry for a device physical address (R371). -/
def eccSource (a : Nat) : Nat := if fld a 46 2 = 1 then 2 else if fld a 0 22 < 0x8000 then 1 else 0

/-- WORD of a log entry: the address in its memory, divided by 8. -/
def eccWord (a : Nat) : Nat := if fld a 46 2 = 1 then fld a 0 35 / 8 else fld a 0 22 / 8

/-- The newest entry of a page's log table, VALID bit included, as its two words. -/
def newestLog (s : State) (p : Page) : Nat × Nat :=
  let n := tget 0 s.logN (pageBase p)
  if n = 0 then (0, 0) else (rd s p (0x800 + 8 * ((n - 1) % 16)), rd s p (0x804 + 8 * ((n - 1) % 16)))

/-- Makes a log entry, unless the newest one already names the same source, word, syndrome and kind (R370, R371). -/
def logEntry (s : State) (p : Page) (source syn word : Nat) (ue scrub : Bool) : State :=
  let lo := 1 + 2 * b2n ue + 4 * b2n (ue && syn == 3) + 8 * b2n scrub + 16 * (source % 16) + 256 * (syn % 256)
    + 65536 * (word % 65536)
  let hi := fld word 16 16
  let nw := newestLog s p
  if nw.1 - nw.1 / 8 % 2 * 8 = lo - 8 * b2n scrub ∧ nw.2 % 65536 = hi then s
  else
    let n := tget 0 s.logN (pageBase p)
    let s := wr (wr s p (0x800 + 8 * (n % 16)) lo) p (0x804 + 8 * (n % 16)) (hi + 65536 * ((n + 1) % 65536))
    { s with logN := tset 0 s.logN (pageBase p) (n + 1) }

/-- Counts and logs one corrected (false) or uncorrectable (true) word. -/
def countErr (s : State) (p : Page) (source syn word : Nat) (ue scrub : Bool) : State :=
  logEntry (bump s p (if ue then hUE else hCE) 1) p source syn word ue scrub

/-- The number of ones of a byte. -/
def weight (x : Byte) : Nat := ((List.range 8).filter (fun i => x.toNat.testBit i)).length

/-- The bytes of odd weight from three on: what can be the column of a data bit (R362). -/
def oddBytes : List Byte := ((List.range 256).map (BitVec.ofNat 8)).filter (fun x => weight x % 2 == 1 && decide (1 < weight x))

/-- Distinct columns for data bits i, i + 1, ... out of those still free; which ones is internal to the module (log entry 6). -/
def pickColumns : Nat → Nat → List Byte → List Byte
  | 0, _, _ => []
  | m + 1, i, rest => let c := rest.getD (Config.columnChoice i % rest.length) 0; c :: pickColumns m (i + 1) (rest.erase c)

/-- The syndrome of an error of the single stored bit n: bits 0 to 63 are data, bits 64 to 71 the check byte. -/
def column (n : Nat) : Byte := if n < 64 then (pickColumns 64 0 oddBytes).getD n 0 else BitVec.ofNat 8 (2 ^ (n - 64))

/-- The stored bit that a syndrome names: that of a single-bit error is its column; any other is uncorrectable (R362, R364). -/
def syndBit (x : Byte) : Option Nat := if weight x % 2 = 1 then (List.range 72).find? (fun n => column n == x) else none

/-- Flips a data bit of the word at 8 × w; a check bit (64 to 71) lies outside the data. -/
def flipBit (s : State) (w n : Nat) : State :=
  if n < 64 then wrByte s (8 * w + n / 8) (rdByte s (8 * w + n / 8) ^^^ BitVec.ofNat 8 (2 ^ (n % 8))) else s

/-- Adds an entry to the field-repair log; an identical one is there already, or the log is full (R376, R378, R389). -/
def addRepair (s : State) (kind die site mac index hword : Nat) : State :=
  if s.repairs.any (fun r => r.kind == kind && r.die == die && r.site == site && r.mac == mac && r.index == index && r.hword == hword)
  then s
  else if 4096 ≤ s.repairs.length then raise s .fus 1
  else { s with repairs := s.repairs ++ [⟨kind, die, site, mac, index, hword, s.repairs.length % 65536, true⟩] }

/-- Row and bit column of bit n of a site's SRAM word by its address in the core (R375). -/
def macroRow (a : Nat) : Nat := a % 65536 / 8 / 16
def macroCol (a n : Nat) : Nat := 72 * (a % 65536 / 8 % 16) + n

/-- The place of a word of a die-level macro after all physical words (R375): the gather cache has macros 0 to 191, the task contexts
macros 192 to 215; none for a word of no macro. -/
def dieWord (p : Page) (source w : Nat) : Option Nat :=
  match p, source with
  | .gch d, 3 => some ((3 * 2 ^ 46 + d * 2 ^ 43) / 8 + w)
  | .tke d, 4 => some ((3 * 2 ^ 46 + d * 2 ^ 43) / 8 + 192 * 8192 + w)
  | _, _ => none

/-- Rows of the macro of a word in which a bit column has been corrected. -/
def badRows (s : State) (w col : Nat) : List Nat :=
  ((s.corr.filter (fun e => e.1 / 8192 == w / 8192
      && (match syndBit (BitVec.ofNat 8 e.2.1) with | some n => macroCol (8 * e.1) n == col | none => false))).map
    (fun e => macroRow (8 * e.1))).eraseDups

/-- The Koldo controller looks back on the corrections of a word (R378): the same syndrome in 3 distinct scrub passes, or 3
rows of a macro in one bit column. A die-level macro has SITE 0x1FF. -/
def noteCorrection (s : State) (w syn n : Nat) (scrub : Bool) : State :=
  let e := (w, syn, if scrub then s.passes else 0)
  let s := { s with corr := if s.corr.contains e then s.corr else s.corr ++ [e] }
  let a := 8 * w
  let d := fld a 43 3
  let thrice := decide (3 ≤ (s.corr.filter (fun e => e.1 == w && e.2.1 == syn && e.2.2 != 0)).length)
  if fld a 46 2 = 1 then (if thrice then addRepair s 5 d 0x1FF 0 0 (fld a 0 35 / 8) else s)
  else
    let site := if fld a 46 2 = 3 then 0x1FF else fld a 34 9
    let mac := (if fld a 46 2 = 3 then fld a 0 24 else fld a 0 22) / 65536
    let s := if thrice then addRepair s 1 d site mac (macroRow a) 0 else s
    if 3 ≤ (badRows s w (macroCol a n)).length then addRepair s 2 d site mac (macroCol a n) 0 else s

/-- One word with a nonzero syndrome is read (R364): corrected and written back, or uncorrectable (true). -/
def readBad (scrub : Bool) (e : Nat × Byte) (r : State × Bool) : State × Bool :=
  let s := r.1
  match eccPage (8 * e.1) with
  -- a mark on host memory stands for a PCIe error of the word (R204)
  | none => (s, r.2 || (syndBit e.2).isNone)
  | some p =>
    match syndBit e.2 with
    | some n =>
      let s := countErr s p (eccSource (8 * e.1)) e.2.toNat (eccWord (8 * e.1)) false scrub
      (noteCorrection (setSynd (flipBit s e.1 n) e.1 0) e.1 e.2.toNat n scrub, r.2)
    | none => (countErr s p (eccSource (8 * e.1)) e.2.toNat (eccWord (8 * e.1)) true scrub, true)

/-- The words of a range whose syndrome is not zero. -/
def badWords (s : State) (a n : Nat) : List (Nat × Byte) :=
  if n = 0 then [] else s.synd.filter (fun e => decide (a / 8 ≤ e.1 ∧ e.1 ≤ (a + n - 1) / 8))

/-- Reads a range through its check: corrections are made; true says that a word is uncorrectable (R364). -/
def checkRead (s : State) (a n : Nat) : State × Bool := (badWords s a n).foldl (fun r e => readBad false e r) (s, false)

/-- A word about to be written in part: a correctable error is corrected first, an uncorrectable one leaves the merged
word poisoned; a word written whole loses its error (R364). -/
def writeBad (a n : Nat) (e : Nat × Byte) (s : State) : State :=
  if a ≤ 8 * e.1 ∧ 8 * e.1 + 8 ≤ a + n then setSynd s e.1 0
  else
    let r := readBad false e (s, false)
    if r.2 then setSynd r.1 e.1 3 else r.1

/-- The row of a word's memory goes into the field-repair log: SRAM_ROW or HBM_ROW (R378). -/
def logRow (s : State) (w : Nat) : State :=
  let a := 8 * w
  if fld a 46 2 = 1 then addRepair s 5 (fld a 43 3) 0x1FF 0 0 (fld a 0 35 / 8)
  else addRepair s 1 (fld a 43 3) (fld a 34 9) (fld a 0 22 / 65536) (macroRow (fld a 0 22)) 0

/-- The words of a range whose cells fail for good (R378). -/
def hardWords (s : State) (a n : Nat) : Tab Byte :=
  if n = 0 then [] else s.hard.filter (fun e => decide (a / 8 ≤ e.1 ∧ e.1 ≤ (a + n - 1) / 8))

/-- Words of a range whose cells fail for good show their syndrome whatever is written; one written whole and still uncorrectable
has its row logged (R378). -/
def refail (a n : Nat) (s : State) : State :=
  each (hardWords s a n) (fun e s =>
    let s := setSynd s e.1 e.2
    if a ≤ 8 * e.1 ∧ 8 * e.1 + 8 ≤ a + n ∧ syndBit e.2 = none then logRow s e.1 else s) s

/-- Writes bytes through the check of their words. -/
def store (s : State) (a : Nat) (bs : List Byte) : State :=
  refail a bs.length (memWrite (each (badWords s a bs.length) (writeBad a bs.length) s) a bs)

/-- Stores bytes with the words of a list of indices (within the bytes) poisoned (R365). -/
def storePoisoned (s : State) (a : Nat) (bs : List Byte) (bad : List Nat) : State :=
  each bad (fun i s => setSynd s ((a + 8 * i) / 8) 3) (store s a bs)

/-- Reads the words that `r` selects of a structure that keeps its damaged words as syndromes: each correction is counted, logged
and drops its mark; true says that a word is uncorrectable (R363, R364). Word w is logged as base + w. -/
def readMarks (p : Page) (source base : Nat) (scrub : Bool) (r : Nat → Bool) (l : Tab Byte) (s : State) : State × Tab Byte × Bool :=
  l.foldl (fun q e =>
    if !r e.1 then (q.1, q.2.1 ++ [e], q.2.2)
    else match syndBit e.2 with
    | some n =>
      let s := countErr q.1 p source e.2.toNat (base + e.1) false scrub
      (match dieWord p source (base + e.1) with | some w => noteCorrection s w e.2.toNat n scrub | none => s, q.2.1, q.2.2)
    | none => (countErr q.1 p source e.2.toNat (base + e.1) true scrub, q.2.1 ++ [e], true)) (s, [], false)

/-- A unit of the hub takes data out of the hub buffers through their check (R363): which of the damaged words it meets is open
(log entry 47), and a buffer is written anew for the next data; true: a word is uncorrectable. -/
def hubRead (s : State) : State × Bool :=
  if s.hubErr.isEmpty then (s, false)
  else
    let q := drawNat s
    let r := readMarks .hub 7 0 false (fun w => q.1.testBit w) s.hubErr q.2
    ({ r.1 with hubErr := s.hubErr.filter (fun e => !q.1.testBit e.1) }, r.2.2)

/-- The words of n bytes that come bad out of a hub buffer: any one, where a word of the buffer is uncorrectable. -/
def hubBad (s : State) (n : Nat) : State × List Nat :=
  let q := hubRead s
  if q.2 then let x := drawNat q.1; (x.2, [x.1 % max 1 (cdiv n 8)]) else (q.1, [])

/-- The indices of the words of a range that hold an uncorrectable error. -/
def ueWords (s : State) (a n : Nat) : List Nat :=
  ((badWords s a n).filter (fun e => (syndBit e.2).isNone)).map (fun e => e.1 - a / 8)

/-! ## Halts (R258) and sample faults (R146, R178, R329, R337) -/

/-- The image die of a die: its place in its partition. -/
def imageDie (s : State) (d : Nat) : Nat := d % diesPer s

/-- A halt (reason 4) or job switch (3) while a checkpoint is ARMED ends CKPT_BEGIN and discards the captures (R347); the
slot being written has FAILED (log entry 42). -/
def ckpArmedEnds (s : State) (k reason : Nat) : State :=
  if fld (rd s (.ckp k) ckp_STATE) 0 3 = 1 then
    let x := getSlot s k
    let s := setSlot s k { x with captured := [], ck := { x.ck with caps := [] } }
    let s := wrFld s (.ckp k) (ckp_SLOT_n_STATE + 16 * x.ck.slot) 0 3 4
    finishLong (wrFld s (.ckp k) ckp_STATE 0 3 0) (.ckp k) 0x14 reason 0x22
  else s

/-- Marks the receivers of a partition as paused or not (R138, R157). -/
def pauseDies (s : State) (k : Nat) (b : Bool) : State :=
  each (diesOf s k) (fun d s => wrFld s (.tckR d) tck_RX_STATE 9 1 (b2n b)) s

/-- The next open number, by its index. -/
def drawCount (s : State) : Count × State := (.free s.free, { s with free := s.free + 1 })

/-- The count of a tick stops, at a number that the machine's timing gives where none is named (R136, R138). -/
def stopCount (s : State) (k : Nat) (n : Option Nat) : State :=
  let q : Count × State := match n with | some n => (.known n, s) | none => drawCount s
  let x := getSlot s k
  setSlot q.2 k { x with tick := { x.tick with count := q.1 } }

/-- Whether a slot's generator counts: RUN or DRAIN, and no die has paused (R138). -/
def counting (s : State) (k : Nat) : Bool := (phase s k == 3 || phase s k == 4) && (getSlot s k).tick.paused.isEmpty

/-- What a halt shows: HALT_INFO, PHASE HALTED, the event, and every die stopped (R258). -/
def showHalt (s : State) (k cause src : Nat) (res : Bool) (die : Nat) : State :=
  let s := wr s (.tmt k) tmt_HALT_INFO (cause + 256 * src + 1024 * b2n res + 4096 * die)
  let s := pauseDies (setPhase s k 5) k true
  let s := ckpArmedEnds s k 4
  raise (if src = 0 then last s (.tmt k) cause else s) (.tmt k) 1

/-- A partition halts with its state preserved, and the count of its tick stops (R138, R258). A second cause leaves HALT_INFO as it
is (DEDUCED, log entry 8). -/
def haltSlot (s : State) (k cause src : Nat) (res : Bool) (die : Nat) : State :=
  if phase s k = 5 then s else showHalt (if counting s k then stopCount s k none else s) k cause src res die

/-- A window-level fault halts the partition and cannot be resumed (R329). -/
def windowFault (s : State) (k cause die : Nat) : State :=
  let s := bump s (.ckp k) ckp_WINDOW_FAULTS 1
  raise (haltSlot s k cause 0 false die) (.ckp k) 4

/-- The sample modulus of a slot (R332). -/
def wrapOf (s : State) (k : Nat) : Nat := rd s (.ckp k) ckp_SAMPLE_WRAP

/-- Whether sample a comes before sample b in the order of R332. -/
def earlier (m a b : Nat) : Bool := a != b && decide (2 * ((b + m - a) % m) < m)

/-- The hub counts one sample fault (R337): CKP registers, the rewind that falls due at the next tick boundary, and the
replay limit. `core` is 0x1FF where the cause names none. -/
def sampleFault (s : State) (k sample code core die : Nat) : State :=
  let x := getSlot s k
  let t := x.tick
  let n := tget 0 t.faultCount sample + 1
  let first := if t.inj.any (·.2 == sample) then
      (match t.rewindTo with | some r => if earlier (wrapOf s k) r sample then some r else some sample | none => some sample)
    else t.rewindTo
  let s := setSlot s k { x with tick := { t with faultCount := tput t.faultCount sample n, rewindTo := first } }
  let s := wr s (.ckp k) ckp_FAULT_SAMPLE sample
  let s := wr s (.ckp k) ckp_FAULT_INFO (code + 256 * core + 2 ^ 17 * die + 2 ^ 20 * min n 255)
  let s := bump s (.ckp k) ckp_SAMPLE_FAULTS 1
  if rd s (.ckp k) ckp_REPLAY_LIMIT % 256 ≤ n then windowFault s k code die else s

/-! ## Tokens -/

/-- This module's number (R296). -/
def moduleNo (s : State) : Nat := rd s (.fld 16) fld_MODULE % 2 ^ 18

/-- An endpoint of this module. -/
def here (s : State) (d core : Nat) : End := ⟨core, d, moduleNo s⟩

/-- A header-only engine token of a kind (R134, R176, R177, R180). -/
def engineToken (s : State) (k kind tag : Nat) (src dest : End) (info sample value : Nat) : Token :=
  ⟨0, kind, epochOf s k, 0, 0, false, tag, dest, src, 0, info, sample, value, []⟩

/-- A unit refuses a token of another epoch (R148): counted in the generator's page with the event. -/
def epochRefused (s : State) (k : Nat) : State :=
  condition (bump s (.tckG k) tck_EPOCH_REFUSED 1) (.tckG k) 2 0x20

end Sys2Proof.Machine
end

