-- ==== Sys2Proof/Machine/Operands.lean ====
section
/-! DEFINITION. Machine/Operands.lean: the operand forms of core instructions (R78 to R93): fields and their legality,
register specifiers, lane masks, core addresses with shadow regions, ready flags and the ranges of queued array work. -/
namespace Sys2Proof.Machine

/-! ## Instruction words -/

/-- The opcode of an instruction word (R83). -/
def opcodeOf (w : Nat) : Nat := fld w 56 8

/-- Whether an opcode is assigned (R84). -/
def assigned (op : Nat) : Bool :=
  (1 ≤ op && op ≤ 0x0D) || (0x10 ≤ op && op ≤ 0x1A) || (0x20 ≤ op && op ≤ 0x24) || (0x30 ≤ op && op ≤ 0x32)
    || (0x40 ≤ op && op ≤ 0x43) || op == 0x50 || op == 0x51

/-- A specifier of an s or a register. -/
def isSA (r : Nat) : Bool := decide (r < 24)
/-- A specifier of an s register. -/
def isS (r : Nat) : Bool := decide (r < 16)
/-- A specifier of a v register. -/
def isV (r : Nat) : Bool := decide (24 ≤ r ∧ r < 32)
/-- A specifier of a v register or of a broadcast s register. -/
def isVS (r : Nat) : Bool := isV r || isS r

/-- Format S (R85). -/
def legalS (w : Nat) : Bool :=
  let op := opcodeOf w
  isSA (fld w 51 5) && isSA (fld w 46 5) && isSA (fld w 41 5) && fld w 32 5 == 0
    && (if op = 1 then w.testBit 40 && fld w 46 5 == 0 else true)
    && (if w.testBit 40 then fld w 41 5 == 0 else true)
    && (if op = 8 then decide (fld w 37 3 ≤ 5) else fld w 37 3 == 0)

/-- Format B (R86). -/
def legalB (w : Nat) : Bool :=
  let op := opcodeOf w
  fld w 51 5 == 0 && fld w 16 30 == 0
    && (if op = 0x0A ∨ op = 0x0B then isSA (fld w 46 5) else fld w 46 5 == 0)
    && (if op = 0x0D then fld w 0 16 == 0 else true)

/-- Format M (R88). -/
def legalM (w : Nat) : Bool :=
  fld w 22 20 == 0 && fld w 46 2 != 3 && (isV (fld w 51 5) || (fld w 46 2 == 0 && fld w 42 4 == 0))

/-- Format V (R87). -/
def legalV (w : Nat) : Bool :=
  let op := opcodeOf w
  (if op = 0x16 then isS (fld w 51 5) else isV (fld w 51 5)) && isV (fld w 46 5) && fld w 0 28 == 0
    && (if op = 0x12 ∨ op = 0x13 ∨ op = 0x14 ∨ op = 0x15 then isVS (fld w 41 5) else fld w 41 5 == 0)
    && (if op = 0x15 then isVS (fld w 36 5) else fld w 36 5 == 0)
    && (if op = 0x16 then true else fld w 28 2 == 0)
    && (if fld w 34 2 = 3 then op == 0x12 || op == 0x13 || op == 0x14 || op == 0x16 else true)

/-- Format C (R89). -/
def legalC (w : Nat) : Bool :=
  let f := fld w 41 4
  isV (fld w 51 5) && fld w 0 30 == 0 && (fmtVcvt f || f == 15)
    && (if fmtBlocked f || f == 15 then true else fld w 45 3 == 0)
    && (if w.testBit 39 then isS (fld w 34 5) else true)

/-- Largest Kv of an array format code (R48, R90). -/
def kvMax (f : Nat) : Nat := if f = 15 then 64 else chunkLen (fmtClass f)

/-- Format AL (R90). -/
def legalAL (w : Nat) : Bool :=
  let f := fld w 46 4
  (fmtArray f || f == 15) && decide (fld w 34 6 + 1 ≤ kvMax f) && fld w 0 8 == 0

/-- Format AS (R90). -/
def legalAS (w : Nat) : Bool :=
  let f := fld w 46 4
  (fmtArray f || f == 15) && decide (1 ≤ fld w 37 9 ∧ fld w 37 9 ≤ 256) && decide (fld w 26 6 + 1 ≤ kvMax f)
    && (if w.testBit 33 then fld w 50 6 == 0 else true)

/-- Format AO (R90). -/
def legalAO (w : Nat) : Bool :=
  fld w 0 23 == 0
    && (if w.testBit 38 then fld w 36 2 != 3 && fld w 32 4 == 0 && fld w 29 3 == 0
        else fld w 36 2 == 0 && decide (1 ≤ fld w 32 4 ∧ fld w 32 4 ≤ 12)
          && (if fld w 32 4 = 1 then fld w 29 3 == 0 else true))

/-- Format AD (R90). -/
def legalAD (w : Nat) : Bool :=
  if opcodeOf w = 0x24 then fld w 0 53 == 0
  else fld w 34 16 % 64 == 0 && fld w 31 2 != 3 && (if w.testBit 30 then fld w 31 2 == 0 else !w.testBit 24)
    && (if w.testBit 29 then true else fld w 25 4 == 0) && fld w 0 24 == 0

/-- Format TS (R91). -/
def legalTS (w : Nat) : Bool :=
  isS (fld w 51 5) && decide (fld w 41 7 ≤ 64) && isS (fld w 30 5) && isS (fld w 25 5) && fld w 0 9 == 0
    && (if w.testBit 40 then fld w 41 7 == 0 else !w.testBit 9)

/-- Format TR (R91). -/
def legalTR (w : Nat) : Bool :=
  !w.testBit 50 && fld w 0 40 == 0
    && (if opcodeOf w = 0x31 then isS (fld w 51 5) && isS (fld w 40 5) else fld w 51 2 == 0 && fld w 40 5 == 0)

/-- Format K (R92). -/
def legalK (w : Nat) : Bool :=
  let op := opcodeOf w
  let reg := fld w 51 5
  let kind := fld w 48 2
  !w.testBit 50 && fld w 24 11 == 0
    && (if op = 0x40 then isS reg && kind == 0 && fld w 35 13 == 0 && fld w 0 16 == 0
        else if op = 0x41 then
          reg == 0 && fld w 16 8 == 0
            && (if kind = 0 then fld w 35 8 == 0 && fld w 0 16 != 0
                else kind == 1 && fld w 43 5 == 0 && isS (fld w 35 5) && fld w 0 16 == 0)
        else if op = 0x42 then isS reg && kind == 0 && fld w 35 8 == 0 && fld w 16 8 == 0 && fld w 0 16 != 0
        else reg == 0 && fld w 35 13 == 0 && fld w 0 24 == 0)

/-- Whether a word is legal as far as its own bits say (R83 to R93); TASK and CLAIM are also judged by the attempt. -/
def wordLegal (w : Nat) : Bool :=
  let op := opcodeOf w
  if !assigned op then false
  else if op ≤ 0x08 then legalS w
  else if op ≤ 0x0D then legalB w
  else if op ≤ 0x11 then legalM w
  else if op = 0x17 then legalC w
  else if op ≤ 0x1A then legalV w
  else if op = 0x20 then legalAL w
  else if op = 0x21 then legalAS w
  else if op = 0x22 then legalAO w
  else if op ≤ 0x24 then legalAD w
  else if op = 0x30 then legalTS w
  else if op ≤ 0x32 then legalTR w
  else if op ≤ 0x43 then legalK w
  else fld w 0 56 == 0

/-- Whether a word is legal only in a NARROW attempt: it names the format TASK (R90). -/
def namesTask (w : Nat) : Bool :=
  let op := opcodeOf w
  (op == 0x17 && fld w 41 4 == 15) || ((op == 0x20 || op == 0x21) && fld w 46 4 == 15)

/-! ## Registers (R78) -/

/-- The value of an s or a register, by specifier. -/
def regVal (c : Core) (r : Nat) : W32 :=
  if r = 0 then 0 else if r < 16 then tget 0 c.s r else if r < 24 then tget 0 c.a (r - 16) else 0

/-- Writes an s or a register: s0 discards the write, an a register keeps bits [21:0]. -/
def setReg (c : Core) (r : Nat) (v : W32) : Core :=
  let c := { c with parity := tset false c.parity r false }
  if r = 0 then c
  else if r < 16 then { c with s := tset 0 c.s r v }
  else if r < 24 then { c with a := tset 0 c.a (r - 16) (v &&& 0x3FFFFF#32) }
  else c

/-- A v register: 64 lanes. -/
def zeroVec : List W32 := List.replicate 64 0

def vecVal (c : Core) (r : Nat) : List W32 := tget zeroVec c.v (r - 24)

def setVec (c : Core) (r : Nat) (v : List W32) : Core :=
  { c with v := tset zeroVec c.v (r - 24) v, parity := tset false c.parity r false }

/-- A vector source: a v register, or an s register broadcast to all lanes (R87). -/
def vecSrc (c : Core) (r : Nat) : List W32 := if r < 16 then List.replicate 64 (regVal c r) else vecVal c r

/-- Address register n as a number. -/
def areg (c : Core) (n : Nat) : Nat := (tget 0 c.a n).toNat % 2 ^ 22

/-- The number of enabled lanes that a MASK field gives (R87): lanes 0 to that number - 1. -/
def maskLanes (c : Core) (m : Nat) : Nat := if m = 0 then 64 else min (regVal c m).toNat 64

/-- Lanes of `new` below the mask, lanes of `old` at and above it. -/
def mergeLanes (n : Nat) (new old : List W32) : List W32 := new.take n ++ old.drop n

/-! ## Core addresses (R80, R82, R173) -/

/-- A range of data SRAM. -/
def inData (a n : Nat) : Bool := decide (0x8000 ≤ a ∧ a + n ≤ 0x280000)

/-- Whether every slab of a range is ready (R82). -/
def rangeReady (c : Core) (a n : Nat) : Bool :=
  if n = 0 then true else c.busy.all (fun e => !(decide (a / 1024 ≤ e.1 ∧ e.1 ≤ (a + n - 1) / 1024)))

/-- Clears or sets the ready flags of a range. -/
def markBusy (c : Core) (a n : Nat) (b : Bool) : Core :=
  if n = 0 then c
  else { c with busy := iter ((a + n - 1) / 1024 - a / 1024 + 1) (fun i t => tset false t (a / 1024 + i) b) c.busy }

/-- The SHADOW region whose logical range holds an address, by table entry. -/
def shadowOf (c : Core) (a : Nat) : Option (Nat × Shadow) :=
  (c.shadows.find? (fun e => e.2.kind == 1 && decide (e.2.base ≤ a / 1024 ∧ a / 1024 ≤ e.2.base + e.2.slabsM1)))

/-- Whether a byte lies in the upper half of a SHADOW region, which no unit can reach by address. -/
def shadowUpper (c : Core) (a : Nat) : Bool :=
  c.shadows.any (fun e => e.2.kind == 1 &&
    decide (e.2.base + e.2.slabsM1 < a / 1024 ∧ a / 1024 ≤ e.2.base + 2 * e.2.slabsM1 + 1))

/-- Where an address is stored: the half of its slab that SEL chooses, or the other half for the attempt (a context)
that has written the slab (R173). -/
def place (c : Core) (ctx : Option Nat) (a : Nat) : Nat :=
  match shadowOf c a with
  | none => a
  | some (_, r) =>
    let j := a / 1024 - r.base
    let own := r.written.testBit j && r.holder.isSome && r.holder == ctx
    if xor (r.sel.testBit j) own then a + 1024 * (r.slabsM1 + 1) else a

/-- The pieces of a range, one per slab at most, as stored addresses and lengths. -/
def pieces (c : Core) (ctx : Option Nat) : Nat → Nat → Nat → List (Nat × Nat)
  | 0, _, _ => []
  | fuel + 1, a, n =>
    if n = 0 then []
    else
      let m := min n (1024 - a % 1024)
      (place c ctx a, m) :: pieces c ctx fuel (a + m) (n - m)

/-- The stored pieces of a whole range. -/
def stored (c : Core) (ctx : Option Nat) (a n : Nat) : List (Nat × Nat) := pieces c ctx (n / 1024 + 2) a n

/-- The bytes of a core range as the attempt of a context, or any other unit (none), reads them. -/
def coreBytes (s : State) (k : Nat) (ctx : Option Nat) (a n : Nat) : List Byte :=
  (stored (getCore s k) ctx a n).flatMap (fun p => memRead s (coreAddr k p.1) p.2)

/-- Reads a core range through its check: the state with corrections made, and whether a word is uncorrectable. -/
def coreCheck (s : State) (k : Nat) (ctx : Option Nat) (a n : Nat) : State × Bool :=
  (stored (getCore s k) ctx a n).foldl
    (fun r p => let q := checkRead r.1 (coreAddr k p.1) p.2; (q.1, r.2 || q.2)) (s, false)

/-- Stores pieces of a byte string one after the other. -/
def storePieces (k : Nat) : List (Nat × Nat) → List Byte → State → State
  | [], _, s => s
  | p :: ps, bs, s => storePieces k ps (bs.drop p.2) (store s (coreAddr k p.1) (bs.take p.2))

/-- Writes bytes to a core range as stored for the attempt of a context, or for any other unit (none). -/
def coreStore (s : State) (k : Nat) (ctx : Option Nat) (a : Nat) (bs : List Byte) : State :=
  storePieces k (stored (getCore s k) ctx a bs.length) bs s

/-! ## Spill regions, terraces and where a program may write (R66, R172, R173, R462) -/

/-- The spill region of an open group, as first address and length (R66). -/
def spillOf (g : Group) : Nat × Nat := (g.spill, if g.seq then 0 else (g.lv - 1) * (g.nt + 6) * 256)

/-- The open groups of a core. -/
def openGroups (c : Core) : List Group := c.groups.filterMap (fun e => e.2)

/-- Whether a byte lies in the spill region of an open group. -/
def inSpill (c : Core) (a : Nat) : Bool :=
  (openGroups c).any (fun g => decide ((spillOf g).1 ≤ a ∧ a < (spillOf g).1 + (spillOf g).2))

/-- Whether a byte lies in the terrace ring. -/
def inRing (c : Core) (a : Nat) : Bool := decide (c.terr.base ≤ a ∧ a < c.terr.base + c.terr.size)

/-- The held terrace entry of a sample. -/
def entryOf (c : Core) (sample : Nat) : Option TEntry := c.terr.entries.find? (fun e => e.sample == sample)

/-- The TERRACE word: the start of the entry of a release (R462), by tick class and sample. -/
def terraceStart (c : Core) (cls sample : Nat) : Nat :=
  if c.terr.size = 0 then 0
  else if cls = 0 then
    match entryOf c sample with
    | some e => e.start
    | none => if c.terr.base + c.terr.size < c.terr.head + c.terr.stash then c.terr.base else c.terr.head
  else if cls = 1 then match entryOf c sample with | some e => e.start | none => 0
  else 0

/-- Whether a byte lies in the running task's own terrace entry (R462). -/
def inEntry (c : Core) (r : Run) (a : Nat) : Bool :=
  if r.cls = 0 then
    let st := terraceStart c 0 r.sample
    decide (st ≤ a ∧ a < st + c.terr.stash)
  else if r.cls = 1 then
    match entryOf c r.sample with
    | some e => decide (e.start ≤ a ∧ a < e.stop)
    | none => false
  else false

/-- Whether a program may write a byte (R66, R80, R172, R173, R462). -/
def mayWrite (c : Core) (r : Run) (a : Nat) : Bool :=
  !shadowUpper c a && !inSpill c a && (!inRing c a || inEntry c r a)
    && (!r.speculative || inEntry c r a ||
      (match shadowOf c a with
       | some (i, x) => r.shadow.testBit i && (x.holder.isNone || x.holder == some r.ctx)
       | none => false))

/-- Whether a program may write a range. -/
def mayWriteRange (c : Core) (r : Run) (a n : Nat) : Bool := inData a n && (List.range n).all (fun i => mayWrite c r (a + i))

/-- Whether a program may read a range (R80, R173). -/
def mayReadRange (c : Core) (a n : Nat) : Bool := inData a n && (List.range n).all (fun i => !shadowUpper c (a + i))

/-- Copies stored bytes, read through their check; uncorrectable words become poisoned words (R364, R365). -/
def copyStored (s : State) (src dst n : Nat) : State :=
  let q := checkRead s src n
  storePoisoned q.1 dst (memRead q.1 src n) (ueWords q.1 src n)

/-- Before a speculative write to slab j of a region: the slab's current half is copied to the other, WRITTEN is set and
the attempt holds the region (R173). -/
def openSlab (k ctx i j : Nat) (s : State) : State :=
  let c := getCore s k
  let r := tget Shadow.none c.shadows i
  if r.written.testBit j then s
  else
    let lo := coreAddr k (1024 * (r.base + j))
    let hi := coreAddr k (1024 * (r.base + j) + 1024 * (r.slabsM1 + 1))
    let s := if r.sel.testBit j then copyStored s hi lo 1024 else copyStored s lo hi 1024
    let c := getCore s k
    setCore s k { c with shadows := tput c.shadows i { r with written := r.written ||| 2 ^ j, holder := some ctx } }

/-- Opens every slab of a shadow region that a speculative write touches. -/
def openSlabs (k : Nat) (r : Run) (a n : Nat) (s : State) : State :=
  if r.speculative ∧ 0 < n then
    iter ((a + n - 1) / 1024 - a / 1024 + 1)
      (fun i s => match shadowOf (getCore s k) (1024 * (a / 1024 + i)) with
        | some (e, x) => openSlab k r.ctx e (a / 1024 + i - x.base) s
        | none => s) s
  else s

/-- A program write to data SRAM that has been judged: shadow slabs opened, bytes stored, the highest ring byte of the
attempt kept (R173, R462). -/
def progStore (s : State) (k : Nat) (r : Run) (a : Nat) (bs : List Byte) : State :=
  let s := coreStore (openSlabs k r a bs.length s) k (some r.ctx) a bs
  let c := getCore s k
  if !bs.isEmpty && inRing c a then
    setCore s k { c with highs := tset 0 c.highs r.ctx (max (tget 0 c.highs r.ctx) (a + bs.length)) }
  else s

/-! ## Ranges of queued array work (R53, R54, R95) -/

/-- Two ranges share a byte. -/
def overlap (x y : Nat × Nat) : Bool := decide (0 < x.2 ∧ 0 < y.2 ∧ x.1 < y.1 + y.2 ∧ y.1 < x.1 + x.2)

/-- Element bytes and scale bytes of one vector of Kv elements (R50). -/
def vecBytes (f kv : Nat) : Nat × Nat :=
  (cdiv (kv * fmtBits f) 8, if fmtBlocked f then (if kv ≤ 32 then 1 else 2) else 0)

/-- Ranges of C vectors at a base and stride. -/
def strided (n base stride len : Nat) : List (Nat × Nat) :=
  if len = 0 then [] else (List.range n).map (fun i => ((base + i * stride) % 2 ^ 22, len))

/-- The source ranges of an array instruction whose format is resolved to `f`. -/
def readRanges (op : ArrOp) (f : Nat) : List (Nat × Nat) :=
  match op with
  | .latch ea sa _ c kv st ss => strided c ea st (vecBytes f kv).1 ++ strided c sa ss (vecBytes f kv).2
  | .stream ea sa _ n _ reuse _ kv st ss =>
    if reuse then [] else strided n ea st (vecBytes f kv).1 ++ strided n sa ss (vecBytes f kv).2
  | _ => []

/-- The format that an operand code stands for in an attempt (R41). -/
def fmtNow (code now : Nat) : Nat := if code = 15 then now else code

/-- The ranges that a queued entry has still to read: a LATCH, or a STREAM LOAD whose fill has not been done. -/
def pendingReads (e : QEntry) : List (Nat × Nat) :=
  match e.op with
  | .latch _ _ f _ _ _ _ => readRanges e.op (fmtNow f e.now)
  | .stream _ _ f _ _ _ _ _ _ _ => if e.fill.isSome then [] else readRanges e.op (fmtNow f e.now)
  | _ => []

/-- Extent (Nt, C) of a group as a DRAIN in the queue will find it: the last OPEN ahead of it, or the open group. -/
def groupExtent (c : Core) (ahead : List QEntry) (g : Nat) : Nat × Nat :=
  let own := match tget none c.groups g with | some x => (x.nt, x.c) | none => (0, 0)
  ahead.foldl (fun x e => match e.op with
    | .opn g' nt cc _ _ _ _ _ _ => if g' = g then (nt, cc) else x
    | _ => x) own

/-- Bytes of one output entry (R71). -/
def ofmtBytes (f : Nat) : Nat := if f = 0 then 4 else 2

/-- The destination ranges of a DRAIN over an extent. -/
def drainRanges (base stride : Nat) (row : Bool) (ofmt : Nat) (x : Nat × Nat) : List (Nat × Nat) :=
  if row then strided x.1 base stride (x.2 * ofmtBytes ofmt) else strided x.2 base stride (x.1 * ofmtBytes ofmt)

/-- The ranges that the DRAINs of the queue have still to write, each with the entries ahead of it. -/
def pendingWritesFrom (c : Core) : List QEntry → List QEntry → List (Nat × Nat)
  | _, [] => []
  | ahead, e :: es =>
    (match e.op with
     | .drain g base st row f _ _ _ => drainRanges base st row f (groupExtent c ahead g)
     | _ => []) ++ pendingWritesFrom c (ahead ++ [e]) es

def pendingWrites (c : Core) : List (Nat × Nat) := pendingWritesFrom c [] c.queue

/-- Whether a range meets a list of ranges. -/
def meets (x : Nat × Nat) (l : List (Nat × Nat)) : Bool := l.any (overlap x)

/-- R95 case 3: a read of a range into which a queued DRAIN still has to write. -/
def readBlocked (c : Core) (a n : Nat) : Bool := meets (a, n) (pendingWrites c)

/-- R95 case 4: a write of a range that the queue will read or write. -/
def writeBlocked (c : Core) (a n : Nat) : Bool :=
  meets (a, n) (pendingWrites c) || meets (a, n) (c.queue.flatMap pendingReads)

/-! ## Deferral and the DEFER ring (R106, R173, R175, R333) -/

/-- The DEFER region of a core: base and bytes, none of it where the core has no region. -/
def ringArea (c : Core) : Nat × Nat :=
  match c.shadows.find? (fun e => e.2.kind == 2) with | some e => (1024 * e.2.base, 1024 * (e.2.slabsM1 + 1)) | none => (0, 0)

/-- The deferred effects that a core holds, released ones that wait first. -/
def deferHeld (c : Core) : List (Nat × Deferred) := c.releasing ++ c.deferred

/-- The ring bytes of a deferred effect: offset and number. -/
def deferSpan (e : Deferred) : Nat × Nat :=
  match e with | .send t a => (a, 32 * t.length) | .steer _ a => (a, 32) | .held a g => (a, 4 * g.length) | _ => (0, 0)

/-- Whether two spans of a ring of z bytes have no byte in common. -/
def ringClear (z : Nat) (x y : Nat × Nat) : Bool :=
  x.2 == 0 || y.2 == 0 || (decide (y.2 ≤ (x.1 + z - y.1) % z) && decide (x.2 ≤ (y.1 + z - x.1) % z))

/-- Where n more bytes go in the ring: behind the newest span that leaves room for them (log entry 72); none: it is full. -/
def ringAt (c : Core) (n : Nat) : Option Nat :=
  let z := (ringArea c).2
  let l := (deferHeld c).map (fun e => deferSpan e.2)
  if z < n then none
  else ((l.map (fun (x : Nat × Nat) => (x.1 + x.2) % z)).reverse ++ [0]).find? (fun a => l.all (ringClear z (a, n)))

/-- Whether the list of 64 entries and the ring have room for an effect with n bytes. -/
def deferRoom (c : Core) (n : Nat) : Bool := decide ((deferHeld c).length < 64) && (n == 0 || (ringAt c n).isSome)

/-- The core addresses of a span of the ring, in two parts where it wraps. -/
def ringParts (c : Core) (a n : Nat) : List (Nat × Nat) :=
  let r := ringArea c
  let m := min n (r.2 - a)
  [(r.1 + a, m), (r.1, n - m)]

/-- A deferred effect of context i enters the list of core k, its bytes the ring. -/
def deferPut (s : State) (k : Nat) (c : Core) (i : Nat) (bs : List Byte) (e : Nat → Deferred) : State :=
  let a := (ringAt c bs.length).getD 0
  setCore (storePieces k (ringParts c a bs.length) bs s) k { c with deferred := c.deferred ++ [(i, e a)] }

/-- Reads a span of the ring through its check: the bytes, and whether a word is uncorrectable. -/
def ringRead (s : State) (k a n : Nat) : State × List Byte × Bool :=
  let ps := ringParts (getCore s k) a n
  let q := ps.foldl (fun (r : State × Bool) p => let x := checkRead r.1 (coreAddr k p.1) p.2; (x.1, r.2 || x.2)) (s, false)
  (q.1, ps.flatMap (fun p => memRead q.1 (coreAddr k p.1) p.2), q.2)

/-- A rule from its descriptor (R99). -/
def ruleFrom (bs : List Byte) : Rule :=
  { enable := (bytesAt bs 0 1).testBit 0, join := (bytesAt bs 0 1).testBit 1, slotsM1 := bytesAt bs 1 1 % 16,
    sem := bytesAt bs 2 1 % 32, semen := (bytesAt bs 2 1).testBit 7, hold := bytesAt bs 4 4, size := bytesAt bs 8 4,
    arm0 := bytesAt bs 12 4, arm1 := bytesAt bs 16 4 }

end Sys2Proof.Machine
end

