-- ==== Sys2Proof/Machine/Flags.lean ====
section
/-! DEFINITION. Machine/Flags.lean: the conditions and counts that instructions compute: CMP, the counts SAT, NZ and UF
with the tests of R43, maximum magnitudes (R38) and the ladder (R40). -/
namespace Sys2Proof.Machine

/-- The condition of a CMP (R85): 0 EQ, 1 NE, 2 LT, 3 GE signed, 4 LTU, 5 GEU. -/
def cmpHolds (cond : Nat) (a b : W32) : Bool :=
  match cond with
  | 0 => a == b
  | 1 => a != b
  | 2 => decide (a.toInt < b.toInt)
  | 3 => decide (b.toInt ≤ a.toInt)
  | 4 => decide (a.toNat < b.toNat)
  | 5 => decide (b.toNat ≤ a.toNat)
  | _ => false

/-- Words A and B of a format class of a die (R46). -/
def classA (s : State) (d n : Nat) : Nat := rd s (.tke d) (tke_FMT_CLASS_n_A + 8 * n)
def classB (s : State) (d n : Nat) : Nat := rd s (.tke d) (tke_FMT_CLASS_n_B + 8 * n)

/-- START, CEILING, CHK_ESC and SAT_MAX of a class word (R46). -/
def clsStart (a : Nat) : Nat := fld a 0 4
def clsCeiling (a : Nat) : Nat := fld a 4 4
def clsChkEsc (a : Nat) : Bool := a.testBit 8
def clsSatMax (a : Nat) : Nat := fld a 16 16

/-- Whether a format code is on the ladder J2, J3, E2M1, E4M3, and its place there (R40). -/
def ladder (f : Nat) : Option Nat :=
  match f with | 9 => some 0 | 8 => some 1 | 6 => some 2 | 2 => some 3 | _ => none

/-- The format one rung wider (R40). -/
def wider (f : Nat) : Nat := match f with | 9 => 8 | 8 => 6 | 6 => 2 | f => f

/-- The first test of R43. -/
def satTrips (a sat : Nat) : Bool := clsSatMax a != 0xFFFF && decide (clsSatMax a < sat)

/-- The third test of R43. -/
def ufTrips (b nz uf : Nat) : Bool :=
  fld b 0 16 != 0xFFFF && decide (fld b 16 16 ≤ nz ∧ fld b 0 16 * nz < uf * 65536)

/-- A 32-bit saturating sum of counts (R37). -/
def satCount (a b : Nat) : Nat := min (a + b) 0xFFFFFFFF

/-- Counts added to a running attempt (R37). -/
def addCounts (r : Run) (sat nz uf : Nat) : Run :=
  { r with sat := satCount r.sat sat, nz := satCount r.nz nz, uf := satCount r.uf uf }

/-- A slot's value after a tile's amax, or a shadow, is merged into it (R38, R39). -/
def amaxMerge (slot v : W32) : W32 :=
  if f32IsNaN slot then slot
  else if f32IsNaN v then f32NaN
  else if f32NumLt slot v then v
  else slot

/-- The maximum magnitude of entries (R38): NaN if one is NaN, +0 for none. -/
def tileAmax (l : List W32) : W32 :=
  l.foldl (fun m x => if f32IsNaN m || f32IsNaN x then f32NaN else if f32NumLt m (f32Abs x) then f32Abs x else m) 0

/-- A semaphore after an addition, and whether it saturated (R103). -/
def semSum (v n : Nat) : Nat × Bool := if v + n ≤ 0xFFFF then (v + n, false) else (0xFFFF, true)

/-- Adds to a semaphore of a core, with the count of saturated additions. -/
def semAdd (s : State) (k n cnt : Nat) : State :=
  let c := getCore s k
  let r := semSum (tget 0 c.sem n) cnt
  let s := setCore s k { c with sem := tset 0 c.sem n r.1 }
  if r.2 then bump s (corPage k) cor_SEM_SAT 1 else s

end Sys2Proof.Machine
end

