-- ==== Sys2Proof/Machine/Pages.lean ====
section
/-! DEFINITION. Machine/Pages.lean: device virtual memory (R189 to R218): page table entries, translation with its
faults, pools and free sectors, pages coded and raw, reads and writes by device virtual address. -/
namespace Sys2Proof.Machine

/-- Bytes of a page. -/
def pageSize : Nat := 65536

/-! ## Entries (R195) -/

def pteValid (e : Nat) : Bool := e.testBit 0
def pteWrite (e : Nat) : Bool := e.testBit 1
def pteCow (e : Nat) : Bool := e.testBit 2
def pteRunahead (e : Nat) : Bool := e.testBit 3
def pteCoded (e : Nat) : Bool := e.testBit 4
def ptePinned (e : Nat) : Bool := e.testBit 5
def pteRide (e : Nat) : Bool := e.testBit 6
def pteAge (e : Nat) : Nat := fld e 8 6
/-- Sectors of the page. -/
def pteSectors (e : Nat) : Nat := fld e 14 4 + 1
def pteTier (e : Nat) : Nat := fld e 18 2
def pteFrame (e : Nat) : Nat := fld e 20 34

/-- Device physical address of the first byte of a page. -/
def pteAddr (e : Nat) : Nat := pteTier e * 2 ^ 46 + pteFrame e * 4096

/-- First sector of a page: physical address [47:12]. -/
def pteSector (e : Nat) : Nat := pteAddr e / 4096

/-- An entry at a place, keeping the attribute bits of `e`. -/
def pteAt (e sector sectors : Nat) (coded : Bool) : Nat :=
  setFld (setFld (setFld (setFld e 20 34 (sector % 2 ^ 34)) 18 2 (sector / 2 ^ 34)) 14 4 (sectors - 1)) 4 1 (b2n coded)

/-- The entry of a page of a slot, 0 where there is none. -/
def pteOf (s : State) (k vpn : Nat) : Nat := tget 0 (getSlot s k).ptes vpn

/-- The home page of a slot's PGT. -/
def homePgt (s : State) (k : Nat) : Page := .pgt (homeDie s k)

/-- The stack that holds a slot's table area (R193). -/
def tableStack (s : State) (k : Nat) : Nat := fld (rd s (homePgt s k) pgt_ROOT_HI) 11 3

/-- The home PGT writes n entries: each in its table and in the mirror, and so 2 units of the stack (R222, R369, log entry 71). -/
def tableWrites (s : State) (k n : Nat) : State := bump s (.mem (tableStack s k)) mem_WR_UNITS (2 * n)

/-- Writes an entry; every translation cache of the partition drops it (R198), and an entry with VALID = 0 is zero. -/
def setPte (s : State) (k vpn e : Nat) : State :=
  let s := tableWrites s k 1
  let x := getSlot s k
  setSlot s k { x with ptes := tset 0 x.ptes vpn (if pteValid e then e else 0),
                       badPte := tset (0, 0) x.badPte vpn (0, 0),
                       tlb := x.tlb.filter (fun t => t.2 != vpn) }

/-- The home page's CTRL fields (R217). -/
def pgtEnabled (s : State) (k : Nat) : Bool := (rd s (homePgt s k) hCTRL).testBit 0
def pgtStatic (s : State) (k : Nat) : Bool := (rd s (homePgt s k) hCTRL).testBit 1
def pgtPromote (s : State) (k : Nat) : Bool := (rd s (homePgt s k) hCTRL).testBit 2

/-! ## Physical places (R190, R191) -/

/-- A range without another. -/
def without (u r : Nat × Nat) : List (Nat × Nat) :=
  if overlap u r then
    (if r.1 < u.1 then [(r.1, u.1 - r.1)] else [])
      ++ (if u.1 + u.2 < r.1 + r.2 then [(u.1 + u.2, r.1 + r.2 - (u.1 + u.2))] else [])
  else [r]

/-- Whether a sector range lies within one extent of a tier. -/
def inExtent (x : SlotSt) (tier : Nat) (r : Nat × Nat) : Bool :=
  x.pools.any (fun e => e.tier == tier && decide (e.base ≤ r.1 ∧ r.1 + r.2 ≤ e.base + e.n))

/-- Whether every sector of a range lies in a pool of the slot. -/
def inPool (x : SlotSt) (r : Nat × Nat) : Bool :=
  (x.pools.foldl (fun l e => l.flatMap (without (e.base, e.n))) [r]).isEmpty

/-- Whether n bytes at a device physical address are a valid range of one memory of the partition: of one core, one stack, or one
host extent (R195). -/
def ownPhys (s : State) (k a n : Nat) : Bool :=
  let u := fld a 43 3
  match a / 2 ^ 46 with
  | 0 => slotUsed s k && slotOf s u == k && decide (fld a 34 9 < 384) && roleOf s u (fld a 34 9) == 0 && fld a 22 12 == 0
      && decide (a % 2 ^ 22 + n ≤ 0x280000)
  | 1 => slotUsed s k && slotOf s u == k && fld a 35 8 == 0 && decide (a % 2 ^ 35 + n ≤ 24000000000)
  | 2 => inExtent (getSlot s k) 2 (a / 4096, cdiv (a + n) 4096 - a / 4096)
  | _ => false

/-- Physical address of the table area and its bytes (R219). -/
def tableArea (s : State) (k : Nat) : Nat × Nat :=
  (rd s (homePgt s k) pgt_ROOT_LO + 2 ^ 32 * rd s (homePgt s k) pgt_ROOT_HI, (getSlot s k).areaPages * pageSize)

/-- Whether a range meets the table area. -/
def inTables (s : State) (k a n : Nat) : Bool := overlap (a, n) (tableArea s k)

/-! ## Sectors and pools (R204) -/

/-- Sectors that a page holds. -/
def pteRange (e : Nat) : Nat × Nat := (pteSector e, pteSectors e)

/-- The sectors that pages of the slot, or pages in transit, hold. -/
def heldRanges (x : SlotSt) : List (Nat × Nat) := x.ptes.map (fun e => pteRange e.2) ++ x.transit.map (fun t => pteRange t.entry)

/-- The free ranges of the pool of a tier, of one stack or of all (tier 1). -/
def freeRanges (x : SlotSt) (tier : Nat) (stack : Option Nat) : List (Nat × Nat) :=
  let ext := (x.pools.filter (fun e => e.tier == tier &&
    (match stack with | some st => fld (e.base * 4096) 43 3 == st | none => true))).map (fun e => (e.base, e.n))
  (heldRanges x).foldl (fun l u => l.flatMap (without u)) ext

/-- Free sectors of a pool. -/
def freeSectors (x : SlotSt) (tier : Nat) : Nat := sumOf ((freeRanges x tier none).map (·.2))

/-- Sectors of a pool. -/
def poolSectors (x : SlotSt) (tier : Nat) : Nat := sumOf ((x.pools.filter (·.tier == tier)).map (·.n))

/-- The j-th first sector at which `m` consecutive free sectors begin. -/
def startAt (m : Nat) : List (Nat × Nat) → Nat → Option Nat
  | [], _ => none
  | r :: rs, j => let n := r.2 + 1 - m; if j < n then some (r.1 + j) else startAt m rs (j - n)

/-- Takes `m` consecutive free sectors of a tier, on a stack or anywhere; which ones is not defined (R208). -/
def alloc (s : State) (k tier : Nat) (stack : Option Nat) (m : Nat) : Option Nat × State :=
  let l := freeRanges (getSlot s k) tier stack
  let n := sumOf (l.map (fun r => r.2 + 1 - m))
  if n = 0 then (none, s) else let q := drawNat s; (startAt m l (q.1 % n), q.2)

/-! ## Reads and writes of physical memory by the die-level and hub units -/

/-- Counts transfers of a stack in 64 B units, and the read latency that the controller sees (R222, log entry 4). -/
def stackUnits (s : State) (a n : Nat) (write : Bool) : State :=
  if a / 2 ^ 46 = 1 ∧ 0 < n then
    let p : Page := .mem (fld a 43 3)
    let s := bump s p (if write then mem_WR_UNITS else mem_RD_UNITS) ((a + n - 1) / 64 - a / 64 + 1)
    if write then s else let q := drawNat s; wrMax q.2 p mem_LAT_MAX (q.1 % 65536)
  else s

/-- Reads physical bytes through their check: bytes and the indices (address / 8) of uncorrectable words. Core SRAM is
read as stored for units other than the core's own attempt (R173). -/
def physRead (s : State) (a n : Nat) : State × List Byte × List Nat :=
  if a / 2 ^ 46 = 0 then
    let key := fld a 43 3 * 384 + fld a 34 9
    let r := coreCheck s key none (a % 2 ^ 22) n
    let bad := if r.2 then (List.range ((a + n + 7) / 8 - a / 8)).filter (fun i =>
      (stored (getCore s key) none (8 * (a % 2 ^ 22 / 8 + i)) 8).any (fun p => !(ueWords s (coreAddr key p.1) p.2).isEmpty))
      else []
    (r.1, coreBytes r.1 key none (a % 2 ^ 22) n, bad.map (· + a / 8))
  else
    let s := stackUnits s a n false
    let r := checkRead s a n
    (r.1, memRead r.1 a n, (ueWords s a n).map (· + a / 8))

/-- Writes physical bytes, the listed words (address / 8) poisoned. -/
def physWrite (s : State) (a : Nat) (bs : List Byte) (bad : List Nat) : State :=
  let s := if a / 2 ^ 46 = 0 then coreStore s (fld a 43 3 * 384 + fld a 34 9) none (a % 2 ^ 22) bs
    else store (stackUnits s a bs.length true) a bs
  each bad (fun w s => setSynd s w 3) s

/-! ## Whole pages (R199 to R203) -/

/-- The die whose controller codes and decodes a page: its stack's, or for tier 2 the die of the access. -/
def codecDie (e d : Nat) : Nat := if pteTier e = 1 then fld (pteAddr e) 43 3 else d

/-- A whole page decoded: its bytes and the indices in it of the words that come out bad (R203, R367). -/
def pageRead (s : State) (d e : Nat) : State × List Byte × List Nat :=
  let a := pteAddr e
  if pteCoded e then
    let p : Page := .mem (codecDie e d)
    let r := physRead s a (4096 * pteSectors e)
    let plain := decodePage r.2.1
    let s := bump r.1 p mem_CODEC_DEC 1
    let chunks := if r.2.2.isEmpty then [] else badChunks r.2.1 (r.2.2.map (· - a / 8))
    let wordsIn := fun c => (List.range 512).map (· + 512 * c)
    if pageCrcOk r.2.1 plain then (s, plain, chunks.flatMap wordsIn)
    else (raise (bump s p mem_CODEC_CRC_ERR 1) p 1, plain,
      if r.2.2.isEmpty then List.range 8192 else chunks.flatMap wordsIn)
  else
    let r := physRead s a pageSize
    (r.1, r.2.1, r.2.2.map (· - a / 8))

/-- The stored form of a page's bytes for a codec: coded where the codec is on, the page is whole and sound and takes
fewer than 16 sectors; else none (raw). -/
def coderForm (s : State) (cd : Nat) (bs : List Byte) (bad : List Nat) : Option (List Byte) :=
  if (rd s (.mem cd) hCTRL).testBit 0 && bad.isEmpty then
    let c := codePage bs
    if codedSectors c < 16 then some c else none
  else none

/-- Stores a page at a sector, in the form given (none: raw), with the codec's counts (R222). -/
def pageStore (s : State) (cd sector : Nat) (form : Option (List Byte)) (bs : List Byte) (bad : List Nat) : State :=
  let p : Page := .mem cd
  match form with
  | some c => physWrite (bump (bump s p mem_CODEC_ENC 1) p mem_CODEC_SECT (codedSectors c)) (sector * 4096) c []
  | none =>
    let s := if (rd s p hCTRL).testBit 0 && bad.isEmpty then bump s p mem_CODEC_RAW 1 else s
    physWrite s (sector * 4096) bs (bad.map (· + sector * 512))

/-- Places a page's bytes anew in a tier (1: on a stack or anywhere, 2), coded under R199: the first sector with the
entry made from `e`; none where the pool has no room. -/
def placePage (s : State) (k d e tier : Nat) (stack : Option Nat) (bs : List Byte) (bad : List Nat) : Option Nat × State :=
  let cd := match tier, stack with | 1, some st => st | _, _ => d
  let form := coderForm s cd bs bad
  let n := match form with | some c => codedSectors c | none => 16
  match alloc s k tier stack n with
  | (some sec, s) => (some (pteAt e sec n form.isSome), pageStore s (codecDie (pteAt e sec n form.isSome) d) sec form bs bad)
  | (none, s) => (none, s)

/-! ## Translation (R196, R197) -/

/-- What a translation finds. -/
inductive Look where
  | fault (code reason : Nat)
  | cow
  | transit
  | dropped
  | found (entry : Nat)
  deriving DecidableEq, Repr

/-- The keys of a region's L1 entry, and of an entry of the root, in the table of damaged entries (R369). -/
def dirKey (r : Nat) : Nat := 2 ^ 32 + r
def rootKey (i : Nat) : Nat := 2 ^ 33 + i

/-- The entry of the root that leads to a region (R193). -/
def rootIndex (r : Nat) : Nat := r / 8192

/-- Physical address [47:16] of a table (copy 0) or of its mirror (copy 1); the root and its mirror fill the start of the area's
first two pages (R369). -/
def rootPage (s : State) (k copy : Nat) : Nat := (tableArea s k).1 / pageSize + copy
def tablePage (s : State) (k copy table : Nat) : Nat := rootPage s k (2 + Config.tablePlace copy table % ((getSlot s k).areaPages - 2))

/-- The word (byte address divided by 8) at which a table or its mirror keeps the entry of a key. -/
def entryWord (s : State) (k copy key : Nat) : Nat :=
  if key < 2 ^ 32 then 8192 * tablePage s k copy (key / 8192) + key % 8192
  else if key < 2 ^ 33 then 8192 * tablePage s k copy (2 ^ 19 + rootIndex (key - 2 ^ 32)) + key % 8192
  else 8192 * rootPage s k copy + (key - 2 ^ 33)

/-- A directory entry (R194): VALID, JOB, and TABLE. -/
def dirWord (job table : Nat) : Nat := 1 + 64 * job + 65536 * table

/-- An entry of the root, and a region's L1 entry, as the tables hold them. -/
def rootEntry (s : State) (k i : Nat) : Nat :=
  if (tfind (getSlot s k).l1 i).isSome then dirWord 0 (tablePage s k 0 (2 ^ 19 + i)) else 0
def regionEntry (s : State) (k r : Nat) : Nat :=
  match tfind (getSlot s k).regions r with
  | some j => dirWord j (tablePage s k 0 r)
  | none => 0

/-- Whether an entry and its mirror are both uncorrectable. -/
def entryLost (x : SlotSt) (key : Nat) : Bool :=
  match tfind x.badPte key with
  | some e => e.1 != 0 && e.2 != 0 && (syndBit e.1).isNone && (syndBit e.2).isNone
  | none => false

/-- Whether a walk for cache `c` meets an entry that cannot be read; a cached translation needs no walk (R367). -/
def walkLost (x : SlotSt) (c vpn : Nat) : Bool :=
  !x.tlb.contains (c, vpn) && (entryLost x vpn
    || (!x.dirs.contains (c, vpn / 8192) && (entryLost x (dirKey (vpn / 8192)) || entryLost x (rootKey (rootIndex (vpn / 8192))))))

/-- Whether CALIBRATE stalls the stack of a device physical address (R223). -/
def stalled (s : State) (a : Nat) : Bool := a / 2 ^ 46 == 1 && busy s (.mem (fld a 43 3))

/-- Whether a walk for cache `c` meets a stack that CALIBRATE stalls (R223). -/
def walkStalls (s : State) (k c vpn : Nat) : Bool := !(getSlot s k).tlb.contains (c, vpn) && busy s (.mem (tableStack s k))

/-- The judgement of R197 for an access of a slot's unit, by its translation cache, to a page. A page in transit (R213), and a
page or walk that meets a stack under CALIBRATE (R223), wait. -/
def look (s : State) (k c vpn : Nat) (write runahead : Bool) : Look :=
  let x := getSlot s k
  let e := tget 0 x.ptes vpn
  if !pgtEnabled s k then .fault 0x0A 4
  else if walkStalls s k c vpn then (if runahead then .dropped else .transit)
  else if !pteValid e || walkLost x c vpn then (if runahead then .dropped else .fault 0x0A 0)
  else if inTables s k (pteAddr e) (4096 * pteSectors e) then .fault 0x0B 3
  else if !ownPhys s k (pteAddr e) (4096 * pteSectors e) then .fault 0x0B 2
  else if runahead && !pteRunahead e then .dropped
  else if write && !pteWrite e then .fault 0x0B 1
  else if x.transit.any (·.vpn == vpn) then (if runahead then .dropped else .transit)
  else if stalled s (pteAddr e) then (if runahead then .dropped else .transit)
  else if write && pteCow e then .cow
  else .found e

/-- Units as PGT.FAULT_INFO numbers them. -/
inductive UnitNo where
  | stream | gather | task | window | coll | ckpt | migrator
  deriving DecidableEq, Repr

def UnitNo.code : UnitNo → Nat
  | .stream => 0 | .gather => 1 | .task => 2 | .window => 3 | .coll => 4 | .ckpt => 5 | .migrator => 6

/-- Whether a unit translates through the hub's cache. -/
def UnitNo.hub : UnitNo → Bool
  | .window | .coll | .ckpt => true
  | _ => false

/-- The translation cache of a unit on a die; 8 is the hub's. -/
def cacheOf (u : UnitNo) (d : Nat) : Nat := if u.hub then 8 else d

/-- The PGT page records a fault (R197, R218, R220). -/
def recordFault (s : State) (d : Nat) (u : UnitNo) (write : Bool) (code reason va : Nat) : State :=
  let p : Page := .pgt d
  let s := wr s p pgt_FAULT_VA_LO (va % 2 ^ 32)
  let s := wr s p pgt_FAULT_VA_HI (va / 2 ^ 32 % 65536)
  let s := wr s p pgt_FAULT_INFO (code + 256 * u.code + 2048 * b2n write + 4096 * reason)
  condition (bump s p pgt_FAULT_COUNT 1) p code 1

/-- A walk reads a table entry (R363, R367): an error that can be corrected is, and an uncorrectable entry is rewritten from its
mirror, if that can be read. -/
def readEntry (k c key : Nat) (s : State) : State :=
  let x := getSlot s k
  match tfind x.badPte key with
  | none => s
  | some (a, b) =>
    let p : Page := .pgt (if c < 8 then c else homeDie s k)
    let count := fun (s : State) (n : Byte) (copy : Nat) =>
      if n = 0 then s else countErr s p 6 n.toNat (entryWord s k copy key % 2 ^ 32) (syndBit n).isNone false
    let keep := fun (e : Byte × Byte) (s : State) => setSlot s k { getSlot s k with badPte := tset (0, 0) x.badPte key e }
    let s := count s a 0
    if a = 0 || (syndBit a).isSome then keep (0, b) s
    else keep (if b = 0 || (syndBit b).isSome then (0, 0) else (a, b)) (count s b 1)

/-- An entry of a cache that is full goes, which one is open (log entry 4); `mine` lists the entries that compete. -/
def evict (s : State) (l mine : List (Nat × Nat)) : State × List (Nat × Nat) :=
  let r := drawNat s
  match mine[r.1 % mine.length]? with
  | some v => (r.2, l.filter (· != v))
  | none => (s, l)

/-- A walk reads entries from the stack of the table area: units, and the latency that the controller sees (R222, log entry 4). -/
def tableReads (k n : Nat) (s : State) : State :=
  let p : Page := .mem (tableStack s k)
  let q := drawNat (bump s p mem_RD_UNITS n)
  wrMax q.2 p mem_LAT_MAX (q.1 % 65536)

/-- The table reads of a walk for a page (R197): the root's and the L1 entry, unless the directory cache of 64 entries holds the
region, and the page entry. A walk that misses both caches counts as the two reads that R197 gives it. -/
def readTables (k c vpn : Nat) (s : State) : State :=
  let r := vpn / 8192
  let hit := decide (c < 8) && (getSlot s k).dirs.contains (c, r)
  let known := (tfind (getSlot s k).regions r).isSome
  let s := tableReads k (if hit || !known then 1 else 2) s
  let s := if hit then s else readEntry k c (dirKey r) (readEntry k c (rootKey (rootIndex r)) s)
  let s := if known then readEntry k c vpn s else s
  if hit || !known || decide (8 ≤ c) then s
  else
    let l := (getSlot s k).dirs
    let mine := l.filter (·.1 == c)
    let q := if 64 ≤ mine.length then evict s l mine else (s, l)
    setSlot q.1 k { getSlot q.1 k with dirs := (c, r) :: q.2 }

/-- A miss of a translation cache, counted for a die's, walks the tables. -/
def walkTables (k c vpn : Nat) (s : State) : State := readTables k c vpn (if c < 8 then bump s (.pgt c) pgt_TLB_MISS 1 else s)

/-- Whether an entry of a translation cache competes with a page's: a die's 2,048 entries stand in sets of 8 ways, the hub's 512 in
one. -/
def sameSet (c vpn : Nat) (t : Nat × Nat) : Bool := t.1 == c && (c == 8 || Config.tlbSet t.2 % 256 == Config.tlbSet vpn % 256)

/-- An access passes its translation cache: a miss walks the tables and takes a place in the cache; the page counts as used
(R209). -/
def touch (s : State) (k c vpn : Nat) : State :=
  let x := getSlot s k
  let s := if x.used.contains vpn then s else setSlot s k { x with used := vpn :: x.used }
  if x.tlb.contains (c, vpn) then s
  else
    let s := walkTables k c vpn s
    let l := (getSlot s k).tlb
    let ways := if c = 8 then 512 else 8
    let full := decide (ways ≤ l.length) && decide (ways ≤ (l.filter (sameSet c vpn)).length)
    let q := if full then evict s l (l.filter (sameSet c vpn)) else (s, l)
    setSlot q.1 k { getSlot q.1 k with tlb := (c, vpn) :: q.2 }

/-- The pages of a range of device virtual addresses. -/
def pagesIn (va n : Nat) : List Nat :=
  if n = 0 then [] else (List.range ((va + n - 1) / pageSize - va / pageSize + 1)).map (fun i => (va / pageSize + i) % 2 ^ 32)

/-- The verdict on a whole range. -/
inductive Access where
  | ok
  | fault (code reason vpn : Nat)
  | wait (vpn : Nat) (cow : Bool)
  deriving DecidableEq, Repr

/-- The first page of a range that cannot be accessed at once. -/
def accessPages (s : State) (k c : Nat) (write : Bool) : List Nat → Access
  | [] => .ok
  | v :: vs =>
    match look s k c v write false with
    | .fault c r => .fault c r v
    | .cow => .wait v true
    | .transit => .wait v false
    | _ => accessPages s k c write vs

/-- Judges a demand access to a range by a unit's translation cache. -/
def access (s : State) (k c va n : Nat) (write : Bool) : Access := accessPages s k c write (pagesIn va n)

/-- A write of a unit to an address stalls on COW: counted once however often it is tried, and the copier takes that page next
(R342). -/
def cowStall (s : State) (k vpn writer va : Nat) : State :=
  let x := getSlot s k
  if x.cowNext.contains (vpn, writer, va) then s
  else setSlot (bump s (.ckp k) ckp_COW_STALLS 1) k { x with cowNext := x.cowNext ++ [(vpn, writer, va)] }

/-- A page that a write waits for. -/
def cowWanted (x : SlotSt) (vpn : Nat) : Bool := x.cowNext.any (·.1 == vpn)

/-! ## Data access by device virtual address -/

/-- Reads part of a page through its entry: bytes, and the bad words by their index in the range of addresses va / 8. -/
def partRead (s : State) (d e off n va : Nat) : State × List Byte × List Nat :=
  if pteCoded e then
    let r := pageRead s d e
    (r.1, (r.2.1.drop off).take n, (r.2.2.filter (fun w => decide (off < 8 * w + 8 ∧ 8 * w < off + n))).map
      (· + (va - off) / 8))
  else
    let r := physRead s (pteAddr e + off) n
    (r.1, r.2.1, r.2.2.map (fun w => w - (pteAddr e + off) / 8 + va / 8))

/-- The pieces of a range of virtual addresses, one per page: page number, offset, length. -/
def pagePieces : Nat → Nat → Nat → List (Nat × Nat × Nat)
  | 0, _, _ => []
  | fuel + 1, va, n =>
    if n = 0 then []
    else
      let m := min n (pageSize - va % pageSize)
      (va / pageSize % 2 ^ 32, va % pageSize, m) :: pagePieces fuel (va + m) (n - m)

/-- The pieces of a range. -/
def piecesOf (va n : Nat) : List (Nat × Nat × Nat) := pagePieces (n / pageSize + 2) va n

/-- Reads a range that has been judged. -/
def vaReadOk (s : State) (k d : Nat) (u : UnitNo) (va n : Nat) : State × List Byte × List Nat :=
  (piecesOf va n).foldl (fun r p =>
    let s := touch r.1 k (cacheOf u d) p.1
    let q := partRead s d (pteOf s k p.1) p.2.1 p.2.2 (p.1 * pageSize + p.2.1)
    (q.1, r.2.1 ++ q.2.1, r.2.2 ++ q.2.2)) (s, [], [])

/-- A page that another unit than an all-gather run writes loses its capture (R340). -/
def uncapture (s : State) (k vpn : Nat) : State :=
  let x := getSlot s k
  if x.captured.contains vpn then setSlot s k { x with captured := x.captured.filter (· != vpn) } else s

/-- Expands a coded page before a partial write (R212): 16 sectors of the same tier, or of tier 2 where the tier-1 pool is
short; a partition that is STATIC keeps the page on its stack (R207). A stack that CALIBRATE stalls is not asked (R223). false: no
room. -/
def expand (s : State) (k d vpn : Nat) : State × Bool :=
  let e := pteOf s k vpn
  let own := fld (pteAddr e) 43 3
  let r := match (if pteTier e = 1 && (pgtStatic s k || (diesOf s k).any (fun d => busy s (.mem d))) then alloc s k 1 (some own) 16
      else alloc s k (pteTier e) none 16) with
    | (some a, s) => (some a, s)
    | (none, s) => if pteTier e = 1 && !pgtStatic s k then alloc s k 2 none 16 else (none, s)
  match r with
  | (some a, s) =>
    let q := pageRead s d e
    let s := physWrite q.1 (a * 4096) q.2.1 (q.2.2.map (· + a * 512))
    (bump (setPte s k vpn (pteAt e a 16 false)) (homePgt s k) pgt_EXPAND_COUNT 1, true)
  | (none, s) => (s, false)

/-- Writes a whole page as one transfer that R199 codes: the new form is assembled apart in sectors of the pool and the
entry switches. A page outside the pools whose form is raw is written where it stands, and so is a form that the pool has no room for
if the page's own sectors hold it; else it goes to tier 2 as an expansion does (log entry 22). -/
def wholeWrite (s : State) (k d vpn : Nat) (bs : List Byte) (bad : List Nat) : State :=
  let e := pteOf s k vpn
  if pteTier e = 0 then physWrite s (pteAddr e) bs (bad.map (· + pteAddr e / 8))
  else
    let form := coderForm s (codecDie e d) bs bad
    let m := match form with | some c => codedSectors c | none => 16
    let stay := m ≤ pteSectors e
    let q := if stay && !inPool (getSlot s k) (pteRange e) && form.isNone then (none, s)
      else placePage s k d e (pteTier e) (if pteTier e = 1 then some (fld (pteAddr e) 43 3) else none) bs bad
    let q := if q.1.isNone && !stay && pteTier e == 1 && !pgtStatic s k then placePage q.2 k d e 2 none bs bad else q
    match q with
    | (some e', s) => setPte s k vpn e'
    | (none, s) =>
      if stay then setPte (pageStore s (codecDie e d) (pteSector e) form bs bad) k vpn (pteAt e (pteSector e) m form.isSome) else s

/-- The words of a page that stay bad under a write of part of it, and those that the write brings, by index in the page. -/
def mergeBad (old : List Nat) (off n : Nat) (bad : List Nat) : List Nat :=
  old.filter (fun w => !decide (off ≤ 8 * w ∧ 8 * w + 8 ≤ off + n)) ++ bad.map (· + off / 8)

/-- The loader writes part of a page: in tiers 1 and 2 the page is coded as one that it writes (R199). -/
def mergeWrite (s : State) (k d vpn off : Nat) (bs : List Byte) (bad : List Nat) : State :=
  let e := pteOf s k vpn
  if pteTier e = 0 then physWrite s (pteAddr e + off) bs (bad.map (· + (pteAddr e + off) / 8))
  else
    let q := pageRead s d e
    wholeWrite q.1 k d vpn (q.2.1.take off ++ bs ++ q.2.1.drop (off + bs.length)) (mergeBad q.2.2 off bs.length bad)

/-- Writes part of a page; a coded page is expanded first, and where no pool has room, which R206 excludes, nothing is written (log
entry 22). -/
def partWrite (s : State) (k d vpn off : Nat) (bs : List Byte) (bad : List Nat) : State :=
  let r := if pteCoded (pteOf s k vpn) then expand s k d vpn else (s, true)
  let s := r.1
  let e := pteOf s k vpn
  if r.2 then physWrite s (pteAddr e + off) bs (bad.map (fun w => w + (pteAddr e + off) / 8)) else s

/-- Writes a range that has been judged, each page's part by `f` (page, offset, bytes, bad words). `bad` lists words to be poisoned by
their index from the start of the bytes. -/
def vaWriteBy (f : Nat → Nat → List Byte → List Nat → State → State) (s : State) (k d : Nat) (u : UnitNo) (va : Nat) (bs : List Byte)
    (bad : List Nat) : State :=
  ((piecesOf va bs.length).foldl (fun (r : State × Nat) p =>
    let s := uncapture (touch r.1 k (cacheOf u d) p.1) k p.1
    (f p.1 p.2.1 ((bs.drop r.2).take p.2.2)
      ((bad.filter (fun w => decide (r.2 ≤ 8 * w ∧ 8 * w < r.2 + p.2.2))).map (· - r.2 / 8)) s, r.2 + p.2.2)) (s, 0)).1

/-- Writes a range that has been judged; `coding` for the units whose whole-page writes are coded (R199). -/
def vaWriteOk (s : State) (k d : Nat) (u : UnitNo) (coding : Bool) (va : Nat) (bs : List Byte) (bad : List Nat) : State :=
  vaWriteBy (fun vpn off part b s =>
    if coding && part.length == pageSize then wholeWrite s k d vpn part b else partWrite s k d vpn off part b) s k d u va bs bad

/-- The access that finds a fault walks the tables too, unless its translation is cached or translation is off; an entry that is not
valid takes no place in the cache. -/
def faultWalk (s : State) (k c reason vpn : Nat) : State :=
  if reason = 4 then s
  else if pteValid (pteOf s k vpn) && !walkLost (getSlot s k) c vpn then touch s k c vpn
  else walkTables k c vpn s

/-- A demand access is judged; a fault is recorded on the page of the die, or of the home die for the hub's units. -/
def judge (s : State) (k d : Nat) (u : UnitNo) (va n : Nat) (write : Bool) : State × Access :=
  let a := access s k (cacheOf u d) va n write
  match a with
  | .fault c r v => (recordFault (faultWalk s k (cacheOf u d) r v) (if u.hub then homeDie s k else d) u write c r (max (va % 2 ^ 48) (v * pageSize)), a)
  | .wait v true => (cowStall s k v (8 * d + u.code) va, a)
  | _ => (s, a)

/-- Promotes a tier-2 page to the stack of a die on a demand access of its stream or gather engine (R211). -/
def promote (d k vpn : Nat) (s : State) : State :=
  let e := pteOf s k vpn
  if pgtPromote s k && !pgtStatic s k && pteValid e && pteTier e == 2 && !ptePinned e
      && !(getSlot s k).transit.any (·.vpn == vpn) then
    let q := pageRead s d e
    match placePage q.1 k d e 1 (some d) q.2.1 q.2.2 with
    | (some e', s1) =>
      let s2 := setPte s1 k vpn e'
      if freeSectors (getSlot s2 k) 1 < rd s (homePgt s k) pgt_T1_LOW then s
      else bump s2 (homePgt s k) pgt_PROMOTE_COUNT 1
    | (none, _) => s
  else s

/-- Promotes the pages of a demand access. -/
def promoteRange (s : State) (k d va n : Nat) : State := each (pagesIn va n) (promote d k) s

end Sys2Proof.Machine
end

