-- ==== Sys2Proof/Machine/Tiers.lean ====
section
/-! DEFINITION. Machine/Tiers.lean: the commands of the PGT and MEM pages and the migrator's steps (R205 to R224, R366).
Each meaning answers a next state. -/
namespace Sys2Proof.Machine

/-- The arguments of a PGT page's next command, and one of them. -/
def argsOf (s : State) (p : Page) : List Nat := (List.range 6).map (arg s p)
def pa (a : List Nat) (i : Nat) : Nat := a.getD i 0

/-- Device virtual address of a PGT command: ARG_0 and ARG_1[15:0]. -/
def pgtVa (a : List Nat) : Nat := pa a 0 + 2 ^ 32 * (pa a 1 % 65536)

/-- First physical address of a MAP with EXPLICIT. -/
def mapPhys (a : List Nat) : Nat := pa a 4 + 2 ^ 32 * (pa a 5 % 65536)

/-- The pages of a command's range. -/
def pgtPages (va n : Nat) : List Nat := (List.range n).map (fun i => va / pageSize + i)

/-- The refusal of a command's range, if any: reserved argument bits, alignment, count (R219). -/
def badRange (a : List Nat) : Option Nat :=
  let va := pgtVa a
  let n := pa a 2
  if 65536 ≤ pa a 1 then some 0x0D
  else if va % pageSize ≠ 0 then some 0x02
  else if n = 0 ∨ 64 < n ∨ 2 ^ 32 < va / pageSize + n then some 0x03
  else none

/-- Whether a command of the page waits (R407). -/
def cmdActive (s : State) (p : Page) : Bool := match tfind s.cmds (pageBase p) with | some c => !c.long | none => false

/-- Marks the command of a home page as active, with what it waits for and its arguments: 4 UNMAP, 6 MIGRATE, 16 the switches of a
MIGRATE, 32 + op a stack that CALIBRATE stalls. -/
def pgtHold (s : State) (k d tag : Nat) (w : Nat × List Nat) : State :=
  let x := getSlot s k
  setSlot { s with cmds := tput s.cmds (pageBase (.pgt d)) ⟨resultWord 0 0 tag, 4, false, false⟩ } k { x with pgtWait := some w }

/-- Whether CALIBRATE stalls a stack that a command reaches: the new table area's (INIT), or the tables' and the one on which MAP
creates pages; QUOTA reaches none (R223). -/
def pgtStalls (s : State) (k op : Nat) (a : List Nat) : Bool :=
  if op = 1 then stalled s (pgtVa a)
  else op != 9 && (busy s (.mem (tableStack s k))
    || (op == 3 && !(pa a 3).testBit 9 && fld (pa a 3) 4 2 == 1 && busy s (.mem (fld (pa a 3) 6 3))))

/-- A command of a die's PGT page: ignored while an earlier one has not completed, refused off the home page and, but for
INIT, while translation is off (R219); it waits while CALIBRATE stalls a stack that it reaches. -/
def pgtCmd (s : State) (fn d tag op : Nat) (f : List Nat → State → State) : State :=
  hostCmd s fn (.pgt d) fun s =>
    let k := slotOf s d
    let a := argsOf s (.pgt d)
    if cmdActive s (.pgt d) then bump s (.pgt d) pgt_CMD_DROPPED 1
    else if homeDie s k ≠ d then reject s (.pgt d) 0x01 tag
    else if op ≠ 1 && !pgtEnabled s k then reject s (.pgt d) 0x09 tag
    else if pgtStalls s k op a then pgtHold s k d tag (32 + op, a)
    else f a s

/-- Ends a PGT command: with a refusal, or done. -/
def pgtEnd (s : State) (d tag : Nat) (reason : Option Nat) : State :=
  match reason with
  | some r => reject s (.pgt d) r tag
  | none => done s (.pgt d) tag

/-! ## Tables, quotas and counts (R204 to R206, R369) -/

/-- Bitmap pages that a pool set needs. -/
def bitmapPages (x : SlotSt) : Nat := sumOf ([0, 1, 2].map (fun t => cdiv (poolSectors x t) 524288))

/-- Tables in use: the root, the L1 tables and one L2 table for each region. -/
def tablesUsed (x : SlotSt) : Nat := 1 + x.l1.length + x.regions.length

/-- Tables that an area holds beside its bitmaps. -/
def tableRoom (x : SlotSt) : Nat := (x.areaPages - bitmapPages x) / 2

/-- The job of a page's region. -/
def jobOfVpn (x : SlotSt) (vpn : Nat) : Option Nat := tfind x.regions (vpn / 8192)

/-- Pages of tier 1 or 2 charged to a job (R205). -/
def usedPages (x : SlotSt) (j : Nat) : Nat :=
  (x.ptes.filter (fun e => pteValid e.2 && pteTier e.2 != 0 && jobOfVpn x e.1 == some j)).length

/-- A job's quota. -/
def quotaOf (s : State) (k j : Nat) : Nat := rd s (homePgt s k) (pgt_QUOTA_j + 8 * j)

/-- The sum of all quotas. -/
def quotaSum (s : State) (k : Nat) : Nat := sumOf ((List.range 64).map (quotaOf s k))

/-- Whether quotas of a sum fit pools of tiers 1 and 2 with `n` sectors (R206). -/
def quotaFits (sum n : Nat) : Bool := decide (sum * 16 ≤ n)

/-! ## INIT, REGION, WALK, POOL, QUOTA -/

/-- The work of INIT. -/
def initDo (k d base pages : Nat) (s : State) : State :=
  let s := iter 64 (fun j s => wr s (.pgt d) (pgt_QUOTA_j + 8 * j) 0) s
  let x := getSlot s k
  let s := setSlot s k { x with areaPages := pages, regions := [], l1 := [], ptes := [], badPte := [], pools := [],
                                tlb := [], dirs := [], used := [], transit := [], captured := [], cowNext := [] }
  let s := physWrite (physWrite s base (List.replicate 512 0) []) (base + pageSize) (List.replicate 512 0) []
  let s := each (diesOf s k) (fun e s => wr (wr s (.pgt e) pgt_ROOT_LO (base % 2 ^ 32)) (.pgt e) pgt_ROOT_HI (base / 2 ^ 32)) s
  wr s (.pgt d) hCTRL (setFld (rd s (.pgt d) hCTRL) 0 1 1)

/-- INIT. -/
def initRun (k d tag : Nat) (a : List Nat) (s : State) : State :=
  let base := pgtVa a
  let n := pa a 2
  if pgtEnabled s k then pgtEnd s d tag (some 0x09)
  else if 65536 ≤ pa a 1 then pgtEnd s d tag (some 0x0D)
  else if base % pageSize ≠ 0 then pgtEnd s d tag (some 0x02)
  else if n < 2 ∨ 1024 < n then pgtEnd s d tag (some 0x03)
  else if base / 2 ^ 46 ≠ 1 || !ownPhys s k base (n * pageSize) then pgtEnd s d tag (some 0x0B)
  else pgtEnd (initDo k d base n s) d tag none

/-- Writes a region's L1 entry, in its table and the mirror; every directory cache drops it (R198, R369). -/
def setRegion (s : State) (k r j : Nat) : State :=
  let s := tableWrites s k 1
  let x := getSlot s k
  setSlot s k { x with regions := tput x.regions r j, badPte := tset (0, 0) x.badPte (dirKey r) (0, 0),
                       dirs := x.dirs.filter (·.2 != r) }

/-- Creates the L1 table of an entry of the root, unless there is one: the root and its mirror name it (R194, R369). -/
def makeL1 (s : State) (k i : Nat) : State :=
  let x := getSlot s k
  if (tfind x.l1 i).isSome then s
  else
    let s := setSlot s k { x with l1 := tput x.l1 i true, badPte := tset (0, 0) x.badPte (rootKey i) (0, 0) }
    each [0, 1] (fun copy s => physWrite s (8 * entryWord s k copy (rootKey i)) (toBytes 8 (rootEntry s k i)) []) s

/-- REGION. -/
def regionRun (k d tag : Nat) (a : List Nat) (s : State) : State :=
  let x := getSlot s k
  let r := pa a 0
  let j := pa a 1
  if 2 ^ 19 ≤ r ∨ 64 ≤ j then pgtEnd s d tag (some 0x0D)
  else
    match tfind x.regions r with
    | some j' =>
      if j' ≠ j ∧ x.ptes.any (fun e => e.1 / 8192 == r) then pgtEnd s d tag (some 0x05)
      else pgtEnd (setRegion s k r j) d tag none
    | none =>
      let need := tablesUsed x + 1 + b2n (tfind x.l1 (rootIndex r)).isNone
      if tableRoom x < need then pgtEnd s d tag (some 0x0E)
      else pgtEnd (setRegion (makeL1 s k (rootIndex r)) k r j) d tag none

/-- WALK: the tables are read; a command translates nothing, so no cache misses. -/
def walkRun (k d tag : Nat) (a : List Nat) (s : State) : State :=
  let p : Page := .pgt d
  let va := pgtVa a
  if 65536 ≤ pa a 1 then pgtEnd s d tag (some 0x0D)
  else if va % pageSize ≠ 0 then pgtEnd s d tag (some 0x02)
  else
    let s := readTables k d (va / pageSize) s
    let e := pteOf s k (va / pageSize)
    pgtEnd (wr (wr s p pgt_WALK_LO (e % 2 ^ 32)) p pgt_WALK_HI (e / 2 ^ 32)) d tag none

/-- Whether a core SRAM range meets a buffer of the loaded image (R204). -/
def imageUses (s : State) (k a n : Nat) : Bool :=
  match (getSlot s k).image with
  | some (im, pl) => im.bufs.any (fun b => b.placement == pl && b.kind != 3 && b.kind != 5 &&
      (match coreOf s (homeDie s k + b.die) b.core with
       | some key => overlap (a / 65536, n / 65536)
           (coreAddr key b.base / 65536, cdiv (coreAddr key b.base % 65536 + max b.length 1) 65536)
       | none => false))
  | none => false

/-- The refusal of an added extent, if any. -/
def badExtent (s : State) (k base n : Nat) : Option Nat :=
  let x := getSlot s k
  let t := base / 2 ^ 46
  if t = 0 ∧ (base % 65536 ≠ 0) then some 0x02
  else if t = 0 ∧ n % 16 ≠ 0 then some 0x03
  else if t = 2 && decide (3 * 2 ^ 46 < base + n * 4096) then some 0x0B
  else if t = 3 then some 0x0B
  else if t != 2 && !ownPhys s k base (n * 4096) then some 0x0B
  else if inTables s k base (n * 4096) then some 0x0B
  else if x.pools.any (fun e => overlap (e.base, e.n) (base / 4096, n)) then some 0x07
  else if t == 0 && (decide (base % 2 ^ 22 < 65536) || imageUses s k base (n * 4096)) then some 0x07
  else
    let x' := { x with pools := ⟨t, base / 4096, n⟩ :: x.pools }
    if tableRoom x' < tablesUsed x' then some 0x0E else none

/-- The refusal of a removal, if any: the extent must be free and in the pools, in tier 0 of whole frames as one added, and the
quotas must still fit (R204, R206). -/
def badRemoval (s : State) (k base n : Nat) : Option Nat :=
  let x := getSlot s k
  let r := (base / 4096, n)
  if base / 2 ^ 46 = 0 ∧ base % 65536 ≠ 0 then some 0x02
  else if base / 2 ^ 46 = 0 ∧ n % 16 ≠ 0 then some 0x03
  else if !inPool x r || meets r (heldRanges x) then some 0x07
  else if base / 2 ^ 46 ≠ 0 && !quotaFits (quotaSum s k) (poolSectors x 1 + poolSectors x 2 - n) then some 0x06
  else none

/-- POOL. -/
def poolRun (k d tag : Nat) (a : List Nat) (s : State) : State :=
  let base := pgtVa a
  let n := pa a 2
  let x := getSlot s k
  if 65536 ≤ pa a 1 ∨ 2 ≤ pa a 3 then pgtEnd s d tag (some 0x0D)
  else if base % 4096 ≠ 0 then pgtEnd s d tag (some 0x02)
  else if n = 0 then pgtEnd s d tag (some 0x03)
  else if pa a 3 = 0 then
    match badExtent s k base n with
    | some r => pgtEnd s d tag (some r)
    | none => pgtEnd (setSlot s k { x with pools := x.pools ++ [⟨base / 2 ^ 46, base / 4096, n⟩] }) d tag none
  else
    match badRemoval s k base n with
    | some r => pgtEnd s d tag (some r)
    | none =>
      let pools := x.pools.flatMap (fun e => (without (base / 4096, n) (e.base, e.n)).map (fun q => ⟨e.tier, q.1, q.2⟩))
      pgtEnd (setSlot s k { x with pools := pools }) d tag none

/-- QUOTA. -/
def quotaRun (k d tag : Nat) (a : List Nat) (s : State) : State :=
  let j := pa a 0
  let n := pa a 1
  let x := getSlot s k
  if 64 ≤ j then pgtEnd s d tag (some 0x0D)
  else if !quotaFits (quotaSum s k - quotaOf s k j + n) (poolSectors x 1 + poolSectors x 2)
      || decide (n < usedPages x j) then pgtEnd s d tag (some 0x06)
  else pgtEnd (wr s (.pgt d) (pgt_QUOTA_j + 8 * j) n) d tag none

/-! ## MAP and ATTR -/

/-- The attribute bits of a MAP as entry bits: VALID, WRITE, RUNAHEAD_OK, PINNED, RIDE. -/
def mapAttr (a : Nat) : Nat :=
  1 + 2 * fld a 0 1 + 8 * fld a 1 1 + 32 * fld a 2 1 + 64 * fld a 3 1

/-- Maps pages that have been judged: explicitly at consecutive places, or as created zero pages. none: the pool cannot
supply them. -/
def mapPages (k d a3 phys : Nat) : List Nat → State → Option State
  | [], s => some s
  | v :: vs, s =>
    let e := mapAttr a3
    let r := if a3.testBit 9 then (some (pteAt e (phys / 4096) 16 false), s)
      else placePage s k d e (fld a3 4 2) (if fld a3 4 2 = 1 then some (fld a3 6 3) else none) (List.replicate pageSize 0) []
    match r with
    | (some e', s) => mapPages k d a3 (phys + pageSize) vs (setPte s k v e')
    | (none, _) => none

/-- The refusal of a MAP, if any, before the pool is asked. -/
def badMap (s : State) (k : Nat) (a : List Nat) : Option Nat :=
  let x := getSlot s k
  let a3 := pa a 3
  let t := fld a3 4 2
  let expl := a3.testBit 9
  let phys := mapPhys a
  let n := pa a 2
  let pages := pgtPages (pgtVa a) n
  match badRange a with
  | some r => some r
  | none =>
    if 1024 ≤ a3 ∨ t = 3 ∨ (t = 0 ∧ expl = false) ∨ (expl = true ∧ 65536 ≤ pa a 5) then some 0x0D
    else if expl && (decide (phys % 4096 ≠ 0) || (t == 0 && decide (phys % 65536 ≠ 0))) then some 0x02
    else if expl && decide (phys / 2 ^ 46 ≠ t) then some 0x0D
    else if pages.any (fun v => (jobOfVpn x v).isNone) then some 0x0C
    else if pages.any (fun v => pteValid (tget 0 x.ptes v)) then some 0x05
    else if t ≠ 0 && (List.range 64).any (fun j =>
        let m := (pages.filter (fun v => jobOfVpn x v == some j)).length
        decide (m ≠ 0 ∧ quotaOf s k j < usedPages x j + m)) then some 0x06
    else if expl && (List.range n).any (fun i => !ownPhys s k (phys + pageSize * i) pageSize) then some 0x0B
    else if expl && meets (phys / 4096, 16 * n) (heldRanges x) then some 0x07
    else if expl && t == 0 && !inPool x (phys / 4096, 16 * n) then some 0x07
    else if !expl && t == 1 && !(diesOf s k).contains (fld a3 6 3) then some 0x0B
    else none

/-- MAP. -/
def mapRun (k d tag : Nat) (a : List Nat) (s : State) : State :=
  match badMap s k a with
  | some r => pgtEnd s d tag (some r)
  | none =>
    match mapPages k d (pa a 3) (mapPhys a) (pgtPages (pgtVa a) (pa a 2)) s with
    | some s' => pgtEnd s' d tag none
    | none => pgtEnd s d tag (some 0x07)

/-- The entry bits of an ATTR mask over WRITE, COW, RUNAHEAD_OK, PINNED, RIDE. -/
def attrBits (m : Nat) : Nat := 2 * fld m 0 3 + 32 * fld m 3 2

/-- Whether a checkpoint holds or copies (R342). -/
def ckpCopies (s : State) (k : Nat) : Bool :=
  let ph := fld (rd s (.ckp k) ckp_STATE) 0 3
  ph == 2 || ph == 3

/-- ATTR. -/
def attrRun (k d tag : Nat) (a : List Nat) (s : State) : State :=
  let a3 := pa a 3
  let set := fld a3 0 5
  let clr := fld a3 8 5
  let pages := pgtPages (pgtVa a) (pa a 2)
  match badRange a with
  | some r => pgtEnd s d tag (some r)
  | none =>
    if a3 ≠ set + 256 * clr ∨ set &&& clr ≠ 0 then pgtEnd s d tag (some 0x0D)
    else if pages.any (fun v => !pteValid (pteOf s k v)) then pgtEnd s d tag (some 0x04)
    else if ckpCopies s k && (set ||| clr).testBit 1 then pgtEnd s d tag (some 0x09)
    else
      pgtEnd (each pages (fun v s =>
        let e := pteOf s k v
        setPte s k v ((e ||| attrBits set) - ((e ||| attrBits set) &&& attrBits clr))) s) d tag none

/-! ## UNMAP and MIGRATE, which may wait (R214, R347) -/

/-- Whether an arm of the partition holds memory tags on a page. -/
def tagsOn (s : State) (k vpn : Nat) : Bool :=
  (diesOf s k).any (fun d => let x := getDie s d
    (x.streams ++ x.gathers).any (fun e => match e.2.arm with
      | some a => e.2.state == 1 && a.vpns.contains vpn
      | none => false))

/-- The tags that the moves of a die hold: a page in transit holds one for each KiB of its new sectors, on the die of their stack, or
of the stack that it leaves (R237, log entry 71). -/
def moveTags (s : State) (d : Nat) : Nat :=
  let x := getSlot s (slotOf s d)
  sumOf (x.transit.map (fun t =>
    let e := if pteTier t.entry = 2 then tget 0 x.ptes t.vpn else t.entry
    if fld (pteAddr e) 43 3 = d then 4 * pteSectors t.entry else 0))

/-- Whether CALIBRATE stalls the stack that a page of an entry lies on (R223). -/
def stackStalls (s : State) (e : Nat) : Bool := stalled s (pteAddr e)

/-- Whether a page must wait before its entry may go: under COW of a running checkpoint, or in transit. -/
def pageHeld (s : State) (k vpn : Nat) : Bool :=
  (ckpCopies s k && pteCow (pteOf s k vpn)) || (getSlot s k).transit.any (·.vpn == vpn)

/-- Puts a page in transit to new sectors: its contents are read, coded and stored there; the entry switches later
(R213). none: no room, or a stack that CALIBRATE stalls (R223). -/
def startMove (s : State) (k d vpn tier stack cause : Nat) : Option State :=
  let e := pteOf s k vpn
  if stackStalls s e || (tier == 1 && busy s (.mem stack)) then none else
  let q := pageRead s d e
  let r := if tier = 0 then
      match alloc q.1 k 0 (some stack) 16 with
      | (some a, s) => (some (pteAt e (a / 16 * 16) 16 false), physWrite s (a / 16 * 16 * 4096) q.2.1 (q.2.2.map (· + a / 16 * 16 * 512)))
      | (none, s) => (none, s)
    else placePage q.1 k d e tier (if tier = 1 then some stack else none) q.2.1 q.2.2
  match r with
  | (some e', s) => let x := getSlot s k; some (setSlot s k { x with transit := x.transit ++ [⟨vpn, e', cause⟩] })
  | (none, _) => none

/-- Starts the moves of a list of pages, all or none. -/
def startMoves (k d tier stack : Nat) : List Nat → State → Option State
  | [], s => some s
  | v :: vs, s => match startMove s k d v tier stack 0 with | some s => startMoves k d tier stack vs s | none => none

/-- The active command of a home page leaves it: its tag, and the state without it. -/
def pgtTake (s : State) (k d : Nat) : Nat × State :=
  (match tfind s.cmds (pageBase (.pgt d)) with | some c => c.result / 65536 | none => 0,
   setSlot { s with cmds := tdel s.cmds (pageBase (.pgt d)) } k { getSlot s k with pgtWait := none })

/-- The active command of a home page ends. -/
def pgtRelease (s : State) (k d : Nat) (reason : Option Nat) : State := let q := pgtTake s k d; pgtEnd q.2 d q.1 reason

/-- Lets a waiting UNMAP or MIGRATE go on where nothing holds its pages any more. -/
def pgtResume (s : State) (k : Nat) : State :=
  let d := homeDie s k
  match (getSlot s k).pgtWait with
  | some (op, a) =>
    let pages := pgtPages (pgtVa a) (pa a 2)
    let tier := fld (pa a 3) 0 2
    let stack := fld (pa a 3) 2 3
    if op = 4 then
      if pages.any (fun v => tagsOn s k v || pageHeld s k v) then s
      else pgtRelease (each pages (fun v s => uncapture (setPte s k v 0) k v) s) k d none
    else if op = 6 then
      if pages.any (fun v => pageHeld s k v || stackStalls s (pteOf s k v)) || (tier == 1 && busy s (.mem stack)) then s
      else match startMoves k d tier stack pages s with
        | some s => setSlot s k { getSlot s k with pgtWait := some (16, a) }
        | none => pgtRelease s k d (some 0x07)
    else if op = 16 && !pages.any (fun v => (getSlot s k).transit.any (·.vpn == v)) then pgtRelease s k d none
    else s
  | none => s

/-- UNMAP. -/
def unmapRun (k d tag : Nat) (a : List Nat) (s : State) : State :=
  let pages := pgtPages (pgtVa a) (pa a 2)
  match badRange a with
  | some r => pgtEnd s d tag (some r)
  | none =>
    if pages.any (fun v => !pteValid (pteOf s k v)) then pgtEnd s d tag (some 0x04)
    else if pages.any (fun v => ptePinned (pteOf s k v))
        && (diesOf s k).any (fun d => (rd s (.tke d) hCTRL).testBit 0) then pgtEnd s d tag (some 0x08)
    else pgtResume (pgtHold s k d tag (4, a)) k

/-- MIGRATE. -/
def migrateRun (k d tag : Nat) (a : List Nat) (s : State) : State :=
  let a3 := pa a 3
  match badRange a with
  | some r => pgtEnd s d tag (some r)
  | none =>
    if 32 ≤ a3 ∨ fld a3 0 2 = 3 then pgtEnd s d tag (some 0x0D)
    else if pgtStatic s k && activePhase (phase s k) then pgtEnd s d tag (some 0x0A)
    else if fld a3 0 2 ≠ 2 && !(diesOf s k).contains (fld a3 2 3) then pgtEnd s d tag (some 0x0B)
    else if (pgtPages (pgtVa a) (pa a 2)).any (fun v => !pteValid (pteOf s k v)) then pgtEnd s d tag (some 0x04)
    else pgtResume (pgtHold s k d tag (6, a)) k

/-- A command by its opcode. -/
def pgtRun (op : Nat) : Nat → Nat → Nat → List Nat → State → State :=
  match op with
  | 1 => initRun | 2 => regionRun | 3 => mapRun | 4 => unmapRun | 5 => attrRun | 6 => migrateRun | 7 => walkRun | 8 => poolRun
  | _ => quotaRun

def execInit (fn d tag : Nat) (s : State) : State := pgtCmd s fn d tag 1 (initRun (slotOf s d) d tag)
def execRegion (fn d tag : Nat) (s : State) : State := pgtCmd s fn d tag 2 (regionRun (slotOf s d) d tag)
def execMap (fn d tag : Nat) (s : State) : State := pgtCmd s fn d tag 3 (mapRun (slotOf s d) d tag)
def execUnmap (fn d tag : Nat) (s : State) : State := pgtCmd s fn d tag 4 (unmapRun (slotOf s d) d tag)
def execAttr (fn d tag : Nat) (s : State) : State := pgtCmd s fn d tag 5 (attrRun (slotOf s d) d tag)
def execMigrate (fn d tag : Nat) (s : State) : State := pgtCmd s fn d tag 6 (migrateRun (slotOf s d) d tag)
def execWalk (fn d tag : Nat) (s : State) : State := pgtCmd s fn d tag 7 (walkRun (slotOf s d) d tag)
def execPool (fn d tag : Nat) (s : State) : State := pgtCmd s fn d tag 8 (poolRun (slotOf s d) d tag)
def execQuota (fn d tag : Nat) (s : State) : State := pgtCmd s fn d tag 9 (quotaRun (slotOf s d) d tag)

/-- The command of a home page that waits is tried again. -/
def pgtRetry (s : State) (k : Nat) : State :=
  match (getSlot s k).pgtWait with
  | some (w, a) =>
    if w < 32 then pgtResume s k
    else if pgtStalls s k (w - 32) a then s
    else let q := pgtTake s k (homeDie s k); pgtRun (w - 32) k (homeDie s k) q.1 a q.2
  | none => s

/-! ## The migrator (R209, R210, R213) -/

/-- Every AGE_PERIOD ms: the ages of the unpinned pages of the tier-0 and tier-1 pools (R209). -/
def execMigratorSweep (k : Nat) (s : State) : State :=
  if slotUsed s k && pgtEnabled s k && (rd s (homePgt s k) hCTRL).testBit 3 && !pgtStatic s k then
    let x := getSlot s k
    let s := each (x.ptes.map (·.1)) (fun v s =>
      let e := tget 0 x.ptes v
      if pteValid e && !ptePinned e && decide (pteTier e < 2) && inPool x (pteRange e) then
        let age := if x.used.contains v then 0 else min 63 (pteAge e + 1)
        if age = pteAge e then s else setPte s k v (setFld e 8 6 age)
      else s) s
    let x := getSlot s k
    setSlot s k { x with used := [] }
  else s

/-- Whether a page comes before another in the order of demotion: larger AGE, then lower address. -/
def olderPage (a b : Nat × Nat) : Bool := pteAge b.2 < pteAge a.2 || (pteAge a.2 == pteAge b.2 && decide (a.1 ≤ b.1))

/-- The pages of a tier's pool that may be demoted, in order. -/
def demotable (x : SlotSt) (tier : Nat) : List (Nat × Nat) :=
  (x.ptes.filter (fun q => pteValid q.2 && pteTier q.2 == tier && !ptePinned q.2 && !pteCow q.2
    && inPool x (pteRange q.2) && !x.transit.any (·.vpn == q.1))).mergeSort olderPage

/-- Sectors of a tier's pool that the pages now in transit will free. -/
def freeing (x : SlotSt) (tier : Nat) : Nat :=
  sumOf (x.transit.map (fun t => let e := tget 0 x.ptes t.vpn; if pteTier e = tier && inPool x (pteRange e) then pteSectors e else 0))

/-- Puts a page of tier 0 in transit to the first of a list of stacks that can take it; a stack that CALIBRATE stalls is waited for. -/
def demoteTo (k vpn : Nat) (s : State) : List Nat → Option State
  | [] => none
  | st :: l => if busy s (.mem st) then none else match startMove s k st vpn 1 st 1 with | some s' => some s' | none => demoteTo k vpn s l

/-- Starts the demotion of one page to the next lower tier (R210); none where it cannot go now. -/
def demoteOne (k tier : Nat) (q : Nat × Nat) (s : State) : Option State :=
  let own := fld (pteAddr q.2) 43 3
  if tier = 0 then demoteTo k q.1 s (own :: (diesOf s k).filter (· != own)) else startMove s k own q.1 2 0 1

/-- Demotes pages in their order until the free sectors of a tier's pool, those being freed included, reach the high mark. A page that
cannot go now is waited for: none goes before it. -/
def demoteAll (k tier high : Nat) : List (Nat × Nat) → State → State
  | [], s => s
  | q :: l, s =>
    if high ≤ freeSectors (getSlot s k) tier + freeing (getSlot s k) tier then s
    else match demoteOne k tier q s with | some s' => demoteAll k tier high l s' | none => s

/-- The demotions of a tier below its low mark. POOL_LOW: the pool stays below it and no page is left to demote (R220). -/
def demoteTier (k tier low high : Nat) (s : State) : State :=
  let x := getSlot s k
  if low ≤ freeSectors x tier + freeing x tier then s
  else
    let s := demoteAll k tier high (demotable x tier) s
    let x := getSlot s k
    if freeSectors x tier + freeing x tier < low ∧ demotable x tier = [] then raise s (homePgt s k) 2 else s

def execDemotion (k : Nat) (s : State) : State :=
  if slotUsed s k && pgtEnabled s k && !pgtStatic s k then
    let p := homePgt s k
    let s := demoteTier k 0 (rd s p pgt_T0_LOW) (rd s p pgt_T0_HIGH) s
    demoteTier k 1 (rd s p pgt_T1_LOW) (rd s p pgt_T1_HIGH) s
  else s

/-- A page in transit switches: one write of the entry, with the attributes that it has by then (R213, R214). -/
def execPageSwitch (k vpn : Nat) (s : State) : State :=
  let x := getSlot s k
  match x.transit.find? (·.vpn == vpn) with
  | none => s
  | some t =>
    let s := setSlot s k { x with transit := x.transit.filter (·.vpn != vpn) }
    let s := setPte s k vpn (pteAt (pteOf s k vpn) (pteSector t.entry) (pteSectors t.entry) (pteCoded t.entry))
    let s := match t.cause with
      | 1 => bump s (homePgt s k) pgt_DEMOTE_COUNT 1
      | 2 => bump s (homePgt s k) pgt_PROMOTE_COUNT 1
      | _ => s
    pgtRetry s k

/-! ## The MEM page (R222 to R224, R366) -/

/-- CALIBRATE works: its page is busy until it completes. -/
def calibrate (s : State) (d : Nat) : State := finishLong s (.mem d) 0 0 2

/-- CALIBRATE has completed: its outcome is the PHY's (log entry 4). A command of the PGT that waited for the stack goes on. -/
def calibrated (s : State) (d : Nat) : State :=
  let p : Page := .mem d
  let q := drawNat s
  let s := wr q.2 p mem_CAL_STATUS (q.1 % 2 + 65536 * min 0xFFFF (rd s p mem_CAL_STATUS / 65536 + 1))
  let x := getDie s d
  pgtRetry (setDie s d { x with calTemp := rd s p mem_TEMP % 256 }) (slotOf s d)

def execMemCalibrate (fn d tag : Nat) (s : State) : State :=
  hostCmd s fn (.mem d) fun s => calibrate (startLong s (.mem d) tag) d

/-- Every 1 s the stack's on-die corrections are added (R366). -/
def execOdeccPoll (d count : Nat) (s : State) : State := bump s (.mem d) mem_ODECC_CE count

/-- The limit of a stack's temperature (R431): 95 °C. -/
def stackLimit : Nat := 95

/-- Every 1 ms MEM.TEMP takes the sensor's temperature (R222). -/
def execMemTempUpdate (d temp : Nat) (s : State) : State :=
  let s := wr s (.mem d) mem_TEMP (temp % 256)
  if stackLimit ≤ temp % 256 then raise s (.mem d) 4 else s

end Sys2Proof.Machine
end

