-- ==== Sys2Proof/Machine/Area.lean ====
section
/-! DEFINITION. Machine/Area.lean: the local area of a checkpoint and the copies of pages in it (R340, R342, R344, R345), the
end of a checkpoint that fails. -/
namespace Sys2Proof.Machine

/-- CKP.STATE.PHASE: 0 IDLE, 1 ARMED, 2 HOLD, 3 COPYING, 4 RESTORING, 5 VERIFYING, 6 EXPOSING. -/
def ckPhase (s : State) (k : Nat) : Nat := fld (rd s (.ckp k) ckp_STATE) 0 3

def setCkPhase (s : State) (k v : Nat) : State := wrFld s (.ckp k) ckp_STATE 0 3 v

def getCk (s : State) (k : Nat) : CkSt := (getSlot s k).ck

def setCk (s : State) (k : Nat) (x : CkSt) : State := setSlot s k { getSlot s k with ck := x }

/-- CKP.SLOT_n_STATE.STATE: 0 EMPTY, 1 WRITING, 2 COMPLETE, 3 LOCAL_ONLY, 4 FAILED. -/
def ckSlot (s : State) (k n : Nat) : Nat := fld (rd s (.ckp k) (ckp_SLOT_n_STATE + 16 * n)) 0 3

def setCkSlot (s : State) (k n v : Nat) : State := wrFld s (.ckp k) (ckp_SLOT_n_STATE + 16 * n) 0 3 v

/-- Sectors of a stack's part of a slot. -/
def areaSectors (s : State) (k : Nat) : Nat := 16 * (rd s (.ckp k) ckp_AREA_SIZE % 65536)

/-- Physical address of slot n's part on a stack. -/
def areaPart (s : State) (k n st : Nat) : Nat :=
  hbmAddr st (65536 * (rd s (.ckp k) ckp_AREA_OFF % 2 ^ 19 + n * (rd s (.ckp k) ckp_AREA_SIZE % 65536)))

/-- The captured pages that still hold their capture, as copies. -/
def liveCaps (s : State) (k : Nat) : List CkPage :=
  ((getCk s k).caps.filter (fun e => (getSlot s k).captured.contains e.1)).map (·.2)

/-- The sectors of a stack's part that copies and the record take. -/
def areaUsed (s : State) (k st : Nat) : List (Nat × Nat) :=
  let x := getCk s k
  (if st = homeDie s k ∧ 0 < x.record.length then [(0, cdiv x.record.length 4096)] else [])
    ++ ((liveCaps s k ++ x.pages.filter (·.made)).filter (·.stack == st)).map (fun p => (p.sector, p.sectors))

/-- A place for n sectors: the record lies at the start of the part, copies from its end downward (log entry 40). -/
def areaPlace (s : State) (k st n : Nat) : Option Nat :=
  let free := (areaUsed s k st).foldl (fun l u => l.flatMap (without u)) [(0, areaSectors s k)]
  ((free.filter (fun r => decide (n ≤ r.2))).getLast?).map (fun r => r.1 + r.2 - n)

/-- The stack that takes the local copy of a page. -/
def copyStack (s : State) (k e : Nat) : Nat := if pteTier e < 2 then fld (pteAddr e) 43 3 else homeDie s k

/-- The copy of a page as stored bytes (none: raw), its decoded bytes and bad words, a hub buffer's among them (R363): a sound page
stored coded is copied as it stands, another one is coded where that is shorter (R342, log entry 41). -/
def copyForm (s : State) (k e : Nat) : State × Option (List Byte) × List Byte × List Nat :=
  let h := hubBad s pageSize
  let plain := fun (s : State) =>
    let r := pageRead s (homeDie s k) e
    let bad := r.2.2 ++ h.2
    (r.1, coderForm r.1 (copyStack s k e) r.2.1 bad, r.2.1, bad)
  if pteCoded e && h.2.isEmpty then
    let r := physRead h.1 (pteAddr e) (4096 * pteSectors e)
    if r.2.2.isEmpty then (r.1, some r.2.1, decodePage r.2.1, []) else plain r.1
  else plain h.1

/-- Makes the local copy of a page; none where its part of the slot is full. -/
def copyPage (s : State) (k vpn : Nat) : Option (State × CkPage) :=
  let e := pteOf s k vpn
  let st := copyStack s k e
  let r := copyForm s k e
  let n := match r.2.1 with | some c => codedSectors c | none => 16
  (areaPlace r.1 k st n).map (fun sec =>
    let a := areaPart r.1 k (getCk s k).slot st + 4096 * sec
    let s' := match r.2.1 with
      | some c => physWrite r.1 a c []
      | none => physWrite r.1 a r.2.2.1 (r.2.2.2.map (· + a / 8))
    (s', { vpn := vpn, ride := pteRide e, coded := r.2.1.isSome, poison := !r.2.2.2.isEmpty, sectors := n, tier := pteTier e,
           stack := st, crc := crc64 r.2.2.1, sector := sec, made := true, buddy := 0 }))

/-- Clears COW of a page. -/
def clearCow (k vpn : Nat) (s : State) : State :=
  let e := pteOf s k vpn
  if pteCow e then setPte s k vpn (setFld e 2 1 0) else s

/-- Drops the captures of a slot. -/
def dropCaptures (s : State) (k : Nat) : State :=
  let x := getSlot s k
  setSlot s k { x with captured := [], ck := { x.ck with caps := [] } }

/-- The checkpoint of a slot fails with a reason: FAILED, every COW that it set cleared, LAST unchanged (R344). -/
def ckFail (s : State) (k reason : Nat) : State :=
  let x := getCk s k
  let s := setCkPhase (setCkSlot s k x.slot 4) k 0
  let s := each (x.pages.map (·.vpn)) (clearCow k) s
  let s := setCk (dropCaptures s k) k { getCk s k with pages := [], record := [] }
  let s := raise s (.ckp k) 2
  let s := if busy s (.ckp k) then finishLong s (.ckp k) 0x14 reason 0x20 else s
  let y := getSlot s k
  pgtRetry (setSlot s k { y with cowNext := [] }) k

end Sys2Proof.Machine
end

