-- ==== Sys2Proof/Machine/Mesh.lean ====
section
/-! DEFINITION. Machine/Mesh.lean: the paths that a token takes inside the module (R11, R253, R285 to R297): routers out of
service and their detours, stations, edge rings, saddles and transit lanes, and how far the tokens in flight have come. -/
namespace Sys2Proof.Machine

/-! ## Places

Sides and stations are numbered in the direction of R289: 0 north, 1 east, 2 south, 3 west. Coordinates are those of R12 plus
one, so that the stations lie at x = 0, x = 25, y = 0 and y = 17. -/

/-- One piece of a path, by what sends over it: a unit into its own network port, a site to its neighbour or over its edge link,
a station to a boundary site, a station to the next one on the edge ring, a saddle toward the higher die number or the hub
(`up`) with the slot whose flits it carries, and the transit lane of an edge die. -/
inductive Hop where
  | sender (core die mod : Nat)
  | mesh (die site side : Nat)
  | enter (die site side : Nat)
  | ring (die station : Nat) (clockwise : Bool)
  | saddle (n : Nat) (up : Bool) (slot : Nat)
  | transit (die : Nat) (up : Bool)
  deriving DecidableEq, Repr

/-- A piece of a path, and whether it is travelled in the detour class. -/
abbrev Leg := Hop × Bool

/-- What a side of a die leads to: its stack, nothing, a saddle to another die, or a spoke to the hub. -/
inductive Side where
  | stack (n : Nat)
  | rim
  | saddle (n die : Nat)
  | spoke (n : Nat)
  deriving DecidableEq, Repr

/-- The table of R293. -/
def sideOf (d side : Nat) : Side :=
  if side = 0 then .stack d
  else if d % 2 = 1 then (if side = 1 then .saddle d ((d + 1) % 8) else if side = 2 then .spoke (8 + d / 2) else .saddle (d - 1) (d - 1))
  else if d % 4 = 0 then (if side = 1 then .rim else if side = 2 then .saddle d (d + 1) else .saddle ((d + 7) % 8) ((d + 7) % 8))
  else if side = 1 then .saddle d (d + 1) else if side = 2 then .saddle (d - 1) (d - 1) else .rim

/-- The station of a die that leads to a neighbouring die. -/
def stationTo (d e : Nat) : Nat :=
  ((List.range 4).find? (fun i => match sideOf d i with | .saddle _ f => f == e | _ => false)).getD 0

/-- A place on a die that paths begin or end at: a site by its coordinates, or a station. -/
inductive Spot where
  | site (x y : Nat)
  | station (n : Nat)
  deriving DecidableEq, Repr

def spotOfSite (site : Nat) : Nat × Nat := (site % 24 + 1, site / 24 + 1)
def siteOfSpot (x y : Nat) : Nat := (y - 1) * 24 + (x - 1)

/-- Whether coordinates lie beyond the die's edge. -/
def offDie (x y : Nat) : Bool := x == 0 || y == 0 || decide (24 < x) || decide (16 < y)

/-! ## Routers out of service (R290, R291) -/

/-- A box of sites, by its corners. -/
structure Box where
  x0 : Nat
  y0 : Nat
  x1 : Nat
  y1 : Nat
  deriving DecidableEq, Repr

def Box.has (b : Box) (x y : Nat) : Bool := decide (b.x0 ≤ x ∧ x ≤ b.x1 ∧ b.y0 ≤ y ∧ y ≤ b.y1)

/-- The routers that the factory fuse map or an entry of the field-repair log in effect marks as out of service. -/
def routersOut (s : State) (d : Nat) : List Nat :=
  (s.fuses.routers.filter (fun k => k / 384 == d)).map (· % 384)
    ++ (s.repairs.filter (fun r => r.kind == 4 && r.die == d && !r.pending)).map (·.site)

/-- Whether two sites touch along X or Y. -/
def touching (a b : Nat) : Bool :=
  (a / 24 == b / 24 && (a + 1 == b || b + 1 == a)) || (a % 24 == b % 24 && (a + 24 == b || b + 24 == a))

/-- The sites of a list that hang together with a group. -/
def growGroup : Nat → List Nat → List Nat → List Nat
  | 0, g, _ => g
  | fuel + 1, g, rest =>
    match rest.filter (fun a => !g.contains a && g.any (touching a)) with
    | [] => g
    | more => growGroup fuel (g ++ more) rest

/-- The bounding box of a group. -/
def boxOf (g : List Nat) : Box :=
  let xs := g.map (fun a => (spotOfSite a).1)
  let ys := g.map (fun a => (spotOfSite a).2)
  ⟨xs.foldl min 24, ys.foldl min 16, maxOf xs, maxOf ys⟩

/-- The boxes of the routers out of service of a die. -/
def boxes (s : State) (d : Nat) : List Box :=
  let l := routersOut s d
  (l.map (fun a => boxOf (growGroup l.length [a] l))).eraseDups

/-- Whether a router is treated as out of service. -/
def outAt (bs : List Box) (x y : Nat) : Bool := bs.any (·.has x y)

/-- Whether two boxes keep a row or a column of sites between them. -/
def apart (a b : Box) : Bool := decide (a.x1 + 1 < b.x0 ∨ b.x1 + 1 < a.x0 ∨ a.y1 + 1 < b.y0 ∨ b.y1 + 1 < a.y0)

/-- The check of R291 on the boxes of a die. -/
def boxesHold (bs : List Box) : Bool :=
  bs.all (fun b => decide (b.x1 ≤ b.x0 + 1 ∧ b.y1 ≤ b.y0 + 1)) && bs.all (fun a => bs.all (fun b => a == b || apart a b))

/-! ## Paths on a die (R286, R289, R290) -/

/-- A straight run of n hops from a site, ended where it leaves the die: the legs and the place it reaches. -/
def straight (d side : Nat) (detour : Bool) : Nat → Nat → Nat → List Leg × Nat × Nat
  | 0, x, y => ([], x, y)
  | n + 1, x, y =>
    if offDie x y then ([], x, y)
    else
      let q := match side with | 0 => (x, y - 1) | 1 => (x + 1, y) | 2 => (x, y + 1) | _ => (x - 1, y)
      let r := straight d side detour n q.1 q.2
      ((.mesh d (siteOfSpot x y) side, detour) :: r.1, r.2)

/-- A run along a column to a row, or along a row to a column. -/
def toRow (d : Nat) (x y row : Nat) : List Leg × Nat × Nat :=
  if y ≤ row then straight d 2 true (row - y) x y else straight d 0 true (y - row) x y
def toCol (d : Nat) (x y col : Nat) : List Leg × Nat × Nat :=
  if x ≤ col then straight d 1 true (col - x) x y else straight d 3 true (x - col) x y

/-- The path from a place to another on a die: X first, then Y, with the detours of R290. A goal beyond the edge is left for at
the edge link. -/
def meshPath (d : Nat) (bs : List Box) (gx gy : Nat) : Nat → Bool → Nat → Nat → List Leg
  | 0, _, _, _ => []
  | fuel + 1, detour, x, y =>
    if offDie x y ∨ (x = gx ∧ y = gy) then []
    else if x ≠ gx then
      let side := if x < gx then 1 else 3
      let nx := if x < gx then x + 1 else x - 1
      match bs.find? (·.has nx y) with
      | none => (.mesh d (siteOfSpot x y) side, detour) :: meshPath d bs gx gy fuel detour nx y
      | some b =>
        let row := if b.y1 < gy ∨ (b.y0 ≤ gy ∧ gy ≤ b.y1 ∧ b.y0 = 1) then b.y1 + 1 else b.y0 - 1
        let q := toRow d x y row
        q.1 ++ meshPath d bs gx gy fuel true q.2.1 q.2.2
    else
      let side := if y < gy then 2 else 0
      let ny := if y < gy then y + 1 else y - 1
      match bs.find? (·.has x ny) with
      | none => (.mesh d (siteOfSpot x y) side, detour) :: meshPath d bs gx gy fuel detour x ny
      | some b =>
        let q := toCol d x y (if 1 < b.x0 then b.x0 - 1 else b.x1 + 1)
        let r := toRow d q.2.1 q.2.2 (if y < gy then b.y1 + 1 else b.y0 - 1)
        let t := toCol d r.2.1 r.2.2 x
        q.1 ++ r.1 ++ t.1 ++ meshPath d bs gx gy fuel true t.2.1 t.2.2

/-- The boundary site by which a token from a station comes in: the one in its destination's row or column, or else the nearest
in service on that side, the lower index winning a tie. -/
def entrySpot (bs : List Box) (station x y : Nat) : Nat × Nat :=
  let at_ := fun i => match station with | 0 => (i, 1) | 1 => (24, i) | 2 => (i, 16) | _ => (1, i)
  let want := if station % 2 = 0 then x else y
  let last := if station % 2 = 0 then 24 else 16
  let near := (List.range 24).flatMap (fun k => [want - k, want + k])
  at_ ((near.find? (fun i => decide (1 ≤ i ∧ i ≤ last) && !outAt bs (at_ i).1 (at_ i).2)).getD want)

/-- The edge ring between two stations: the shorter way, on a tie north, east, south, west. -/
def ringPath (d a b : Nat) : List Leg :=
  match (b + 4 - a) % 4 with
  | 0 => []
  | 1 => [(.ring d a true, false)]
  | 2 => [(.ring d a true, false), (.ring d ((a + 1) % 4) true, false)]
  | _ => [(.ring d a false, false)]

/-- Hops that a path on one die can have at most. -/
def hopFuel : Nat := 100

/-- The path between two places of a die. -/
def diePath (s : State) (d : Nat) (a b : Spot) : List Leg :=
  let bs := boxes s d
  match a, b with
  | .site x y, .site gx gy => meshPath d bs gx gy hopFuel false x y
  | .site x y, .station n =>
    let g := match n with | 0 => (x, 0) | 1 => (25, y) | 2 => (x, 17) | _ => (0, y)
    meshPath d bs g.1 g.2 hopFuel false x y
  | .station n, .site gx gy =>
    let e := entrySpot bs n gx gy
    (.enter d (siteOfSpot e.1 e.2) n, false) :: meshPath d bs gx gy hopFuel false e.1 e.2
  | .station m, .station n => ringPath d m n

/-! ## Paths between dies (R11, R253, R293, R294) -/

/-- Whether the ring saddle between a die and the next is open to a slot's own traffic. -/
def saddleOpen (s : State) (k n : Nat) : Bool := slotOf s n == k && slotOf s ((n + 1) % 8) == k

/-- The dies that a token of a slot passes, both ends included: fewer saddles first, a tie in ascending order. -/
def dieRoute (s : State) (k a b : Nat) : List Nat :=
  let f := (b + 8 - a) % 8
  let up := (List.range f).all (fun i => saddleOpen s k ((a + i) % 8))
  let down := (List.range (8 - f)).all (fun i => saddleOpen s k ((b + i) % 8))
  if up && (decide (f ≤ 4) || !down) then (List.range (f + 1)).map (fun i => (a + i) % 8)
  else (List.range (9 - f)).map (fun i => (a + 8 - i) % 8)

/-- The saddle from a die to a neighbour on the ring. -/
def ringSaddle (k a b : Nat) : Leg := if (a + 1) % 8 = b then (.saddle a true k, false) else (.saddle b false k, false)

/-- The path over the dies of a route, from a place on the first to a place on the last. -/
def overDies (s : State) (k : Nat) (goal : Spot) : Spot → List Nat → List Leg
  | _, [] => []
  | here, [d] => diePath s d here goal
  | here, d :: e :: rest =>
    diePath s d here (.station (stationTo d e)) ++ ringSaddle k d e :: overDies s k goal (.station (stationTo e d)) (e :: rest)

/-- From a place on a die to the hub: over the die's own spoke, or over the transit lane of the next die. -/
def toHub (s : State) (k d : Nat) (a : Spot) : List Leg :=
  if d % 2 = 1 then diePath s d a (.station 2) ++ [(.saddle (8 + d / 2) true k, false)]
  else diePath s d a (.station (stationTo d (d + 1)))
    ++ [(.saddle d true k, false), (.transit (d + 1) true, false), (.saddle (8 + d / 2) true k, false)]

/-- From the hub to a place on a die, the same way. -/
def fromHub (s : State) (k d : Nat) (b : Spot) : List Leg :=
  if d % 2 = 1 then (.saddle (8 + d / 2) false k, false) :: diePath s d (.station 2) b
  else [(.saddle (8 + d / 2) false k, false), (.transit (d + 1) false, false), (.saddle d false k, false)]
    ++ diePath s d (.station (stationTo d (d + 1))) b

/-- The local site of a tract at which its endpoints sit (R289). -/
def tractSeat (s : State) (d t : Nat) : Nat × Nat :=
  let at_ := fun ls => (t % 6 * 4 + ls % 4 + 1, t / 6 * 4 + ls / 4 + 1)
  at_ (((List.range 16).find? (fun ls => !outAt (boxes s d) (at_ ls).1 (at_ ls).2)).getD 0)

/-- Where an endpoint of a compute die sits (R287, R289); a value that names none is looked for at the north station. -/
def seat (s : State) (d core : Nat) : Spot :=
  if core < 360 then (match siteOf s d core with | some a => .site (spotOfSite a).1 (spotOfSite a).2 | none => .station 0)
  else if 0x170 ≤ core ∧ core < 0x1B8 then
    let q := tractSeat s d ((core - 0x170) % 24)
    .site q.1 q.2
  else .station 0

/-- Whether a value names an endpoint of a compute die, and of the hub (R287, R288). -/
def dieEndpoint (core : Nat) : Bool := decide (core < 0x16E) || decide (0x170 ≤ core ∧ core < 0x1B8)
def hubEndpoint (core : Nat) : Bool := decide (0x168 ≤ core ∧ core < 0x193)

/-- The path of a token inside the module, by its header alone: of one from another module, from the hub (R286, R294). -/
def pathOf (s : State) (k : Nat) (t : Token) : List Leg :=
  let a := if t.src.mod = moduleNo s then t.src.die else 8
  let b := if t.dest.mod = moduleNo s then t.dest.die else 8
  (.sender t.src.core t.src.die t.src.mod, false) ::
    (if a < 8 then
      (if b < 8 then overDies s k (seat s b t.dest.core) (seat s a t.src.core) (if a = b then [a] else dieRoute s k a b)
       else toHub s k a (seat s a t.src.core))
     else if b < 8 then fromHub s k b (seat s b t.dest.core) else [])

/-! ## Buffers (R97, R253, R285, R295)

A flit goes on while the next buffer of its channel has room, and a token stays behind what stands in its own buffer, so the
order of the tokens in flight says where every flit is: the buffers are read off `State.net`. The passage itself takes no time
in the model (log entry 58). -/

/-- Flits that the buffer of a leg holds: the input ports of R285; a saddle with FAILED set carries none (R420); of the other
buffers the spec gives no size, but at least one flit. -/
def roomOf (s : State) (l : Leg) (vc : Nat) : Nat :=
  match l.1 with
  | .sender _ _ _ => 0
  | .mesh _ _ _ | .enter _ _ _ => if l.2 then 2 else if vc = 0 then 4 else 8
  | .ring _ _ _ => Config.linkRoom 0 vc + 1
  | .saddle n _ _ => if (rd s .hub (hub_SADDLE_k_STATE + 16 * n)).testBit 7 then 0 else Config.linkRoom 1 vc + 1
  | .transit _ _ => Config.linkRoom 2 vc + 1

/-- Flits in the buffers by leg and channel. -/
abbrev Flits := List ((Leg × Nat) × Nat)

def flitsAt (o : Flits) (l : Leg) (vc : Nat) : Nat := sumOf ((o.filter (fun e => e.1 == (l, vc))).map (·.2))

/-- The legs of a token's path up to the one where its header stands, the foremost first. -/
def header (s : State) (vc : Nat) (o : Flits) : List Leg → List Leg → List Leg
  | back, [] => back
  | back, l :: rest =>
    match rest with
    | [] => l :: back
    | m :: _ => if 0 < flitsAt o l vc ∨ roomOf s m vc ≤ flitsAt o m vc then l :: back else header s vc o (l :: back) rest

/-- Places the flits of a token from its header back; what no buffer takes is still with its sender. -/
def layFlits (s : State) (vc : Nat) : Nat → List Leg → Flits → Flits
  | _, [], o => o
  | n, [l], o => if n = 0 then o else o ++ [((l, vc), n)]
  | n, l :: back, o =>
    if n = 0 then o
    else
      let m := if n = 1 then 1 else min n (max 1 (roomOf s l vc - flitsAt o l vc))
      layFlits s vc (n - m) back (o ++ [((l, vc), m)])

/-- Whether the header of each token of a list has come to the end of its path with nothing before it, and the buffers behind
them all. -/
def flow (s : State) : List Flight → Flits → List Bool × Flits
  | [], o => ([], o)
  | f :: rest, o =>
    let path := pathOf s f.pslot f.tok
    let h := header s f.tok.vc o [] path
    let r := flow s rest (layFlits s f.tok.vc (1 + f.tok.length) h o)
    ((h.length == path.length && h.head?.all (fun l => flitsAt o l f.tok.vc == 0)) :: r.1, r.2)

/-- Whether the n-th token in flight has come to the end of its path, to be taken by the unit there. -/
def reached (s : State) (n : Nat) : Bool := ((flow s (s.net.take (n + 1)) []).1[n]?).getD false

/-- Two tokens of one source, destination and channel keep their order (R286). -/
def samePath (a b : Token) : Bool := a.src == b.src && a.dest == b.dest && a.vc == b.vc

/-- The n-th token in flight, if it has come to the end of its path, at its unit or at the hub on its way out, and no earlier one of
its path is still in flight. -/
def pathEnd (s : State) (n : Nat) : Option Flight :=
  match s.net[n]? with
  | some f => if (s.net.take n).any (fun g => samePath g.tok f.tok) || !reached s n then none else some f
  | none => none

/-- The n-th token in flight, if a unit of this module can take it. -/
def arriving (s : State) (n : Nat) : Option Flight := (pathEnd s n).filter (fun f => f.tok.dest.mod == moduleNo s)

/-- Takes the n-th token out of the network. -/
def netTake (s : State) (n : Nat) : State := { s with net := ldel s.net n }

/-- Flits that a core has still to send of tokens whose header has left it. -/
def unsent (s : State) (e : End) (vc : Nat) : Nat := flitsAt (flow s s.net []).2 (.sender e.core e.die e.mod, false) vc

/-- Tokens of a core in flight that have not left it whole. -/
def leaving (s : State) (e : End) : Nat := ((List.range 3).filter (fun vc => decide (0 < unsent s e vc))).length

/-- Whether the header of a token can leave its sender now (R94, R97). -/
def canLeave (s : State) (f : Flight) : Bool :=
  let o := (flow s s.net []).2
  let path := pathOf s f.pslot f.tok
  match path with
  | a :: m :: _ => flitsAt o a f.tok.vc == 0 && decide (flitsAt o m f.tok.vc < roomOf s m f.tok.vc)
  | _ => true

/-- Flits held in the output buffer of a side of a site, all channels (R274). -/
def linkDepth (o : Flits) (d site side : Nat) : Nat :=
  sumOf ((o.filter (fun e => match e.1.1.1 with | .mesh a b c => a == d && b == site && c == side | _ => false)).map (·.2))

/-- The boundary site nearest to the station that receives a token for a die: of a token of the same die its way out to the
north, of another the site by which it would come in (R287, log entry 58). -/
def stationSite (s : State) (k : Nat) (t : Token) : Nat :=
  let p := pathOf s k t
  match (p.filterMap (fun l => match l.1 with | .mesh d a _ => some (d, a) | .enter d a _ => some (d, a) | _ => none)).getLast? with
  | some (d, a) => if d = t.dest.die then a else 0
  | none => 0

end Sys2Proof.Machine
end

