-- ==== Sys2Proof/Machine/Links.lean ====
section
/-! DEFINITION. Machine/Links.lean: how a token enters the mesh or leaves the module (R253, R287, R297 to R307): token bytes,
routes, the flits of a Flidric port. -/
namespace Sys2Proof.Machine

/-! ## Tokens as bytes (R96, R177) -/

/-- The 32-bit form of an endpoint. -/
def endWord (e : End) : Nat := e.core % 512 + 512 * (e.die % 16) + 8192 * (e.mod % 2 ^ 18)

def endOf (w : Nat) : End := ⟨fld w 0 9, fld w 9 4, fld w 13 18⟩

/-- Whether a kind carries OFFSET and DCOUNT rather than INFO. -/
def dataKind (k : Nat) : Bool := k == 0 || k == 1

/-- A token's header flit and payload. -/
def tokenBytes (t : Token) : List Byte :=
  toBytes 1 (t.vc + 4 * t.kind) ++ toBytes 1 (t.epoch + 16 * t.slot) ++ toBytes 1 (t.length + 128 * b2n t.arm)
    ++ toBytes 1 t.tag ++ toBytes 4 (endWord t.dest) ++ toBytes 4 (endWord t.src)
    ++ (if dataKind t.kind then toBytes 2 t.offset ++ toBytes 2 t.dcount else toBytes 4 t.dcount)
    ++ toBytes 4 t.sample ++ toBytes 4 t.value ++ List.replicate 8 0 ++ t.payload

/-- The token that bytes spell. -/
def tokenFrom (bs : List Byte) : Token :=
  let kind := fld (bytesAt bs 0 1) 2 4
  { vc := fld (bytesAt bs 0 1) 0 2, kind := kind, epoch := fld (bytesAt bs 1 1) 0 4, slot := fld (bytesAt bs 1 1) 4 4,
    length := bytesAt bs 2 1 % 128, arm := (bytesAt bs 2 1).testBit 7, tag := bytesAt bs 3 1 % 32,
    dest := endOf (bytesAt bs 4 4), src := endOf (bytesAt bs 8 4),
    offset := if dataKind kind then bytesAt bs 12 2 % 2 ^ 15 else 0,
    dcount := if dataKind kind then bytesAt bs 14 2 % 2 ^ 15 else bytesAt bs 12 4,
    sample := bytesAt bs 16 4, value := bytesAt bs 20 4, payload := bs.drop 32 }

/-! ## Ports (R299 to R303) -/

/-- FLD.STATE.STATE: 0 OFF, 1 TRAINING, 2 UP, 3 MAINT, 4 DOWN. -/
def portState (s : State) (p : Nat) : Nat := fld (rd s (.fld p) fld_STATE) 0 3

def setPortState (s : State) (p v : Nat) : State := wrFld s (.fld p) fld_STATE 0 3 v

/-- The route page of a slot. -/
def routePage (k : Nat) : Page := .fld (16 + k)

/-- The key of a stream: VC × 2 + CLASS. -/
def streamKey (vc cls : Nat) : Nat := vc * 2 + cls

/-- Credits that a stream has from the start: its receive buffer of R300, in flits. -/
def creditCap (key : Nat) : Nat := if key / 2 = 0 then 16 else 256

def credits (x : PortSt) (key : Nat) : Nat := tget (creditCap key) x.credit key

/-- Payload bytes of a flit. -/
def flitRoom : Nat := 242

/-- The 256 bytes of a flit. The sender's ACK is the last in-order flit it has received. -/
def flitBytes (s : State) (p : Nat) (x : PortSt) (vc cls seq credit : Nat) (hb nak : Bool) (payload : List Byte) :
    List Byte :=
  let ack := (x.expect + 4095) % 4096
  let h := toBytes 1 (vc + 4 * cls + 8 * b2n hb + 16 * b2n nak) ++ toBytes 2 seq ++ toBytes 2 ack ++ toBytes 1 credit
    ++ toBytes 1 payload.length ++ toBytes 3 (if hb then moduleNo s + 2 ^ 18 * p else 0)
    ++ payload ++ List.replicate (flitRoom - payload.length) 0
  h ++ toBytes 4 (crc32 h)

/-- The credits that a flit of a CLASS returns, at most 63, those of the lowest channel that owes any: CVC names the channel, and
the flit's CLASS the stream (log entry 48). -/
def nextCredit (x : PortSt) (cls : Nat) : Nat × PortSt :=
  match (List.range 3).find? (fun v => decide (0 < tget 0 x.owed (streamKey v cls))) with
  | some v =>
    let n := min (tget 0 x.owed (streamKey v cls)) 63
    (v + 4 * n, { x with owed := tset 0 x.owed (streamKey v cls) (tget 0 x.owed (streamKey v cls) - n) })
  | none => (0, x)

/-- CLASS of a flit that carries no payload: that of the stream that waits for credit. -/
def idleClass (x : PortSt) : Nat := b2n ((List.range 3).all (fun v => tget 0 x.owed (streamKey v 0) == 0))

/-- Sends a flit that no replay keeps (VC NONE): a heartbeat, an ACK or a NAK. -/
def sendNone (s : State) (p : Nat) (hb nak : Bool) : State :=
  let c := idleClass (getPort s p)
  let q := nextCredit (getPort s p) c
  let f := flitBytes s p q.2 3 c 0 q.1 hb nak []
  bump (setPort s p { q.2 with wire := q.2.wire ++ [f], unanswered := 0 }) (.fld p) fld_TX_FLITS 1

/-- The bytes of a stream that the next flit takes from the queue: payload, the rest of the queue, and what ends in it. -/
def takeBytes (vc cls : Nat) : Nat → List TxItem → List Byte × List TxItem × List (Option Flight)
  | _, [] => ([], [], [])
  | room, i :: is =>
    if i.vc ≠ vc ∨ i.cls ≠ cls ∨ room = 0 then
      let q := takeBytes vc cls room is
      (q.1, i :: q.2.1, q.2.2)
    else if i.bytes.length ≤ room then
      let q := takeBytes vc cls (room - i.bytes.length) is
      (i.bytes ++ q.1, q.2.1, i.own :: q.2.2)
    else (i.bytes.take room, { i with bytes := i.bytes.drop room } :: is, [])

/-- The stream that the next flit serves: CTRL first, then DATA and COLL in turn, a stream without credit left out (R300). -/
def nextStream (x : PortSt) : Option (Nat × Nat) :=
  let first := fun vc => (x.queue.find? (fun i => i.vc == vc && decide (0 < credits x (streamKey vc i.cls)))).map (fun i => (vc, i.cls))
  match first 0 with
  | some q => some q
  | none =>
    if x.lastColl then (match first 1 with | some q => some q | none => first 2)
    else (match first 2 with | some q => some q | none => first 1)

/-- Forms and sends one flit, if a stream has bytes and credit and the replay buffer of 512 has room; in life-cycle state
DIAGNOSTIC the ports carry no payload (R383). -/
def sendFlit (s : State) (p : Nat) : Option State :=
  let x := getPort s p
  if 512 ≤ x.replay.length || rd s .lcs lcs_STATE % 8 == 3 then none
  else
    match nextStream x with
    | none => none
    | some (vc, cls) =>
      let t := takeBytes vc cls flitRoom x.queue
      let key := streamKey vc cls
      let q := nextCredit { x with queue := t.2.1, credit := tset (creditCap key) x.credit key (credits x key - 1), unanswered := 0,
                                   lastColl := if vc = 0 then x.lastColl else vc == 2, seq := (x.seq + 1) % 4096 } cls
      let f := flitBytes s p q.2 vc cls x.seq q.1 false false t.1
      let y := { q.2 with replay := q.2.replay ++ [⟨x.seq, vc, cls, q.1, t.1, t.2.2⟩], wire := q.2.wire ++ [f] }
      some (bump (setPort s p y) (.fld p) fld_TX_FLITS 1)

/-- Sends flits while a port in UP can; the first argument bounds their number. -/
def flush : Nat → Nat → State → State
  | 0, _, s => s
  | fuel + 1, p, s =>
    if portState s p = 2 then (match sendFlit s p with | some s => flush fuel p s | none => s) else s

def portFlush (s : State) (p : Nat) : State := flush 512 p s

/-- Tokens and segments that a port holds to send. -/
def portHolds (x : PortSt) : List (Option Flight) := x.queue.map (·.own) ++ x.replay.flatMap (·.ends)

/-- A port drops every flit it holds and counts the tokens and segments (R303). -/
def portDrop (s : State) (p : Nat) : State :=
  let x := getPort s p
  let s := bump s (.fld p) fld_DISCARDED (portHolds x).length
  setPort s p { PortSt.reset with inbox := x.inbox, wire := x.wire }

/-- Bytes leave a stream's receive buffer: the flits that they empty are credit to return (R300). -/
def freeFlits : Nat → List Nat → Nat × List Nat
  | _, [] => (0, [])
  | n, m :: l => if m ≤ n then (let q := freeFlits (n - m) l; (q.1 + 1, q.2)) else (0, (m - n) :: l)

def rxFree (x : PortSt) (key n : Nat) : PortSt :=
  let q := freeFlits n (tget [] x.fills key)
  { x with fills := tset [] x.fills key q.2, owed := tset 0 x.owed key (tget 0 x.owed key + q.1) }

/-- Takes a place out of a port's inbox: its bytes pass into the module. -/
def inboxTake (s : State) (p i : Nat) : State :=
  let x := getPort s p
  let y := match x.inbox[i]? with | some (vc, cls, b) => rxFree x (streamKey vc cls) b.length | none => x
  setPort s p { y with inbox := ldel x.inbox i }

/-- A port enters DOWN with LINK_DOWN (R301 to R303). -/
def linkDown (s : State) (p : Nat) : State :=
  condition (portDrop (setPortState s p 4) p) (.fld p) 0x0E 1

/-! ## Routes (R296, R305 to R307) -/

/-- Coordinate `dim` (0 X, 1 Y, 2 Z) of a module's node, and its position. -/
def nodeCoord (m dim : Nat) : Nat := fld m (3 + 5 * dim) 5
def position (m : Nat) : Nat := m % 8

/-- Ring size of a dimension. -/
def ringSize (s : State) (dim : Nat) : Nat := fld (rd s (routePage 0) fld_TORUS) (8 * dim) 5 + 1

/-- The default next hop for a module number: port, its dimension (3 in the node), and whether the hop crosses the link
between the last and the first coordinate. -/
def defaultHop (s : State) (m : Nat) : Nat × Nat × Bool :=
  let me := moduleNo s
  match (List.range 3).find? (fun dim => nodeCoord me dim != nodeCoord m dim) with
  | some dim =>
    let n := ringSize s dim
    let f := (nodeCoord m dim + n - nodeCoord me dim % n) % n
    let up := decide (f ≤ n - f)
    (7 + 2 * dim + b2n (!up), dim, if up then nodeCoord me dim == n - 1 else nodeCoord me dim == 0)
  | none => ((position m + 7 - position me) % 8, 3, false)

/-- The dimension of a port: torus ports 7 to 12. -/
def portDim (p : Nat) : Nat := if 7 ≤ p ∧ p ≤ 12 then (p - 7) / 2 else 3

/-- Whether a hop out of a torus port crosses the link between the last and the first coordinate. -/
def crosses (s : State) (p : Nat) : Bool :=
  if 7 ≤ p ∧ p ≤ 12 then
    let d := portDim p
    if p % 2 = 1 then nodeCoord (moduleNo s) d == ringSize s d - 1 else nodeCoord (moduleNo s) d == 0
  else false

/-- The exception entry that a slot's route page gives for a module number (R307). -/
def exception (s : State) (k m : Nat) : Option Nat :=
  ((getSlot s k).exc.find? (fun e => e.2.2.2.testBit 4 && (m &&& e.2.2.1) == (e.2.1 &&& e.2.2.1))).map (·.2.2.2)

/-- The port and CLASS of a token of a slot for another module. `from_` is the port and CLASS by which a token in transit
came: it keeps its CLASS while it stays in the dimension (R306). -/
def route (s : State) (k m : Nat) (from_ : Option (Nat × Nat)) : Nat × Nat :=
  let keep := fun dim => match from_ with | some (p, c) => if dim < 3 ∧ portDim p = dim then c else 0 | none => 0
  match exception s k m with
  | some a => (a % 16, if a.testBit 5 then b2n (a.testBit 6) else if crosses s (a % 16) then 1 else keep (portDim (a % 16)))
  | none =>
    let h := defaultHop s m
    (h.1, if h.2.2 then 1 else keep h.2.1)

/-- Places bytes on a port. A port outside the slot's mask, OFF or DOWN discards them with a count, which is acceptance
(R303, R307). -/
def portPut (s : State) (k p cls vc : Nat) (bytes : List Byte) (own : Option Flight) : State :=
  if !(portMask s k).testBit p || portState s p == 0 || portState s p == 4 then
    let s := bump s (routePage k) fld_UNROUTABLE 1
    if portState s p = 4 then bump s (.fld p) fld_DISCARDED 1 else s
  else
    let x := getPort s p
    portFlush (setPort s p { x with queue := x.queue ++ [⟨vc, cls, bytes, own⟩] }) p

/-- A token leaves for another module; kinds that never leave are discarded at the hub (R297). -/
def routeOut (s : State) (k : Nat) (f : Flight) (from_ : Option (Nat × Nat)) : State :=
  let t := f.tok
  if t.kind = 2 ∨ 6 ≤ t.kind then bump s (routePage k) fld_UNROUTABLE 1
  else
    let r := route s k t.dest.mod from_
    portPut s k r.1 r.2 (if dataKind t.kind then 1 else 0) (tokenBytes t) (some f)

/-! ## The mesh and the saddles (R253, R286, R288, R294) -/

/-- Whether a port takes one more token of a stream: it discards what it cannot carry, or its queue has room for it, to a size that the
spec does not give (R142, R303, log entry 58). -/
def portTakes (s : State) (k p cls vc : Nat) : Bool :=
  !(portMask s k).testBit p || portState s p == 0 || portState s p == 4
    || decide (((getPort s p).queue.filter (fun i => i.vc == vc && i.cls == cls)).length < Config.linkRoom 3 vc + 1)

/-- Whether the hub can pass a token on to another module now. -/
def hubPasses (s : State) (f : Flight) (from_ : Option (Nat × Nat)) : Bool :=
  let r := route s f.pslot f.tok.dest.mod from_
  f.tok.kind == 2 || decide (6 ≤ f.tok.kind) || portTakes s f.pslot r.1 r.2 (if dataKind f.tok.kind then 1 else 0)

/-- The first token for another module that has come to the hub (R294) and can be passed on, with its place. -/
def nextLeaving (s : State) : Option (Nat × Flight) :=
  (List.range s.net.length).findSome? (fun n => match pathEnd s n with
    | some f => if f.tok.dest.mod ≠ moduleNo s ∧ f.pslot < 8 ∧ hubPasses s f none = true then some (n, f) else none
    | none => none)

/-- Tokens for other modules leave by their ports as far as they can; the first argument bounds their number. -/
def leaveAll : Nat → State → State
  | 0, s => s
  | fuel + 1, s =>
    match nextLeaving s with
    | some (n, f) => leaveAll fuel (routeOut (netTake s n) f.pslot f none)
    | none => s

/-- The hub passes on what waits there for other modules. -/
def hubLets (s : State) : State := leaveAll s.net.length s

/-- A token of a slot sets out: to the hub and another module, or within this one. The closed saddles refuse the flits of a token for
a die of another slot, and the hub discards one that names no endpoint of it (log entry 58). -/
def netSend (s : State) (t : Token) (o : Owner) (k : Nat) : State :=
  if t.dest.mod ≠ moduleNo s then hubLets { s with net := s.net ++ [⟨t, o, k⟩] }
  else if t.dest.die < 8 ∧ slotOf s t.dest.die ≠ k then bump s (.tmt 8) tmt_SADDLE_REFUSED (1 + t.length)
  else if 8 ≤ t.dest.die ∧ (8 < t.dest.die ∨ !hubEndpoint t.dest.core) then bump s (routePage k) fld_UNROUTABLE 1
  else { s with net := s.net ++ [⟨t, o, k⟩] }

/-- Every token that has left its sender and is not yet accepted: on the mesh, or in a port until its peer's ACK. -/
def inFlight (s : State) : List Flight := s.net ++ s.ports.flatMap (fun e => (portHolds e.2).filterMap id)

end Sys2Proof.Machine
end

