-- ==== Sys2Proof/Machine/Engine.lean ====
section
/-! DEFINITION. Machine/Engine.lean: what the task engines and the cores share (R79, R84, R158 to R178, R266): contexts and
their byte forms, satisfactions and AHEAD edges, discards, faults of a task or a sample, the effects that a core releases at
commit. -/
namespace Sys2Proof.Machine

/-! ## Whether a partition runs -/

/-- Whether a die's partition dispatches and issues: TCK.PHASE RUN or DRAIN, and not paused (R138, R258). -/
def runs (s : State) (d : Nat) : Bool :=
  let ph := phase s (slotOf s d)
  (ph == 3 || ph == 4) && !(rd s (.tckR d) tck_RX_STATE).testBit 9

/-! ## Descriptors as the cores see them (R227, R234) -/

/-- The near side of both kinds: bytes 6 to 9. -/
def dNear (b : List Byte) : Nat := bytesAt b 6 4 % 2 ^ 22
def dCore (b : List Byte) : Nat := fld (bytesAt b 6 4) 22 9
/-! The near side of a stream. -/
def sLen (b : List Byte) : Nat := bytesAt b 10 3
def sStore (b : List Byte) : Bool := (bytesAt b 13 1).testBit 0
def sCnt1 (b : List Byte) : Nat := bytesAt b 14 3 % 4096 + 1
def sCnt2 (b : List Byte) : Nat := bytesAt b 14 3 / 4096 + 1
/-- Bytes of the near side. -/
def sTotal (b : List Byte) : Nat := sLen b * sCnt1 b * sCnt2 b

/-- The near ranges in a core that stream arms accepted and not yet moved are still to read (R54). -/
def storePends (s : State) (k : Nat) : List (Nat × Nat) :=
  (getDie s (k / 384)).streams.filterMap (fun e =>
    let b := e.2.bytes
    if sStore b && coreOf s (k / 384) (dCore b) == some k
        && ((e.2.state == 1 && (match e.2.arm with | some a => !a.moved | none => false)) || e.2.shadow.isSome)
    then some (dNear b, sTotal b) else none)

/-! ## Contexts (R158) -/

def getCtx (s : State) (d i : Nat) : Ctx := tget Ctx.none (getDie s d).ctxs i
def setCtx (s : State) (d i : Nat) (x : Ctx) : State :=
  let y := getDie s d
  setDie s d { y with ctxs := tput y.ctxs i x }

/-- The context that a task number names on its die. -/
def ctxOf (task : Nat) : Nat := task % 8192

/-- Speculation classes. -/
def isNarrow (spec : Nat) : Bool := spec == 1 || spec == 3
def isAhead (spec : Nat) : Bool := spec == 2 || spec == 3

/-- SPECNOW (R167). -/
def specNow (x : Ctx) : Bool :=
  (isNarrow x.spec && (x.state == .running || x.state == .yielded)) || decide (0 < x.pcur)

/-- Whether AHEAD edges into a context are satisfied by START: its class and TKE.CTRL.AHEAD_EN (R168), and HARD (R169). -/
def softEdges (s : State) (d : Nat) (x : Ctx) : Bool :=
  (rd s (.tke d) hCTRL).testBit 1 && isAhead x.spec && !x.hard

/-- The 64 bytes of a descriptor. -/
def descBytes (x : Ctx) : List Byte :=
  toBytes 4 x.task ++ toBytes 2 x.core ++ toBytes 2 x.entry ++ toBytes 4 x.args ++ toBytes 2 x.deps
    ++ toBytes 1 (x.spec + 16 * x.fmtc) ++ toBytes 1 x.account ++ toBytes 1 (x.cls + 8 * x.offset) ++ toBytes 1 x.stage
    ++ toBytes 2 x.nsucc ++ toBytes 4 x.deadline ++ toBytes 6 x.succ ++ toBytes 1 x.shadow ++ toBytes 1 0
    ++ toBytes 4 x.rkey ++ toBytes 4 0 ++ toBytes 4 x.sample ++ toBytes 2 x.dcur ++ toBytes 2 x.pcur
    ++ toBytes 1 (x.state.code + 16 * b2n x.hard + 32 * b2n (specNow x) + 64 * x.rung) ++ toBytes 1 x.fmtNow
    ++ List.replicate 14 0

/-- A context from bytes 4 to 39 of a descriptor; TASK is formed from position and image die (R158). -/
def ctxFrom (task : Nat) (bs : List Byte) : Ctx :=
  { Ctx.none with
    task := task, core := bytesAt bs 4 2, entry := bytesAt bs 6 2, args := bytesAt bs 8 4, deps := bytesAt bs 12 2,
    spec := fld (bytesAt bs 14 1) 0 2, fmtc := fld (bytesAt bs 14 1) 4 4, account := bytesAt bs 15 1 % 64,
    cls := fld (bytesAt bs 16 1) 0 3, offset := fld (bytesAt bs 16 1) 3 5, stage := bytesAt bs 17 1 % 64,
    nsucc := bytesAt bs 18 2, deadline := bytesAt bs 20 4, succ := bytesAt bs 24 6, shadow := bytesAt bs 30 1 % 16,
    rkey := bytesAt bs 32 4 }

/-- The 128 bytes of a run record; its layout is internal (R158). -/
def runBytes (r : RunRec) : List Byte :=
  let b := toBytes 4 r.sat ++ toBytes 4 r.nz ++ toBytes 4 r.uf ++ toBytes 4 r.vidx ++ toBytes 2 r.pc
    ++ (List.range 15).flatMap (fun i => toBytes 4 (tget 0 r.s (i + 1)).toNat)
    ++ packBits 22 ((List.range 8).map (fun i => (tget 0 r.a i).toNat))
    ++ toBytes 1 r.ret.length ++ packBits 12 (r.ret.take 8 ++ List.replicate (8 - r.ret.length) 0)
    ++ toBytes 1 (b2n r.claim.isSome) ++ toBytes 4 (r.claim.getD 0).toNat ++ toBytes 4 r.finger.toNat
  b ++ List.replicate (128 - b.length) 0

/-- The run record that 128 bytes spell. -/
def runFrom (bs : List Byte) : RunRec :=
  let w := fun i => w32 (bytesAt bs (18 + 4 * i) 4)
  let av := fun i => w32 (bitsAt (bs.drop 78) 22 i)
  { sat := bytesAt bs 0 4, nz := bytesAt bs 4 4, uf := bytesAt bs 8 4, vidx := bytesAt bs 12 4, pc := bytesAt bs 16 2,
    s := iter 15 (fun i t => tset 0 t (i + 1) (w i)) [], a := iter 8 (fun i t => tset 0 t i (av i)) [],
    ret := (List.range (bytesAt bs 100 1)).map (bitsAt (bs.drop 101) 12),
    claim := if bytesAt bs 113 1 = 1 then some (w32 (bytesAt bs 114 4)) else none, finger := w32 (bytesAt bs 118 4) }

/-! ## TASK and DEP tokens (R176, R177) -/

/-- The endpoint of a die's task engine, and of the slice of a logical core. -/
def taskEnd (s : State) (d : Nat) : End := here s d 0x168
def sliceEnd (s : State) (d l : Nat) : End := here s d (0x188 + l / 15)
def coreEnd (s : State) (d l : Nat) : End := here s d l

/-- A TASK token between a slice and its core. -/
def taskToken (s : State) (d l tag task sample info : Nat) (toCore : Bool) (payload : List Byte) : Token :=
  let a := sliceEnd s d l
  let b := coreEnd s d l
  { engineToken s (slotOf s d) 2 tag (if toCore then a else b) (if toCore then b else a) info sample task with
    length := payload.length / 32, payload := payload }

/-- The slice sends a TASK token to a context's core. -/
def toCore (s : State) (d i tag info : Nat) (payload : List Byte) : State :=
  let x := getCtx s d i
  netSend s (taskToken s d x.core tag x.task x.sample info true payload) .nobody (slotOf s d)

/-- Reports of a context's attempt that are on their way to the slice are withdrawn: a discard wins over them (R179). -/
def dropReports (s : State) (d i : Nat) : State :=
  let x := getCtx s d i
  { s with net := s.net.filter (fun f => !(f.tok.kind == 2 && (f.tok.tag == 2 || f.tok.tag == 3)
      && f.tok.src.die == d && f.tok.value == x.task && f.tok.dest == sliceEnd s d x.core)) }

/-- Sends a DEP token from a die's engine. -/
def sendDep (s : State) (d tgt tag sample task : Nat) : State :=
  let t := engineToken s (slotOf s d) 3 tag (taskEnd s d) (taskEnd s tgt) 0 sample task
  bump (netSend s t (.engine d) (slotOf s d)) (.tke d) tke_DEP_SENT 1

/-! ## Accounts (R266) -/

/-- Adds the core cycles of an attempt to its release; their number is the machine's timing (log entry 4). -/
def addCycles (s : State) (d i : Nat) : State :=
  let q := drawNat s
  let x := getCtx s d i
  setCtx q.2 d i { x with cycles := x.cycles + q.1 }

/-- Charges a release's core time to the CURRENT job, redirecting an ACCOUNT of another one. -/
def charge (s : State) (d i : Nat) : State :=
  let x := getCtx s d i
  let k := slotOf s d
  let y := getSlot s k
  match y.current with
  | none => s
  | some j =>
    let n := x.cycles * 1024 / rd s .pwr pwr_CORE_MHZ
    let job := tget Job.none y.jobs j
    let s := setSlot s k { y with jobs := tput y.jobs j { job with acct := (job.acct + n) % 2 ^ 64 },
                                  freeAcct := y.freeAcct + n }
    if x.account = j then s else bump s (.tmt k) tmt_ACCT_REDIRECT 1

/-! ## Program errors, stray satisfactions (R84, R161) -/

/-- The engine's part of a program error: the context HALTED, the registers and event, the partition halted. -/
def engineError (s : State) (d i code kind : Nat) : State :=
  let x := getCtx s d i
  let s := setCtx s d i { x with state := .halted }
  let s := wr (wr s (.tke d) tke_FAULT_TASK x.task) (.tke d) tke_FAULT_INFO (code + 256 * kind)
  haltSlot (condition s (.tke d) code 8) (slotOf s d) code 0 false (imageDie s d)

/-- A core records a fault (R107). -/
def coreFaultInfo (s : State) (k code pc op : Nat) : State :=
  last (wr s (corPage k) cor_FAULT_INFO (code + 256 * (pc % 4096) + 2 ^ 20 * op)) (corPage k) code

/-- A program error of a running task: the core stops it and the partition halts with its state preserved (R84). -/
def programError (s : State) (k : Nat) (r : Run) (code pc op : Nat) : State :=
  let s := coreFaultInfo s k code pc op
  let c := getCore s k
  let s := faultBit (setCore s k { c with halted := true, stall := 0 }) (corPage k) true
  engineError s (k / 384) r.ctx code 0

/-- A program error of a core that no task raised: a delivery refused under R66 or R173. -/
def deliveryError (s : State) (k : Nat) : State :=
  haltSlot (coreFaultInfo s k 0x0B 0 0) (slotOf s (k / 384)) 0x0B 0 false (imageDie s (k / 384))

/-! ## Discards (R170, R178) -/

/-- The engine ends the attempt of a context: a started one by a DISCARD token to its core. -/
def discardAttempt (s : State) (d i : Nat) : State :=
  let x := getCtx s d i
  let s := bump s (.tke d) tke_DISCARD_COUNT 1
  match x.state with
  | .running => toCore (addCycles (dropReports s d i) d i) d i 4 0 []
  | .yielded | .ended => toCore (dropReports s d i) d i 4 0 []
  | _ => s

/-! ## The successor cache (R158, R363, R367) -/

/-- The entries of 8 bytes that the successor cache of a die holds. -/
def succRoom : Nat := 32768

/-- The words that the lists before a context's take in the cache (log entry 72). -/
def succBase (l : Tab (List Nat × Tab Byte)) (i : Nat) : Nat :=
  sumOf ((l.filter (·.1 < i)).map (·.2.1.length))

/-- A context's list leaves the cache. -/
def succDrop (s : State) (d i : Nat) : State :=
  let y := getDie s d
  if (tfind y.succs i).isNone then s else setDie s d { y with succs := tdel y.succs i }

/-- A context's list as the cache gives it; one with an uncorrectable word is dropped. -/
def succCached (s : State) (d i : Nat) : State × Option (List Nat) :=
  let y := getDie s d
  match tfind y.succs i with
  | none => (s, none)
  | some e =>
    if e.2.isEmpty then (s, some e.1)
    else
      let q := readMarks (.tke d) 5 (succBase y.succs i) false (fun _ => true) e.2 s
      if q.2.2 then (succDrop q.1 d i, none)
      else (setDie q.1 d { getDie q.1 d with succs := tput y.succs i (e.1, q.2.1) }, some e.1)

/-- The successor entries of a context (R159): from the cache, or from memory, and then kept in the cache while it has room. A fault of
the read is recorded and gives its code, an uncorrectable word UE_DATA (R203), a page that must be waited for 0. -/
def succOf (s : State) (d i : Nat) : State × Except Nat (List Nat) :=
  let x := getCtx s d i
  if x.nsucc = 0 then (s, .ok [])
  else match succCached s d i with
  | (s, some l) => (s, .ok l)
  | (s, none) =>
    match judge s (slotOf s d) d .task x.succ (8 * x.nsucc) false with
    | (s, .ok) =>
      let r := vaReadOk s (slotOf s d) d .task x.succ (8 * x.nsucc)
      let l := (List.range x.nsucc).map (fun j => bytesAt r.2.1 (8 * j) 8)
      let y := getDie r.1 d
      let held := sumOf (y.succs.map (·.2.1.length))
      if !r.2.2.isEmpty then (r.1, .error 8)
      else (if succRoom < held + x.nsucc then r.1 else setDie r.1 d { y with succs := tput y.succs i (l, []) }, .ok l)
    | (s, .fault c _ _) => (s, .error c)
    | (s, .wait _ _) => (s, .error 0)

/-- Whether a context's successor list waits for a page in transit. -/
def succWaits (s : State) (d i : Nat) : Bool :=
  let x := getCtx s d i
  if x.nsucc = 0 || (tfind (getDie s d).succs i).isSome then false
  else match access s (slotOf s d) d x.succ (8 * x.nsucc) false with | .wait _ _ => true | _ => false

/-- Fields of a successor entry. -/
def succKind (e : Nat) : Nat := fld e 0 3
def succAhead (e : Nat) : Bool := e.testBit 3 && decide (succKind e < 2)
def succTarget (e : Nat) : Nat := fld e 32 32
/-- The die of a task target: the producer's for TASK, the image die's for TASK_REMOTE. -/
def succDie (s : State) (d e : Nat) : Nat :=
  if succKind e = 0 then d else homeDie s (slotOf s d) + fld e 4 3 % diesPer s

/-- A stray satisfaction (R161). -/
def strayDep (s : State) (d i : Nat) : State := engineError s d i 0x0B 1

/-- Whether a dependence of a sample finds its target released for it. -/
def relFor (x : Ctx) (sample : Nat) : Bool := x.released && x.sample == sample

/-- One satisfaction (R166). -/
def satisfy (s : State) (d i sample : Nat) : State :=
  let x := getCtx s d i
  if !relFor x sample then strayDep s d i
  else if x.state = .waiting ∧ 0 < x.dcur then
    setCtx s d i { x with dcur := x.dcur - 1, state := if x.dcur = 1 then .ready else .waiting }
  else s

/-- AHEAD START (R166, R168). -/
def depStart (s : State) (d i sample : Nat) : State :=
  let x := getCtx s d i
  if !relFor x sample then strayDep s d i
  else if softEdges s d x && x.state == .waiting && decide (0 < x.dcur) then
    setCtx s d i { x with dcur := x.dcur - 1, pcur := x.pcur + 1, state := if x.dcur = 1 then .ready else .waiting }
  else s

/-- The engine decides a commit: the context is COMMITTED and its core gets COMMIT (R170). -/
def commitDecide (s : State) (d i : Nat) : State :=
  let x := getCtx s d i
  let s := setCtx s d i { x with state := .committed }
  toCore (bump s (.tke d) tke_COMMIT_COUNT 1) d i 6 0 []

/-- AHEAD COMMIT (R166, R167). -/
def depCommit (s : State) (d i sample : Nat) : State :=
  let x := getCtx s d i
  if !relFor x sample then strayDep s d i
  else if softEdges s d x then
    let n := x.pcur - 1
    let s := setCtx s d i { x with pcur := n }
    if n ≠ 0 then s
    else if x.state = .ended then commitDecide s d i
    else if (x.state == .running || x.state == .yielded) && !isNarrow x.spec then toCore s d i 5 0 []
    else s
  else satisfy s d i sample

/-- START of a class of the die. -/
def startFmt (s : State) (d : Nat) (x : Ctx) : Nat := if isNarrow x.spec then clsStart (classA s d x.fmtc) else 15

/-- A context back to its state before any attempt of the release, for an AHEAD discard (R166). -/
def aheadBack (s : State) (d : Nat) (x : Ctx) : Ctx :=
  { x with dcur := x.dcur + x.pcur, pcur := 0, hard := true, rung := 0, fmtNow := startFmt s d x, state := .waiting,
           run := RunRec.zero, badRun := [] }

/-- A list that the engine cannot read: a fault is a program error of the task (R197), an uncorrectable word is a window-level fault
(log entry 72). -/
def listLost (s : State) (d i code : Nat) : State :=
  if code = 8 then windowFault (condition s (.tke d) 8 0) (slotOf s d) 8 (imageDie s d) else engineError s d i code 0

/-- The AHEAD out-edges of a discarded attempt take DISCARD by `f`; a list in a page that must be waited for is owed (R213). -/
def passOn (f : Nat → State → State) (s : State) (d i sample : Nat) : State :=
  if succWaits s d i then let y := getDie s d; setDie s d { y with owed := y.owed ++ [(i, sample)] }
  else match succOf s d i with
    | (s, .ok l) => each (l.filter succAhead) f s
    | (s, .error c) => listLost s d i c

/-- AHEAD DISCARD, passed on along the AHEAD out-edges of every consumer that it discards; the first argument bounds the
chain. -/
def depDiscard : Nat → State → Nat → Nat → Nat → State
  | 0, s, _, _, _ => s
  | fuel + 1, s, d, i, sample =>
    let x := getCtx s d i
    if !relFor x sample then strayDep s d i
    else if !softEdges s d x then s
    else
      match x.state with
      | .waiting => setCtx s d i { x with dcur := x.dcur + x.pcur, pcur := 0, hard := true }
      | .ready | .running | .yielded | .ended =>
        let s := bump (discardAttempt s d i) (.tke d) tke_AHEAD_DISCARDS 1
        let y := getCtx s d i
        passOn (fun e s =>
          if succDie s d e = d then depDiscard fuel s d (ctxOf (succTarget e)) sample
          else sendDep s d (succDie s d e) 3 sample (succTarget e)) (setCtx s d i (aheadBack s d y)) d i sample
      | _ => s

/-- One AHEAD edge of a context takes a START, COMMIT or DISCARD: at once on its own die, by a token elsewhere. -/
def edge (d tag sample e : Nat) (s : State) : State :=
  let t := succDie s d e
  let i := ctxOf (succTarget e)
  if t ≠ d then sendDep s d t tag sample (succTarget e)
  else if tag = 1 then depStart s d i sample
  else if tag = 2 then depCommit s d i sample
  else depDiscard 8192 s d i sample

/-- An attempt of a context is discarded for good in this tick: the context is DISCARDED and charged, and a started attempt's
AHEAD out-edges take DISCARD (R170, R172). -/
def discardNow (s : State) (d i : Nat) : State :=
  let x := getCtx s d i
  let s := discardAttempt s d i
  let y := getCtx s d i
  let s := charge (setCtx s d i { y with state := .discarded }) d i
  if x.state = .running ∨ x.state = .yielded ∨ x.state = .ended then passOn (edge d 3 x.sample) s d i x.sample else s

/-- The DISCARDs that a die owes go, those whose list still waits excepted. -/
def payOwed (s : State) (d : Nat) : State :=
  let y := getDie s d
  each y.owed (fun e s => passOn (edge d 3 e.2) s d e.1 e.2) (setDie s d { y with owed := [] })

/-- Those of every die of a slot. -/
def paySlot (s : State) (k : Nat) : State := each (diesOf s k) (fun d s => payOwed s d) s

/-- A context released for a faulted sample and not COMMITTED is discarded (R178). -/
def discardFor (d sample : Nat) (i : Nat) (s : State) : State :=
  let x := getCtx s d i
  if relFor x sample && decide (x.cls < 2)
      && (x.state == .waiting || x.state == .ready || x.state == .running || x.state == .yielded || x.state == .ended) then
    discardNow s d i
  else s

/-- A sample's FORWARD and BACKWARD contexts on a die are discarded (R178). -/
def discardSample (s : State) (d sample : Nat) : State :=
  each ((getDie s d).ctxs.map (·.1)) (discardFor d sample) s

/-- The other member modules of a slot's segment: TCK.PEERS names them by node position (R150, R296). -/
def peerModules (s : State) (k : Nat) : List Nat :=
  let m := moduleNo s
  ((List.range 8).filter (fun p => (rd s (.tckG k) tck_PEERS).testBit p && p != m % 8)).map (fun p => m / 8 * 8 + p)

/-- A die tells the other member modules of its segment of a fault of a sample; `info` 1 marks a report that discards no task
within the tick (R102, R178, log entry 49). -/
def faultPeers (s : State) (d info sample : Nat) : State :=
  let k := slotOf s d
  each (peerModules s k) (fun m s =>
    bump (netSend s (engineToken s k 3 4 (taskEnd s d) ⟨0x168, homeDie s k, m⟩ info sample 0) (.engine d) k)
      (.tke d) tke_DEP_SENT 1) s

/-- A report of STEER_UNMATCHED or SHARD_STALE: the hub counts the fault, and the other members learn of it (R146, R178). -/
def reportSample (s : State) (d sample code core : Nat) : State :=
  sampleFault (faultPeers s d 1 sample) (slotOf s d) sample code core (imageDie s d)

/-- A fault of a sample that a die raises: counted, its contexts discarded here and, by FAULT, on every other die of the
segment (R178), and counted by the hub (R337). -/
def failSample (s : State) (d sample code core : Nat) : State :=
  let k := slotOf s d
  let s := condition (bump s (.tke d) tke_SAMPLE_FAULTS 1) (.tke d) code 4
  let s := discardSample s d sample
  let s := each ((diesOf s k).filter (· != d)) (fun e s => sendDep s d e 4 sample 0) s
  sampleFault (faultPeers s d 0 sample) k sample code core (imageDie s d)

/-- A list of a started or committing task that the engine cannot read: an uncorrectable word faults the sample of a FORWARD or
BACKWARD release (R203, R329). -/
def listFault (s : State) (d i code : Nat) : State :=
  let x := getCtx s d i
  if code = 8 ∧ x.cls < 2 then failSample s d x.sample 8 x.core else listLost s d i code

/-- Every AHEAD out-edge of a context takes a tag. -/
def edges (s : State) (d i tag : Nat) : State :=
  let x := getCtx s d i
  match succOf s d i with
  | (s, .ok l) => each (l.filter succAhead) (edge d tag x.sample) s
  | (s, .error c) => listFault s d i c

/-- A fault that discards a running task: a sample fault of a FORWARD or BACKWARD release, a window-level fault of any other
(R178, R329). -/
def taskFault (s : State) (k : Nat) (r : Run) (code pc op : Nat) : State :=
  let d := k / 384
  let s := coreFaultInfo s k code pc op
  let c := getCore s k
  let s := setCore s k { c with run := c.run.map (fun q => if q.ctx = r.ctx then { q with ended := true } else q), stall := 0 }
  if r.cls < 2 then failSample s d r.sample code ((logicalOf s d (k % 384)).getD 0x1FF)
  else windowFault (condition (discardNow s d r.ctx) (.tke d) code 0) (slotOf s d) code (imageDie s d)

/-! ## What a core holds of a context's attempts -/

/-- A core drops an attempt (R76, R170): its array work, groups, feeder entries, shadows, deferrals; its WAITs are given
back and its fire records restored. -/
def coreDiscard (s : State) (k i : Nat) : State :=
  let c := getCore s k
  let mine := c.waits.filter (·.1 == i)
  let here := match c.run with | some r => r.ctx == i | none => false
  let groups := c.groups.filter (fun e => match e.2 with | some g => g.ctx != i | none => false)
  let c := { c with
    run := if here then none else c.run, wait := if here then .none else c.wait, stall := if here then 0 else c.stall,
    queue := c.queue.filter (·.ctx != i), away := c.away.filter (·.ctx != i),
    groups := groups, due := c.due.filter (fun n => groups.any (·.1 == n)),
    retained := match c.retained with | some r => if r.ctx = i then none else some r | none => none,
    shadows := c.shadows.map (fun e => if e.2.holder = some i then (e.1, { e.2 with written := 0, holder := none }) else e),
    deferred := c.deferred.filter (·.1 != i),
    amaxSh := tkeep (fun n => decide (n / 16 ≠ i)) c.amaxSh,
    highs := tdel c.highs i,
    waits := c.waits.filter (·.1 != i),
    holds := c.holds.map (fun e => match e.2.taken with
      | some (j, v) => if j = i then (e.1, { e.2 with taken := none, record := some v }) else e
      | none => e) }
  each mine (fun w s => semAdd s k w.2.1 w.2.2) (setCore s k c)

/-- Bits of a region flip: SEL of every WRITTEN slab. -/
def flip (x : Shadow) : Shadow := { x with sel := x.sel ^^^ x.written, written := 0, holder := none }

/-- Step 1 of R170 for the actions marked (C): shadows flip, AMAX shadows merge, fire records count as received, WAITs are
final. -/
def coreConfirm (s : State) (k i : Nat) : State :=
  let c := getCore s k
  let am := c.amaxSh.filter (fun e => e.1 / 16 == i)
  let s := setCore s k { c with
    shadows := c.shadows.map (fun e => if e.2.holder = some i then (e.1, flip e.2) else e),
    amaxSh := tkeep (fun n => decide (n / 16 ≠ i)) c.amaxSh,
    waits := c.waits.filter (·.1 != i),
    holds := (c.holds.map (fun e => match e.2.taken with
      | some (j, _) => if j = i then (e.1, { e.2 with taken := none, sample := 0 }) else e
      | none => e)).filter (fun e => e.2 != Hold.none) }
  each am (fun e s =>
    wr s (corPage k) (cor_AMAX_n + 4 * (e.1 % 16)) (amaxMerge (w32 (rd s (corPage k) (cor_AMAX_n + 4 * (e.1 % 16)))) e.2).toNat) s

/-- The terrace head of a committed FORWARD attempt (R141, R462). -/
def advanceHead (s : State) (k : Nat) (r : Run) : State :=
  let c := getCore s k
  let h := tget 0 c.highs r.ctx
  let t := c.terr
  let t := if r.cls = 0 ∧ h ≠ 0 then
      let up := cdiv h 64 * 64
      match entryOf c r.sample with
      | some e =>
        let st := max e.stop up
        { t with head := st, entries := t.entries.map (fun x => if x.sample = r.sample then { x with stop := st } else x) }
      | none => { t with head := up, entries := t.entries ++ [⟨r.sample, terraceStart c 0 r.sample, up⟩] }
    else t
  setCore s k { c with terr := t, highs := tdel c.highs r.ctx }

/-- Whether a rule holds nothing: no token, no record, no delivery (R99). -/
def ruleIdle (c : Core) (rule : Nat) : Bool :=
  c.holds.all (fun e => e.1 / 16 != rule || (e.2.data.isEmpty && e.2.ctrl.isNone && e.2.record.isNone && e.2.taken.isNone))

/-- The logical core that a core site carries. -/
def selfCore (s : State) (k : Nat) : Nat := (logicalOf s (k / 384) (k % 384)).getD 0

/-- Whether the send queue of 4 has room: an entry leaves it with its last flit (R94). -/
def sendRoom (s : State) (k : Nat) : Bool :=
  decide ((getCore s k).sendq.length + leaving s (here s (k / 384) (selfCore s k)) < 4)

/-- A token of a context enters the send queue, a SIGNAL with its mark. -/
def sendPut (s : State) (k i : Nat) (t : Token) (mark : Option Nat) : State :=
  let c := getCore s k
  setCore s k { c with sendq := c.sendq ++ [⟨t, .task k i, slotOf s (k / 384)⟩], sigs := c.sigs ++ mark.toList }

/-- An effect of a context that acts at its commit or confirmation reads an uncorrectable word: the sample of the release faults, or
the window (R329, R367). No instruction runs then, and the core names no PC (log entry 82). -/
def releaseLost (s : State) (k i : Nat) : State :=
  let d := k / 384
  let x := getCtx s d i
  let s := coreFaultInfo s k 0x08 0 0
  if x.cls < 2 then failSample s d x.sample 0x08 (selfCore s k)
  else windowFault (condition s (.tke d) 0x08 0) (slotOf s d) 0x08 (imageDie s d)

/-- The bytes of a deferred effect as the ring gives them at its release. -/
def snapshot (s : State) (k i a n : Nat) : State × List Byte :=
  let q := ringRead s k a n
  (if q.2.2 then releaseLost q.1 k i else q.1, q.2.1)

/-- Released effects take their course in order (R170, R106): SENDs and SIGNALs enter the send queue while it has room, a
FENCE holds what follows it, a STEER waits for its rule. The first argument bounds the steps. -/
def pump : Nat → Nat → State → State
  | 0, _, s => s
  | fuel + 1, k, s =>
    let c := getCore s k
    match c.releasing with
    | [] => s
    | (i, e) :: rest =>
      let c' := { c with releasing := rest }
      match e with
      | .send t a =>
        if sendRoom s k then
          let q := snapshot (setCore s k c') k i a (32 * t.length)
          pump fuel k (sendPut q.1 k i { t with payload := q.2 } none)
        else s
      | .signal t mark => if sendRoom s k then pump fuel k (sendPut (setCore s k c') k i t (some mark)) else s
      | .fence _ => s
      | .steer r a =>
        if ruleIdle c r then
          let q := snapshot (setCore s k c') k i a 32
          let c := getCore q.1 k
          pump fuel k (setCore q.1 k { c with rules := tset Rule.none c.rules r (ruleFrom q.2) })
        else s
      | .amax n v => pump fuel k (wr (setCore s k c') (corPage k) (cor_AMAX_n + 4 * n) v.toNat)
      | .held _ _ => pump fuel k (setCore s k c')

/-- Lets a core's released effects go on. -/
def pumpAll (s : State) (k : Nat) : State := pump ((getCore s k).releasing.length + 1) k s

/-- Applies one held add: the ADD of R71 on each word of its tile, both read through their checks (R333, R364); true: a word was
uncorrectable, and its destination keeps its value. -/
def heldAdd (k a : Nat) (g : List Nat) (q : State × Bool) : State × Bool :=
  let t := ringRead q.1 k a (4 * g.length)
  if t.2.2 then (t.1, true)
  else g.zipIdx.foldl (fun (q : State × Bool) p =>
    let x := coreCheck q.1 k none p.1 4
    if x.2 then (x.1, true)
    else
      let old := w32 (bytesAt (coreBytes x.1 k none p.1 4) 0 4)
      (coreStore x.1 k none p.1 (toBytes 4 (f32Add old (w32 (bytesAt t.2.1 (4 * p.2) 4))).toNat), q.2)) (t.1, q.2)

/-- A held add waits for the commit. -/
def isHeld (e : Nat × Deferred) : Bool := match e.2 with | .held _ _ => true | _ => false

/-- Step 2 of R170: the deferral list of a context is released in program order. Its held adds are no part of the release:
a commit has applied them, a confirmation keeps them for the commit. -/
def releaseDeferred (s : State) (k i : Nat) (keep : Bool) : State :=
  let c := getCore s k
  let mine := c.deferred.filter (·.1 == i)
  pumpAll (setCore s k { c with
    deferred := c.deferred.filter (fun e => e.1 != i || (keep && isHeld e)),
    releasing := c.releasing ++ mine.filter (fun e => !isHeld e) }) k

/-- Applies the held adds of a commit in program order, dropped in a retained release (R335). -/
def applyHeld (s : State) (k i : Nat) (retained : Bool) : State :=
  if retained then s
  else
    let q := ((getCore s k).deferred.filter (·.1 == i)).foldl (fun q e => match e.2 with | .held a g => heldAdd k a g q | _ => q) (s, false)
    if q.2 then releaseLost q.1 k i else q.1

end Sys2Proof.Machine
end

