-- ==== Sys2Proof/Machine/Scalar.lean ====
section
/-! DEFINITION. Machine/Scalar.lean: how a core issues an instruction (R83, R84, R94, R95) and the meanings of the scalar
and control instructions (R85, R86). Each meaning answers a next state. -/
namespace Sys2Proof.Machine

/-- What an issued instruction comes to. `illegal` and `prot` are program errors, `ue` an uncorrectable read, `stall` a
wait with its COR.STALL code; `next` goes on to the next word, `jump` to a word, `hold` stays, `left` has left the core. -/
inductive Eff where
  | illegal (s : State)
  | prot (s : State)
  | ue (s : State)
  | stall (why : Nat)
  | next (s : State)
  | jump (s : State) (pc : Int)
  | hold (s : State) (why : Nat)
  | left (s : State)
  deriving DecidableEq, Repr

/-- Whether a format code has block scales; TASK does. -/
def scaled (f : Nat) : Bool := fmtBlocked f || f == 15

/-- Register specifiers that a word reads. -/
def sourcesOf (w : Nat) : List Nat :=
  let op := opcodeOf w
  let mask := if fld w 42 4 = 0 then [] else [fld w 42 4]
  let mask30 := if fld w 30 4 = 0 then [] else [fld w 30 4]
  if op = 1 then []
  else if op ≤ 8 then fld w 46 5 :: (if w.testBit 40 then [] else [fld w 41 5])
  else if op = 0x0A ∨ op = 0x0B then [fld w 46 5]
  else if op ≤ 0x0D then []
  else if op = 0x10 then (16 + fld w 48 3) :: mask
  else if op = 0x11 then fld w 51 5 :: (16 + fld w 48 3) :: mask
  else if op = 0x17 then [fld w 51 5, 16 + fld w 48 3] ++ (if scaled (fld w 41 4) then [16 + fld w 45 3] else []) ++ (if w.testBit 39 then [fld w 34 5] else []) ++ mask30
  else if op ≤ 0x1A then
    fld w 46 5 :: (if op ≤ 0x15 then [fld w 41 5] else []) ++ (if op = 0x15 then [fld w 36 5] else []) ++ mask30
  else if op = 0x20 then (16 + fld w 53 3) :: (if scaled (fld w 46 4) then [16 + fld w 50 3] else [])
  else if op = 0x21 then
    (if w.testBit 33 then [] else (16 + fld w 53 3) :: (if scaled (fld w 46 4) then [16 + fld w 50 3] else []))
  else if op = 0x22 then (if w.testBit 38 ∨ fld w 32 4 ≤ 1 then [] else [16 + fld w 29 3])
  else if op = 0x23 then [16 + fld w 50 3]
  else if op = 0x30 then [fld w 51 5, fld w 30 5, fld w 25 5] ++ (if fld w 41 7 = 0 then [] else [16 + fld w 48 3])
  else if op = 0x31 then [fld w 40 5]
  else if op = 0x32 then [16 + fld w 53 3]
  else if op = 0x41 then (if fld w 48 2 = 1 then [16 + fld w 40 3, fld w 35 5] else [])
  else if op = 0x42 then [fld w 51 5]
  else []

/-- The first source register whose parity is bad (R363). -/
def badSource (c : Core) (w : Nat) : Option Nat := (sourcesOf w).find? (fun r => tget false c.parity r)

/-- An attempt leaves its core: the run waits for the engine, which gets ENDED (R177). -/
def leave (s : State) (k : Nat) (r : Run) (info : Nat) : State :=
  let c := getCore s k
  let d := k / 384
  let s := setCore s k { c with run := none, stall := 0, away := c.away ++ [{ r with ended := true }] }
  match logicalOf s d (k % 384) with
  | some l => netSend s (taskToken s d l 2 r.task r.sample info false []) .nobody (slotOf s d)
  | none => s

/-- The outcome of an issued instruction on the machine. -/
def settle (k : Nat) (r : Run) (pc op : Nat) (e : Eff) (s0 : State) : State :=
  match e with
  | .illegal s => programError s k r 0x10 pc op
  | .prot s => programError s k r 0x0B pc op
  | .ue s => taskFault s k r 0x08 pc op
  | .stall why => let c := getCore s0 k; setCore s0 k { c with stall := why }
  | .next s => let c := getCore s k; setCore s k { c with pc := pc + 1, stall := 0 }
  | .jump s t =>
    if t < 0 ∨ 4096 ≤ t then programError s k r 0x10 pc op
    else let c := getCore s k; setCore s k { c with pc := t.toNat, stall := 0 }
  | .hold s why => let c := getCore s k; setCore s k { c with stall := why }
  | .left s => s

/-- Whether a core issues: it carries a logical core, its partition runs, and its task is neither halted, ended nor waiting
for a response. -/
def issues (s : State) (k : Nat) (c : Core) (r : Run) : Bool :=
  roleOf s (k / 384) (k % 384) == 0 && runs s (k / 384) && !c.halted && !r.ended && c.wait == .none

/-- A core issues the instruction at its PC if that has opcode `op`: fetch (R84, R367), legality (R83), register parity
(R363), and its own effect. An unassigned opcode, or a word that is not legal, stops any instruction. -/
def issue (s : State) (id : CoreId) (op : Nat) (f : State → Nat → Core → Run → Nat → Eff) : State :=
  let k := cid id
  let c := getCore s k
  match c.run with
  | none => s
  | some r =>
    if !issues s k c r then s
    else if 4096 ≤ c.pc then programError s k r 0x10 c.pc 0
    else
      let q := checkRead s (coreAddr k (8 * c.pc)) 8
      if q.2 then
        let x := getDie q.1 (k / 384)
        taskFault (setDie q.1 (k / 384) { x with refresh := x.refresh ++ [(k, c.pc)] }) k r 0x07 c.pc 0
      else
        let w := bytesAt (memRead q.1 (coreAddr k (8 * c.pc)) 8) 0 8
        if assigned (opcodeOf w) && opcodeOf w != op then s
        else if !wordLegal w || (namesTask w && !r.narrow) then programError q.1 k r 0x10 c.pc (opcodeOf w)
        else
          match badSource c w with
          | some b => taskFault (countErr q.1 (corPage k) 8 0 b true false) k r 0x08 c.pc (opcodeOf w)
          | none => settle k r c.pc op (f q.1 k c r w) q.1

/-! ## Format S (R85) -/

/-- The second source: the immediate or RS2. -/
def src2 (c : Core) (w : Nat) : W32 := if w.testBit 40 then w32 w else regVal c (fld w 41 5)

/-- A scalar instruction that writes RD with a function of its sources. -/
def scalar (g : Nat → W32 → W32 → W32) (s : State) (k : Nat) (c : Core) (_ : Run) (w : Nat) : Eff :=
  .next (setCore s k (setReg c (fld w 51 5) (g w (regVal c (fld w 46 5)) (src2 c w))))

def execLi (id : CoreId) (s : State) : State := issue s id 0x01 (scalar fun _ _ b => b)
def execAdd (id : CoreId) (s : State) : State := issue s id 0x02 (scalar fun _ a b => a + b)
def execSub (id : CoreId) (s : State) : State := issue s id 0x03 (scalar fun _ a b => a - b)
def execAnd (id : CoreId) (s : State) : State := issue s id 0x04 (scalar fun _ a b => a &&& b)
def execOr (id : CoreId) (s : State) : State := issue s id 0x05 (scalar fun _ a b => a ||| b)
def execShl (id : CoreId) (s : State) : State := issue s id 0x06 (scalar fun _ a b => a <<< (b.toNat % 32))
def execShr (id : CoreId) (s : State) : State := issue s id 0x07 (scalar fun _ a b => a >>> (b.toNat % 32))
def execCmp (id : CoreId) (s : State) : State :=
  issue s id 0x08 (scalar fun w a b => if cmpHolds (fld w 37 3) a b then 1 else 0)

/-! ## Format B (R86) -/

/-- The target of a branch. -/
def target (c : Core) (w : Nat) : Int := (c.pc : Int) + sext w 16

def execBr (id : CoreId) (s : State) : State := issue s id 0x09 fun s _ c _ w => .jump s (target c w)

def execBz (id : CoreId) (s : State) : State :=
  issue s id 0x0A fun s _ c _ w => if regVal c (fld w 46 5) = 0 then .jump s (target c w) else .next s

def execBnz (id : CoreId) (s : State) : State :=
  issue s id 0x0B fun s _ c _ w => if regVal c (fld w 46 5) = 0 then .next s else .jump s (target c w)

def execCall (id : CoreId) (s : State) : State :=
  issue s id 0x0C fun s k c _ w =>
    if 8 ≤ c.ret.length then .illegal s
    else if target c w < 0 ∨ 4096 ≤ target c w then .illegal s
    else .jump (setCore s k { c with ret := c.ret ++ [c.pc + 1] }) (target c w)

def execRet (id : CoreId) (s : State) : State :=
  issue s id 0x0D fun s k c _ _ =>
    match c.ret.getLast? with
    | none => .illegal s
    | some t => .jump (setCore s k { c with ret := c.ret.dropLast }) t

end Sys2Proof.Machine
end

