-- ==== Sys2Proof/Machine/Vector.lean ====
section
/-! DEFINITION. Machine/Vector.lean: loads, stores and vector instructions (R81, R87 to R89). -/
namespace Sys2Proof.Machine

/-- A speculative task defers an effect with its bytes; without room a NARROW attempt faults and any other waits to be confirmed
(R175). -/
def deferEff (s : State) (k : Nat) (c : Core) (r : Run) (bs : List Byte) (e : Nat → Deferred) : Eff :=
  if deferRoom c bs.length then .next (deferPut s k c r.ctx bs e)
  else if r.narrow then .prot s
  else .stall 5

/-! ## The core-control window (R81) -/

/-- The value of a word of the window. TICK_CYCLE is the machine's timing (log entry 4). -/
def windowWord (s : State) (k : Nat) (c : Core) (r : Run) (o : Nat) : W32 :=
  let g : Page := .tckG (slotOf s (k / 384))
  if o < 0x40 then w32 (rd s (corPage k) (cor_AMAX_n + o))
  else if 0x80 ≤ o ∧ o < 0x100 then w32 (tget 0 c.sem ((o - 0x80) / 4))
  else match o with
    | 0x40 => w32 (rd s g tck_TICK_LO)
    | 0x44 => w32 (rd s g tck_TICK_HI)
    | 0x48 => w32 (drawNat s).1
    | 0x4C => w32 (rd s g tck_TICK_LEN)
    | 0x50 => w32 r.task
    | 0x54 => w32 r.sample
    | 0x58 => w32 ((logicalOf s (k / 384) (k % 384)).getD 0 + 512 * (k / 384) + 8192 * moduleNo s)
    | 0x5C => w32 (if r.narrow then r.fmtNow else 15)
    | 0x60 => w32 r.sat
    | 0x64 => w32 r.nz
    | 0x68 => w32 r.uf
    | 0x6C => w32 (terraceStart c r.cls r.sample)
    | _ => 0

/-- Base of the window. -/
def windowBase : Nat := 0x3FF000

/-! ## Format M (R88) -/

/-- The address of a VLD or VST. -/
def mAddr (c : Core) (w : Nat) : Nat := (areg c (fld w 48 3) + fld w 0 22) % 2 ^ 22

/-- Bytes of one lane. -/
def mSize (w : Nat) : Nat := if fld w 46 2 = 0 then 4 else 2

/-- Lanes that an instruction accesses: one for the word form. -/
def mLanes (c : Core) (w : Nat) : Nat := if isV (fld w 51 5) then maskLanes c (fld w 42 4) else 1

/-- A lane of a width from its bytes. -/
def laneOf (width n : Nat) : W32 := if width = 0 then w32 n else if width = 1 then ofBf16 n else ofFp16 n

/-- The bytes of a lane in a width. -/
def laneBytes (width : Nat) (x : W32) : List Byte :=
  if width = 0 then toBytes 4 x.toNat else toBytes 2 (if width = 1 then toBf16 x else toFp16 x)

/-- Why a read of a range cannot go on now, if it cannot. -/
def readStop (s : State) (c : Core) (a n : Nat) : Option Eff :=
  if n = 0 then none
  else if !mayReadRange c a n then some (.prot s)
  else if readBlocked c a n then some (.stall 3)
  else if !rangeReady c a n then some (.stall 4)
  else none

/-- Why a write of a range cannot go on now, if it cannot. -/
def writeStop (s : State) (c : Core) (r : Run) (a n : Nat) : Option Eff :=
  if n = 0 then none
  else if !mayWriteRange c r a n then some (.prot s)
  else if writeBlocked c a n then some (.stall 3)
  else if !rangeReady c a n then some (.stall 4)
  else none

def execVld (id : CoreId) (s : State) : State :=
  issue s id 0x10 fun s k c r w =>
    let a := mAddr c w
    let n := mLanes c w * mSize w
    if a % mSize w ≠ 0 then .illegal s
    else if !isV (fld w 51 5) && decide (windowBase ≤ a) then
      .next (setCore (drawNat s).2 k (setReg c (fld w 51 5) (windowWord s k c r (a - windowBase))))
    else
      match readStop s c a n with
      | some e => e
      | none =>
        let q := coreCheck s k (some r.ctx) a n
        if q.2 then .ue q.1
        else
          let bs := coreBytes q.1 k (some r.ctx) a n
          let lane := fun i => laneOf (fld w 46 2) (bytesAt bs (i * mSize w) (mSize w))
          if isV (fld w 51 5) then
            let new := (List.range (mLanes c w)).map lane
            .next (setCore q.1 k (setVec c (fld w 51 5) (mergeLanes (mLanes c w) new (vecVal c (fld w 51 5)))))
          else .next (setCore q.1 k (setReg c (fld w 51 5) (lane 0)))

def execVst (id : CoreId) (s : State) : State :=
  issue s id 0x11 fun s k c r w =>
    let a := mAddr c w
    let n := mLanes c w * mSize w
    if a % mSize w ≠ 0 then .illegal s
    else if !isV (fld w 51 5) && decide (windowBase ≤ a) then
      let o := a - windowBase
      if 0x40 ≤ o then .next s
      else if r.speculative then deferEff s k c r [] (fun _ => .amax (o / 4) (regVal c (fld w 51 5)))
      else .next (wr s (corPage k) (cor_AMAX_n + o) (regVal c (fld w 51 5)).toNat)
    else
      match writeStop s c r a n with
      | some e => e
      | none =>
        let bs := if isV (fld w 51 5) then ((vecVal c (fld w 51 5)).take (mLanes c w)).flatMap (laneBytes (fld w 46 2))
          else toBytes 4 (regVal c (fld w 51 5)).toNat
        .next (progStore s k r a bs)

/-! ## Format V (R87) -/

/-- A lane-wise instruction: enabled lanes take the result, the others keep their value. -/
def lanewise (g : Nat → W32 → W32 → W32 → W32) (s : State) (k : Nat) (c : Core) (_ : Run) (w : Nat) : Eff :=
  let a := vecVal c (fld w 46 5)
  let b := vecSrc c (fld w 41 5)
  let d := vecSrc c (fld w 36 5)
  let new := (List.range 64).map (fun i => g (fld w 34 2) (a.getD i 0) (b.getD i 0) (d.getD i 0))
  .next (setCore s k (setVec c (fld w 51 5) (mergeLanes (maskLanes c (fld w 30 4)) new (vecVal c (fld w 51 5)))))

/-- Signed maximum. -/
def intMax (a b : W32) : W32 := if a.toInt < b.toInt then b else a
def intMin (a b : W32) : W32 := if b.toInt < a.toInt then b else a

/-- One step of VADD, VMUL and VMAX in a type. -/
def laneAdd (ty : Nat) (a b : W32) : W32 := if ty = 3 then a + b else roundType ty (f32Add a b)
def laneMul (ty : Nat) (a b : W32) : W32 := if ty = 3 then a * b else roundType ty (f32Mul a b)
def laneMax (ty : Nat) (a b : W32) : W32 := if ty = 3 then intMax a b else roundType ty (f32Max a b)
def laneMin (ty : Nat) (a b : W32) : W32 := if ty = 3 then intMin a b else roundType ty (f32Min a b)

def execVadd (id : CoreId) (s : State) : State := issue s id 0x12 (lanewise fun ty a b _ => laneAdd ty a b)
def execVmul (id : CoreId) (s : State) : State := issue s id 0x13 (lanewise fun ty a b _ => laneMul ty a b)
def execVmax (id : CoreId) (s : State) : State := issue s id 0x14 (lanewise fun ty a b _ => laneMax ty a b)
def execVfma (id : CoreId) (s : State) : State :=
  issue s id 0x15 (lanewise fun ty a b d => roundType ty (f32Fma a b d))
def execVexp (id : CoreId) (s : State) : State := issue s id 0x18 (lanewise fun ty a _ _ => roundType ty (f32Exp2ulp a))
def execVrsq (id : CoreId) (s : State) : State := issue s id 0x19 (lanewise fun ty a _ _ => roundType ty (f32Rsq2ulp a))
def execVtanh (id : CoreId) (s : State) : State := issue s id 0x1A (lanewise fun ty a _ _ => roundType ty (f32Tanh2ulp a))

/-- One level of the tree of VRED: pairs combine, a value without a partner passes up. -/
def redLevel (g : W32 → W32 → W32) : List (Option W32) → List (Option W32)
  | some a :: some b :: t => some (g a b) :: redLevel g t
  | some a :: none :: t => some a :: redLevel g t
  | none :: b :: t => b :: redLevel g t
  | l => l

/-- The tree over 64 lanes. -/
def redTree (g : W32 → W32 → W32) (l : List (Option W32)) : Option W32 :=
  (iter 6 (fun _ l => redLevel g l) l).head?.join

/-- A magnitude (VRED AMAX): unsigned in INT32. -/
def magnitude (ty : Nat) (x : W32) : W32 :=
  if ty = 3 then w32 x.toInt.natAbs else if f32IsNaN x then f32NaN else f32Abs x

/-- The combining step of VRED: 0 SUM, 1 MAX, 2 MIN, 3 AMAX over magnitudes. -/
def redStep (ty op : Nat) (a b : W32) : W32 :=
  match op with
  | 0 => laneAdd ty a b
  | 1 => laneMax ty a b
  | 2 => laneMin ty a b
  | _ => if ty = 3 then (if a.toNat < b.toNat then b else a) else roundType ty (f32Max a b)

/-- The result of VRED over lanes 0 to n - 1. -/
def vred (ty op n : Nat) (v : List W32) : W32 :=
  let lane := fun i => if i < n then some (if op = 3 then magnitude ty (v.getD i 0) else v.getD i 0) else none
  match redTree (redStep ty op) ((List.range 64).map lane) with
  | some x => if ty = 3 then x else roundType ty x
  | none => 0

def execVred (id : CoreId) (s : State) : State :=
  issue s id 0x16 fun s k c _ w =>
    .next (setCore s k (setReg c (fld w 51 5) (vred (fld w 34 2) (fld w 28 2) (maskLanes c (fld w 30 4)) (vecVal c (fld w 46 5)))))

/-! ## VCVT (R31 to R37, R42, R43, R89) -/

/-- The seed of a die (R35). -/
def srSeed (s : State) (d : Nat) : Nat := rd s (.tke d) tke_SR_SEED_LO + 2 ^ 32 * rd s (.tke d) tke_SR_SEED_HI

/-- The writes of a VCVT, as (address, bytes). An unblocked format writes the enabled lanes only; an odd count of INT4
keeps the other half of its last byte. -/
def cvtWrites (f n eb sb : Nat) (lastByte : Nat) (o : VcvtOut) : List (Nat × List Byte) :=
  if fmtBlocked f then
    (o.halves.zipIdx).flatMap (fun h => match h.1 with
      | none => []
      | some (codes, sc) => [((eb + h.2 * (4 * fmtBits f)) % 2 ^ 22, packBits (fmtBits f) codes),
          ((sb + h.2) % 2 ^ 22, [BitVec.ofNat 8 sc])])
  else
    let codes := (o.halves.flatMap (fun h => match h with | some q => q.1 | none => List.replicate 32 0)).take n
    if n = 0 then []
    else if f = 7 ∧ n % 2 = 1 then [(eb, packBits 4 (codes ++ [lastByte / 16]))]
    else [(eb, packBits (fmtBits f) codes)]

/-- The first of a list of writes that cannot go on, if any. -/
def writesStop (s : State) (c : Core) (r : Run) (l : List (Nat × List Byte)) : Option Eff :=
  l.findSome? (fun x => writeStop s c r x.1 x.2.length)

/-- A running attempt with new counts is put back. -/
def setRun (s : State) (k : Nat) (r : Run) : State := let c := getCore s k; setCore s k { c with run := some r }

/-- Whether SAT trips the attempt: a NARROW attempt below CEILING (R43, R44). -/
def satTrip (s : State) (d : Nat) (r : Run) : Bool :=
  r.narrow && r.fmtNow != r.ceiling && satTrips (classA s d r.fmtc) r.sat

/-- The word of a byte as stored for an attempt takes a syndrome. -/
def markByte (s : State) (k : Nat) (r : Run) (a : Nat) (x : Byte) : State :=
  each (stored (getCore s k) (some r.ctx) a 1) (fun p s => setSynd s (coreAddr k p.1 / 8) x) s

/-- The read that a write of half a byte makes of its word, if the conversion ends in one: corrected first, and whether the word is
uncorrectable, which the write then stores poisoned (R364). A speculative write has opened its slab before (R173). -/
def halfRead (s : State) (k : Nat) (r : Run) (f n a : Nat) : State × Bool :=
  if f = 7 ∧ n % 2 = 1 then
    let q := coreCheck (openSlabs k r a 1 s) k (some r.ctx) a 1
    (if q.2 then markByte q.1 k r a 0 else q.1, q.2)
  else (s, false)

def execVcvt (id : CoreId) (s : State) : State :=
  issue s id 0x17 fun s k c r w =>
    let d := k / 384
    let f := fmtNow (fld w 41 4) r.fmtNow
    let n := maskLanes c (fld w 30 4)
    let lanes := ((vecVal c (fld w 51 5)).zipIdx).map (fun q => (q.1, decide (q.2 < n)))
    let fixed := if w.testBit 39 then some ((regVal c (fld w 34 5)).toNat % 256) else none
    let rnd := if w.testBit 40 then some (srBits (srSeed s d) r.rkey r.sample r.vidx) else none
    let o := vcvt f fixed rnd lanes
    let eb := areg c (fld w 48 3)
    let a := (eb + n / 2) % 2 ^ 22
    match writesStop s c r (cvtWrites f n eb (areg c (fld w 45 3)) 0 o) with
    | some e => e
    | none =>
      let q := halfRead s k r f n a
      let ws := cvtWrites f n eb (areg c (fld w 45 3)) (ofBytes (coreBytes q.1 k (some r.ctx) a 1)) o
      let r' := { addCounts r o.sat o.nz o.uf with vidx := (r.vidx + 1) % 2 ^ 26 }
      let s := each ws (fun x s => progStore s k r x.1 x.2) q.1
      let s := setRun (if q.2 then markByte s k r a 3 else s) k r'
      if decide (0 < o.sat) && satTrip s d r' then .left (leave s k r' 1) else .next s

end Sys2Proof.Machine
end

