-- ==== Sys2Proof/Machine/Array.lean ====
section
/-! DEFINITION. Machine/Array.lean: the multiply-accumulate array and the basin (R28 to R30, R41 to R43, R48 to R74, R90):
entering the array queue, and the steps by which queued instructions begin. -/
namespace Sys2Proof.Machine

/-! ## Entering the queue (R53, R56) -/

/-- Sub-passes of a format code in an attempt (R42). -/
def passes (code now : Nat) : Nat := if code = 15 then 64 / chunkLen (fmtClass now) else 1

/-- An open group as the queue ahead will leave it. -/
structure WGroup where
  nt : Nat
  c : Nat
  seq : Bool
  lv : Nat
  chunks : Nat
  ctx : Nat
  deriving DecidableEq, Repr

/-- The array as the queue ahead will leave it: the latched tile (resolved format, C), the retained set (code, N) and the
open groups. -/
structure Walk where
  bank : Option (Nat × Nat)
  retained : Option (Nat × Nat)
  groups : Tab (Option WGroup)
  deriving DecidableEq, Repr

/-- The array as it stands. -/
def walkNow (c : Core) : Walk :=
  { bank := (if c.recentB then c.bankB else c.bankA).map (fun b => (b.fmt, b.c)),
    retained := c.retained.map (fun r => (r.fmt, r.n)),
    groups := c.groups.map (fun e => (e.1, e.2.map (fun g => ⟨g.nt, g.c, g.seq, g.lv, g.chunks, g.ctx⟩))) }

/-- The effect of one queued instruction. -/
def walkStep (w : Walk) (e : QEntry) : Walk :=
  match e.op with
  | .latch _ _ f c _ _ _ => { w with bank := some (fmtNow f e.now, c) }
  | .stream _ _ f n g reuse keep _ _ _ =>
    let more := passes f e.now - e.sub
    { w with retained := if keep then (if reuse then w.retained else some (f, n)) else none,
             groups := match tget none w.groups g with
               | some x => tput w.groups g (some { x with chunks := x.chunks + more })
               | none => w.groups }
  | .opn g nt c seq _ lv _ _ _ => { w with groups := tput w.groups g (some ⟨nt, c, seq, lv, 0, e.ctx⟩) }
  | .drain g _ _ _ _ _ _ _ => { w with groups := tdel w.groups g }
  | .chk _ => w

/-- The array as the whole queue will leave it. -/
def walk (c : Core) : Walk := c.queue.foldl walkStep (walkNow c)

/-- The open groups of a walk. -/
def wOpen (w : Walk) : List WGroup := w.groups.filterMap (·.2)

/-- Whether the last array instruction of the queue is a TASK LATCH that awaits its STREAM (R42). -/
def latchPends (c : Core) : Bool :=
  match c.queue.getLast? with | some e => (match e.op with | .latch _ _ f _ _ _ _ => f == 15 | _ => false) | none => false

/-- Whether an array instruction raises ILLEGAL_INSTR as it would enter the queue (R22, R42, R56). -/
def arrayIllegal (c : Core) (now : Nat) (op : ArrOp) : Bool :=
  let w := walk c
  match op with
  | .latch _ _ _ _ _ _ _ => latchPends c
  | .stream _ _ f n g reuse _ _ _ _ =>
    (f == 15) != latchPends c
      || (match w.bank with
          | none => true
          | some (bf, bc) => fmtClass (fmtNow f now) != fmtClass bf
              || (match tget none w.groups g with
                  | none => true
                  | some x => x.nt != n || x.c != bc || (!x.seq && decide (2 ^ x.lv - 1 < x.chunks + passes f now))))
      || (if reuse then (match w.retained with | none => true | some (rf, rn) => rn != n || rf != f)
          else w.retained.isSome || decide (256 < passes f now * n))
  | .opn g nt _ _ _ _ _ _ _ =>
    latchPends c || (tget none w.groups g).isSome || decide (256 < sumOf ((wOpen w).map (·.nt)) + nt)
  | .drain g _ _ _ _ _ _ _ | .chk g => latchPends c || (tget none w.groups g).isNone

/-- Whether a range of an array instruction lies outside what it may reach at all (R80). -/
def arrayOutside (c : Core) (now : Nat) (op : ArrOp) : Bool :=
  match op with
  | .latch _ _ f _ _ _ _ | .stream _ _ f _ _ _ _ _ _ _ => (readRanges op (fmtNow f now)).any (fun r => !inData r.1 r.2)
  | .opn _ nt _ seq _ lv spill _ _ => !seq && decide (1 < lv) && !inData spill ((lv - 1) * (nt + 6) * 256)
  | .drain g base st row f _ _ _ => (drainRanges base st row f (groupExtent c c.queue g)).any (fun r => !inData r.1 r.2)
  | .chk _ => false

/-- An array instruction enters the queue of 8. -/
def enqueue (s : State) (k : Nat) (c : Core) (r : Run) (w : Nat) (op : ArrOp) : Eff :=
  if 8 ≤ c.queue.length then .stall 2
  else if arrayIllegal c r.fmtNow op then .illegal s
  else if arrayOutside c r.fmtNow op then .prot s
  else .next (setCore s k { c with
    serial := c.serial + 1, queue := c.queue ++ [⟨op, c.pc, opcodeOf w, r.ctx, r.fmtNow, none, 0, c.serial⟩] })

def execLatch (id : CoreId) (s : State) : State :=
  issue s id 0x20 fun s k c r w =>
    enqueue s k c r w (.latch (areg c (fld w 53 3)) (areg c (fld w 50 3)) (fld w 46 4) (fld w 40 6 + 1) (fld w 34 6 + 1)
      (fld w 18 16) (fld w 8 10))

def execStream (id : CoreId) (s : State) : State :=
  issue s id 0x21 fun s k c r w =>
    enqueue s k c r w (.stream (areg c (fld w 53 3)) (areg c (fld w 50 3)) (fld w 46 4) (fld w 37 9) (fld w 34 3)
      (w.testBit 33) (w.testBit 32) (fld w 26 6 + 1) (fld w 10 16) (fld w 0 10))

def execOpen (id : CoreId) (s : State) : State :=
  issue s id 0x22 fun s k c r w =>
    let lv := fld w 32 4
    let spill := if w.testBit 38 ∨ lv ≤ 1 then 0 else areg c (fld w 29 3)
    if spill % 64 ≠ 0 then .illegal s
    else enqueue s k c r w (.opn (fld w 53 3) (fld w 45 8 + 1) (fld w 39 6 + 1) (w.testBit 38)
      (match fld w 36 2 with | 0 => 4 | 1 => 8 | _ => 16) lv spill (fld w 24 5) (w.testBit 23))

def execDrain (id : CoreId) (s : State) : State :=
  issue s id 0x23 fun s k c r w =>
    let base := areg c (fld w 50 3)
    if base % 64 ≠ 0 then .illegal s
    else enqueue s k c r w (.drain (fld w 53 3) base (fld w 34 16) (w.testBit 33) (fld w 31 2) (w.testBit 30)
      (if w.testBit 29 then some (fld w 25 4) else none) (w.testBit 24))

def execChk (id : CoreId) (s : State) : State :=
  issue s id 0x24 fun s k c r w => enqueue s k c r w (.chk (fld w 53 3))

/-! ## Operands of one pass -/

/-- The elements of one vector of a sub-pass: Kv elements of format f from element and scale bytes; `first` is the index
of its first element in its 64-element group (R23, R42, R50). -/
def decodeVec (f kv first : Nat) (el sc : List Byte) : List Elt × Nat :=
  let code := fun i => bitsAt el (fmtBits f) (first + i)
  if f = 10 then splitGroup ((List.range kv).map code)
  else ((List.range kv).map (fun i => decodeElt f (code i) (bytesAt sc ((first + i) / 32) 1)), 0)

/-- Valid elements of sub-pass m of p over Kv elements of the operand. -/
def subKv (p m kv : Nat) : Nat := if p = 1 then kv else min (64 / p) (kv - m * (64 / p))

/-- What a sub-pass reads of a vector's element bytes and scale bytes, counted from the vector's own bases. -/
def subBytes (f p m kv : Nat) : Nat × Nat :=
  vecBytes f (if p = 1 then kv else if subKv p m kv = 0 then 0 else m * (64 / p) + subKv p m kv)

/-- Reads vectors of a sub-pass: the state with corrections, the elements of each, the underflows of R29, and whether a
word is uncorrectable. -/
def readVecs (s : State) (k ctx n ea sa f p m kv st ss : Nat) : State × List (List Elt) × Nat × Bool :=
  let b := subBytes f p m kv
  (List.range n).foldl (fun (r : State × List (List Elt) × Nat × Bool) i =>
    let q := coreCheck r.1 k (some ctx) ((ea + i * st) % 2 ^ 22) b.1
    let q2 := coreCheck q.1 k (some ctx) ((sa + i * ss) % 2 ^ 22) b.2
    let el := coreBytes q2.1 k (some ctx) ((ea + i * st) % 2 ^ 22) b.1
    let sc := coreBytes q2.1 k (some ctx) ((sa + i * ss) % 2 ^ 22) b.2
    let d := decodeVec f (subKv p m kv) (if p = 1 then 0 else m * (64 / p)) el sc
    (q2.1, r.2.1 ++ [d.1], r.2.2.1 + d.2, r.2.2.2 || q.2 || q2.2)) (s, [], 0, false)

/-- Whether a core's array may move: its partition runs and the core has not stopped. -/
def arrayGoes (s : State) (k : Nat) (c : Core) : Bool := runs s (k / 384) && !c.halted && roleOf s (k / 384) (k % 384) == 0

/-- The run that a queue entry belongs to. -/
def entryRun (c : Core) (e : QEntry) : Option Run := c.run.bind (fun r => if r.ctx = e.ctx && !r.ended then some r else none)

/-- A step of the array on the first queued instruction of the running task. -/
def arrayStep (id : CoreId) (f : Nat → Core → Run → QEntry → State → State) (s : State) : State :=
  let k := cid id
  let c := getCore s k
  match c.queue with
  | e :: _ =>
    match entryRun c e with
    | some r => if arrayGoes s k c then f k c r e s else s
    | none => s
  | [] => s

/-- Replaces the first queue entry, or removes it (R42: a TASK pair stays until its last sub-pass has begun). -/
def queueHead (s : State) (k : Nat) (e : Option QEntry) : State :=
  let c := getCore s k
  setCore s k { c with queue := match e with | some x => x :: c.queue.tail | none => c.queue.tail }

/-- The STREAM that follows a TASK LATCH in the queue. -/
def pairStream (c : Core) : Option QEntry := c.queue[1]?

/-- A LATCH reads its vectors into a bank (R49, R50). -/
def latchDo (k : Nat) (r : Run) (e : QEntry) (ea sa code n kv st ss : Nat) (s : State) : State :=
  let f := fmtNow code e.now
  let p := passes code e.now
  let q := readVecs s k e.ctx n ea sa f p e.sub kv st ss
  if q.2.2.2 then taskFault q.1 k r 0x08 e.pc e.opcode
  else
    let bank : Bank := ⟨f, n, subKv p e.sub kv, q.2.1⟩
    let c := getCore q.1 k
    let c := if f = 10 then { c with bankA := some bank, bankB := none, recentB := false }
      else if c.recentB then { c with bankA := some bank, recentB := false }
      else { c with bankB := some bank, recentB := true }
    let c := { c with run := c.run.map (fun r => addCounts r 0 0 q.2.2.1) }
    queueHead (setCore q.1 k c) k (if code = 15 then some { e with sub := e.sub + 1 } else none)

def execLatchBegin (id : CoreId) (s : State) : State :=
  arrayStep id (fun k c r e s =>
    match e.op with
    | .latch ea sa code n kv st ss =>
      let due := if code = 15 then
          (match pairStream c with | some x => x.sub == e.sub | none => e.sub == 0) && decide (e.sub < passes code e.now)
        else true
      let ranges := readRanges e.op (fmtNow code e.now)
      if !due then s
      else if ranges.any (fun x => !mayReadRange c x.1 x.2) then programError s k r 0x0B e.pc e.opcode
      else if ranges.any (fun x => !rangeReady c x.1 x.2) then s
      else latchDo k r e ea sa code n kv st ss s
    | _ => s) s

/-! ## Fills (R51) -/

/-- Feeder entries that a STREAM has freed: with KEEP = 0 those of the vectors that its sub-passes have taken into the array. -/
def feederFreed (e : QEntry) (reuse : Bool) : Nat :=
  match e.op with | .stream _ _ _ n _ r false _ _ _ => if r = reuse then e.sub * n else 0 | _ => 0

/-- Feeder entries in use: the retained set and the fills that have been made. -/
def feederUsed (c : Core) : Nat :=
  (match c.retained with | some r => r.vecs.length - sumOf (c.queue.map (feederFreed · true)) | none => 0)
    + sumOf (c.queue.map (fun e => match e.fill with | some v => v.length - feederFreed e false | none => 0))

/-- The first STREAM LOAD of a queue whose fill has not been made, with the entries ahead of it. -/
def nextFill : List QEntry → List QEntry → Option (List QEntry × QEntry)
  | _, [] => none
  | ahead, e :: es =>
    match e.op with
    | .stream _ _ _ _ _ reuse _ _ _ _ => if !reuse && e.fill.isNone then some (ahead, e) else nextFill (ahead ++ [e]) es
    | _ => nextFill (ahead ++ [e]) es

/-- Makes the fill of a STREAM LOAD: the vectors of every sub-pass, in order. -/
def fillDo (k : Nat) (r : Run) (i : Nat) (e : QEntry) (ea sa code n kv st ss : Nat) (s : State) : State :=
  let f := fmtNow code e.now
  let p := passes code e.now
  let q := (List.range p).foldl (fun (a : State × List (List Elt) × Nat × Bool) m =>
    let x := readVecs a.1 k e.ctx n ea sa f p m kv st ss
    (x.1, a.2.1 ++ x.2.1, a.2.2.1 + x.2.2.1, a.2.2.2 || x.2.2.2)) (s, [], 0, false)
  if q.2.2.2 then taskFault q.1 k r 0x08 e.pc e.opcode
  else
    let c := getCore q.1 k
    setCore q.1 k { c with queue := c.queue.set i { e with fill := some q.2.1 },
                           run := c.run.map (fun r => addCounts r 0 0 q.2.2.1) }

def execStreamFill (id : CoreId) (s : State) : State :=
  let k := cid id
  let c := getCore s k
  match nextFill [] c.queue with
  | some (ahead, e) =>
    match entryRun c e, e.op with
    | some r, .stream ea sa code n _ _ _ kv st ss =>
      let ranges := readRanges e.op (fmtNow code e.now)
      let writes := pendingWritesFrom c [] ahead
      if !arrayGoes s k c then s
      else if 256 < feederUsed c + passes code e.now * n then s
      else if ranges.any (fun x => meets x writes || !rangeReady c x.1 x.2) then s
      else if ranges.any (fun x => !mayReadRange c x.1 x.2) then programError s k r 0x0B e.pc e.opcode
      else fillDo k r ahead.length e ea sa code n kv st ss s
    | _, _ => s
  | none => s

/-! ## Passes (R28, R58 to R61, R65, R68) -/

/-- Exact dot product of two vectors of elements, refused ones as zero; units of 2^-298. -/
def dot (a b : List Int) : Int := (a.zip b).foldl (fun acc p => acc + p.1 * p.2) 0

/-- The values of a vector, padded with zero to a chunk length. -/
def eltVals (len : Nat) (v : List Elt) : List Int :=
  v.map (·.v) ++ List.replicate (len - v.length) 0

/-- Element-wise sum of vectors. -/
def sumVecs (len : Nat) (vs : List (List Int)) : List Int :=
  (List.range len).map (fun i => vs.foldl (fun acc v => acc + v.getD i 0) 0)

/-- Bits of a magnitude. -/
def bitLen (n : Nat) : Nat := if n = 0 then 0 else Nat.log2 n + 1

/-- n / 2^q to the nearest integer, ties to even. -/
def rneInt (x : Int) (q : Nat) : Int := if x < 0 then -(rneShift x.natAbs q : Int) else (rneShift x.natAbs q : Int)

/-- A check operand (R59): the exact sum to a signed 16-bit significand at the smallest q. -/
def checkOperand (x : Int) : Int :=
  let n := bitLen x.natAbs
  if n ≤ 15 then x
  else
    match [n - 16, n - 15, n - 14].find? (fun q => decide (-32768 ≤ rneInt x q ∧ rneInt x q ≤ 32767)) with
    | some q => rneInt x q * 2 ^ q
    | none => x

/-- The group sums of one entry over a chunk: one for BALANCED, one for each G consecutive K positions for SEQUENTIAL. -/
def groupSums (seq : Bool) (g len : Nat) (a b : List Int) : List W32 :=
  if seq then (List.range (len / g)).map (fun i => f32Round (dot ((a.drop (i * g)).take g) (b.drop (i * g))) 298)
  else [f32Round (dot a b) 298]

/-- A tile of values by a function of weight row and column operand. -/
def passTile (f : List Int → List Int → List W32) (ws xs : List (List Int)) (sw sx : List Int) : List (List (List W32))
    × List (List W32) × List (List W32) × List W32 :=
  (ws.map (fun w => xs.map (f w)), xs.map (f sw), ws.map (fun w => f w sx), f sw sx)

/-- Two tiles entry by entry. -/
def zipTile (g : W32 → W32 → W32) (a b : Tile) : Tile :=
  ⟨(a.body.zip b.body).map (fun p => (p.1.zip p.2).map (fun q => g q.1 q.2)),
    (a.chkRow.zip b.chkRow).map (fun q => g q.1 q.2), (a.chkCol.zip b.chkCol).map (fun q => g q.1 q.2),
    g a.corner b.corner⟩

/-- The zero tile of an extent. -/
def zeroTile (nt c : Nat) : Tile :=
  ⟨List.replicate nt (List.replicate c 0), List.replicate c 0, List.replicate nt 0, 0⟩

/-- Every value of a tile. -/
def tileAll (t : Tile) : List W32 := t.body.flatten ++ t.chkRow ++ t.chkCol ++ [t.corner]

/-- Whether a value is at most 2^24 in magnitude, and whether every value of a tile is (R61). -/
def f32Small (x : W32) : Bool := f32IsFinite x && decide ((f32Fx x).natAbs ≤ 2 ^ 173)
def tileSmall (t : Tile) : Bool := (tileAll t).all f32Small

/-- Adds the group sums of one pass to a SEQUENTIAL accumulator (R68); and whether every sum and every value that the accumulator
takes is at most 2^24 in magnitude. -/
def seqAdd (acc : W32) (gs : List W32) : W32 := gs.foldl f32Add acc
def seqSmall (acc : W32) (gs : List W32) : Bool :=
  (gs.foldl (fun (q : W32 × Bool) g => (f32Add q.1 g, q.2 && f32Small g && f32Small (f32Add q.1 g))) (acc, true)).2

/-- Whether a format is INT8 or INT4. -/
def isIntFmt (f : Nat) : Bool := f == 0 || f == 7

/-- One pass into a group: the tile after it, by mode and chunk index (R65, R68), and whether every value that arose is at most
2^24 in magnitude (R61). -/
def passInto (g : Group) (cls : Nat) (ws xs : List (List Elt)) : Tile × Bool :=
  let len := chunkLen cls
  let wv := ws.map (eltVals len)
  let xv := xs.map (eltVals len)
  let sw := (sumVecs len wv).map checkOperand
  let sx := (sumVecs len xv).map checkOperand
  let gsz := if cls = 3 then 16 else g.gsz
  let t := passTile (groupSums g.seq gsz len) wv xv sw sx
  if g.seq then
    let old := g.landing.getD (zeroTile g.nt g.c)
    let body := (old.body.zip t.1).map (fun p => p.1.zip p.2)
    let chkRow := old.chkRow.zip t.2.1
    let chkCol := old.chkCol.zip t.2.2.1
    let add := fun (q : W32 × List W32) => seqAdd q.1 q.2
    let small := fun (q : W32 × List W32) => seqSmall q.1 q.2
    (⟨body.map (·.map add), chkRow.map add, chkCol.map add, seqAdd old.corner t.2.2.2⟩,
      body.all (·.all small) && chkRow.all small && chkCol.all small && seqSmall old.corner t.2.2.2)
  else
    let one := fun (l : List W32) => l.headD 0
    let v : Tile := ⟨t.1.map (·.map one), t.2.1.map one, t.2.2.1.map one, one t.2.2.2⟩
    match g.landing with
    | some old =>
      if g.chunks % 2 = 1 then
        let w := zipTile f32Add old v
        (w, tileSmall v && tileSmall w)
      else (v, tileSmall v)
    | none => (v, tileSmall v)

/-- Refused elements of the operands of a pass, valid positions only (R30; log entry 9). -/
def refusedIn (vs : List (List Elt)) : Nat := sumOf (vs.map (fun v => (v.filter (·.refused)).length))

/-- A group after one pass. -/
def groupPass (g : Group) (bf wf : Nat) (ws xs : List (List Elt)) : Group :=
  let t := passInto g (fmtClass wf) ws xs
  { g with landing := some t.1, chunks := g.chunks + 1, mergeDue := !g.seq && g.chunks % 2 == 1,
           exact := g.exact && isIntFmt bf && isIntFmt wf && t.2,
           refused := g.refused + refusedIn ws + refusedIn xs }

/-- A STREAM moves one sub-pass through the array. -/
def streamDo (k : Nat) (e : QEntry) (lat : Option QEntry) (b : Bank) (g : Nat) (grp : Group) (vecs : List (List Elt))
    (code n : Nat) (reuse keep : Bool) (s : State) : State :=
  let f := fmtNow code e.now
  let p := passes code e.now
  let ws := (vecs.drop (e.sub * n)).take n
  let grp' := groupPass grp b.fmt f ws b.cols
  let c := getCore s k
  let rest := match lat with | some _ => c.queue.drop 2 | none => c.queue.tail
  let last := e.sub + 1 == p
  let queue := if last then rest else (match lat with | some l => [l] | none => []) ++ { e with sub := e.sub + 1 } :: rest
  let retained := if last then
      (if keep then (if reuse then c.retained else some ⟨e.ctx, code, n, vecs⟩) else none)
    else c.retained
  setCore s k { c with
    groups := tput c.groups g (some grp'), queue := queue, retained := retained, due := if grp'.mergeDue then c.due ++ [g] else c.due }

/-- Whether a STREAM and its LATCH are in step (R42): sub-pass m of the STREAM against sub-pass m of the LATCH. -/
def inStep (c : Core) (e : QEntry) : Option (Option QEntry × QEntry) :=
  match e.op with
  | .latch _ _ f _ _ _ _ =>
    if f = 15 then
      match c.queue[1]? with
      | some x => if e.sub = x.sub + 1 then some (some e, x) else none
      | none => none
    else none
  | .stream _ _ _ _ _ _ _ _ _ _ => some (none, e)
  | _ => none

def execStreamBegin (id : CoreId) (s : State) : State :=
  arrayStep id (fun k c _ e s =>
    match inStep c e with
    | some (lat, x) =>
      match x.op with
      | .stream _ _ code n g reuse keep _ _ _ =>
        let vecs := if reuse then c.retained.map (·.vecs) else x.fill
        match vecs, (if c.recentB then c.bankB else c.bankA), tget none c.groups g with
        | some v, some b, some grp =>
          if grp.mergeDue || grp.nt != n || grp.c != b.c then s
          else streamDo k x lat b g grp v code n reuse keep s
        | _, _, _ => s
      | _ => s
    | none => s) s

/-! ## Spill levels and the merge unit (R65 to R67) -/

/-- Core address of a row of a spill level. -/
def levelRow (g : Group) (l row : Nat) : Nat := g.spill + (l - 1) * (g.nt + 6) * 256 + row * 256

/-- Rows of a tile as a spill level holds them: Nt rows, the check row, four rows of the check column, the corner. -/
def tileRows (g : Group) (t : Tile) : List (Nat × List W32) :=
  t.body.zipIdx.map (fun p => (p.2, p.1)) ++ [(g.nt, t.chkRow), (g.nt + 1, t.chkCol), (g.nt + 5, [t.corner])]

/-- Writes a level. -/
def writeLevel (k : Nat) (g : Group) (l : Nat) (t : Tile) (s : State) : State :=
  each (tileRows g t) (fun p s => store s (coreAddr k (levelRow g l p.1)) (p.2.flatMap (fun x => toBytes 4 x.toNat))) s

/-- Reads a row of a level: words, state, and whether one is uncorrectable. -/
def readRow (s : State) (k : Nat) (g : Group) (l row n : Nat) : State × List W32 × Bool :=
  let a := coreAddr k (levelRow g l row)
  let q := checkRead s a (4 * n)
  let bs := memRead q.1 a (4 * n)
  (q.1, (List.range n).map (fun i => w32 (bytesAt bs (4 * i) 4)), q.2)

/-- Reads a level. -/
def readLevel (s : State) (k : Nat) (g : Group) (l : Nat) : State × Tile × Bool :=
  let b := (List.range g.nt).foldl (fun (r : State × List (List W32) × Bool) i =>
    let q := readRow r.1 k g l i g.c
    (q.1, r.2.1 ++ [q.2.1], r.2.2 || q.2.2)) (s, [], false)
  let cr := readRow b.1 k g l g.nt g.c
  let cc := readRow cr.1 k g l (g.nt + 1) g.nt
  let co := readRow cc.1 k g l (g.nt + 5) 1
  (co.1, ⟨b.2.1, cr.2.1, cc.2.1, co.2.1.headD 0⟩, b.2.2 || cr.2.2 || cc.2.2 || co.2.2)

/-- Carries landing rows up the levels: from level l while bit l of chunk index j is 1; the first argument bounds l. The tile, its
level, whether a spill word was uncorrectable, and whether every carry was at most 2^24 in magnitude. -/
def mergeUp (k : Nat) (g : Group) (j : Nat) : Nat → Nat → Tile → State → State × Tile × Nat × Bool × Bool
  | 0, l, t, s => (s, t, l, false, tileSmall t)
  | fuel + 1, l, t, s =>
    if j.testBit l then
      let q := readLevel s k g l
      let r := mergeUp k g j fuel (l + 1) (zipTile f32Add q.2.1 t) q.1
      (r.1, r.2.1, r.2.2.1, r.2.2.2.1 || q.2.2, r.2.2.2.2 && tileSmall t)
    else (s, t, l, false, tileSmall t)

/-- The group whose merge became due first. -/
def dueMerge (c : Core) : Option (Nat × Group) :=
  c.due.findSome? (fun n => match tget none c.groups n with | some g => if g.mergeDue then some (n, g) else none | none => none)

/-- The merge unit carries the landing rows of the group whose merge is due up its levels (R66). An uncorrectable spill word names the
core's PC and opcode 0 (DESIGN CHOICE, log entry 82). -/
def execMerge (id : CoreId) (s : State) : State :=
  let k := cid id
  let c := getCore s k
  match dueMerge c with
  | some (n, g) =>
    match g.landing with
    | some t =>
      if !arrayGoes s k c then s
      else
        let q := mergeUp k g (g.chunks - 1) 12 1 t s
        if q.2.2.2.1 then
          match c.run with
          | some r => taskFault q.1 k r 0x08 c.pc 0
          | none => q.1
        else
          let s := writeLevel k g q.2.2.1 q.2.1 q.1
          let c := getCore s k
          let g' := { g with landing := none, mergeDue := false, exact := g.exact && q.2.2.2.2 }
          setCore s k { c with groups := tput c.groups n (some g'), due := c.due.erase n }
    | none => s
  | none => s

/-- The values of a group as CHK and DRAIN read them (R67), whether a spill word is uncorrectable, and whether every value that
combining them gave is at most 2^24 in magnitude (R61). -/
def groupTotal (s : State) (k : Nat) (g : Group) : State × Tile × Bool × Bool :=
  let r := (List.range 11).foldl (fun (r : State × Option Tile × Bool × Bool) i =>
    if !g.seq && g.chunks.testBit (i + 1) then
      let q := readLevel r.1 k g (i + 1)
      let t := match r.2.1 with | some t => zipTile f32Add q.2.1 t | none => q.2.1
      (q.1, some t, r.2.2.1 || q.2.2, r.2.2.2 && tileSmall t)
    else r) (s, g.landing, false, true)
  let t := r.2.1.getD (zeroTile g.nt g.c)
  (r.1, t, r.2.2.1, r.2.2.2 && tileSmall t)

/-! ## Checks (R60 to R62) -/

/-- Exact sum of FP32 values, units of 2^-149. -/
def fxSum (l : List W32) : Int := l.foldl (fun acc x => acc + f32Fx x) 0

/-- A small number as FP32. -/
def f32OfNat (n : Nat) : W32 := f32Round (n * 2 ^ 149) 149

/-- Whether one line fails. -/
def lineFails (exact : Bool) (t : Nat) (amax : W32) (line : List W32) (chk : W32) : Bool :=
  if !(line.all f32IsFinite && f32IsFinite chk) then true
  else
    let r := w32 (f32RoundNat (fxSum line - f32Fx chk).natAbs 149)
    if exact then !f32IsZero r
    else
      let tol := f32Mul (f32Add (f32Mul (f32OfNat line.length) amax) (f32Abs chk)) (f32Round (2 ^ (149 - t)) 149)
      f32NumLt tol r

/-- Whether the check of a tile fails: the group's values as combined (R60); `small` is the last answer of groupTotal (R61). -/
def checkFails (g : Group) (t : Tile) (small : Bool) : Bool :=
  let exact := g.exact && small
  let amax := tileAmax t.body.flatten
  let col := fun c => t.body.map (fun r => r.getD c 0)
  (List.range g.c).any (fun c => lineFails exact g.t amax (col c) (t.chkRow.getD c 0))
    || (t.body.zip t.chkCol).any (fun p => lineFails exact g.t amax p.1 p.2)
    || lineFails exact g.t amax t.body.flatten t.corner

/-- A failed check of a running task: a trip of a NARROW attempt whose class has CHK_ESC, else ABFT_MISMATCH (R62). -/
def checkFailed (s : State) (k : Nat) (r : Run) (pc op : Nat) : State :=
  let s := bump s (corPage k) cor_CHK_FAIL 1
  if r.narrow && clsChkEsc (classA s (k / 384) r.fmtc) then
    leave (if r.fmtNow = r.ceiling then coreFaultInfo s k 0x05 pc op else s) k r 3
  else taskFault s k r 0x05 pc op

def execChkBegin (id : CoreId) (s : State) : State :=
  arrayStep id (fun k c r e s =>
    match e.op with
    | .chk g =>
      match tget none c.groups g with
      | some grp =>
        if grp.mergeDue then s
        else
          let q := groupTotal s k grp
          if q.2.2.1 then taskFault q.1 k r 0x08 e.pc e.opcode
          else
            let s := queueHead (bump q.1 (corPage k) cor_CHK_COUNT 1) k none
            let c := getCore s k
            let s := setCore s k { c with groups := tput c.groups g (some { grp with exact := grp.exact && q.2.2.2 }) }
            if checkFails grp q.2.1 q.2.2.2 then checkFailed s k r e.pc e.opcode else s
      | none => s
    | _ => s) s

/-! ## DRAIN (R70 to R73, R333) -/

/-- Bytes of one entry in an output format. -/
def outBytes (f : Nat) (x : W32) : List Byte :=
  if f = 0 then toBytes 4 x.toNat else toBytes 2 (if f = 1 then toBf16 x else toFp16 x)

/-- The output vectors of a tile: address and values. -/
def outVecs (g : Group) (t : Tile) (base stride : Nat) (row : Bool) : List (Nat × List W32) :=
  if row then t.body.zipIdx.map (fun p => ((base + p.2 * stride) % 2 ^ 22, p.1))
  else (List.range g.c).map (fun c => ((base + c * stride) % 2 ^ 22, t.body.map (fun r => r.getD c 0)))

/-- Merges an amax into a slot, or into the shadow of a speculative attempt (R38, R39). -/
def mergeAmax (s : State) (k : Nat) (r : Run) (slot : Nat) (v : W32) : State :=
  if r.speculative then
    let c := getCore s k
    let key := r.ctx * 16 + slot
    let new := match tfind c.amaxSh key with | some old => amaxMerge old v | none => v
    setCore s k { c with amaxSh := tput c.amaxSh key new }
  else
    wr s (corPage k) (cor_AMAX_n + 4 * slot) (amaxMerge (w32 (rd s (corPage k) (cor_AMAX_n + 4 * slot))) v).toNat

/-- The words of output vectors with their addresses. -/
def outWords (vs : List (Nat × List W32)) : List (Nat × W32) :=
  vs.flatMap (fun v => v.2.zipIdx.map (fun p => ((v.1 + 4 * p.2) % 2 ^ 22, p.1)))

/-- Writes output vectors: STORE in the format, or ADD with the destination as left operand; true: a destination word of an
ADD was uncorrectable. The vectors are written in ascending order, which counts where a stride shorter than a vector makes them
overlap (DESIGN CHOICE, log entry 82). -/
def writeOut (k : Nat) (r : Run) (f : Nat) (add : Bool) (vs : List (Nat × List W32)) (s : State) : State × Bool :=
  vs.foldl (fun (q : State × Bool) v =>
    if add then
      let n := 4 * v.2.length
      let x := coreCheck q.1 k (some r.ctx) v.1 n
      let old := coreBytes x.1 k (some r.ctx) v.1 n
      let new := v.2.zipIdx.flatMap (fun p => toBytes 4 (f32Add (w32 (bytesAt old (4 * p.2) 4)) p.1).toNat)
      if x.2 then (x.1, true) else (progStore x.1 k r v.1 new, q.2)
    else (progStore q.1 k r v.1 (v.2.flatMap (outBytes f)), q.2)) (s, false)

/-- The last part of a DRAIN that wrote: amax, refused elements, the group closed, the SAT test. -/
def drainDone (k : Nat) (r : Run) (g : Nat) (grp : Group) (t : Tile) (amax : Option Nat) (s : State) : State :=
  let s := match amax with | some n => mergeAmax s k r n (tileAmax t.body.flatten) | none => s
  let c := getCore s k
  let r' := addCounts r grp.refused 0 0
  let s := setCore s k { c with groups := tdel c.groups g, queue := c.queue.tail, run := some r' }
  if decide (0 < grp.refused) && satTrip s (k / 384) r' then leave s k r' 1 else s

/-- A DRAIN writes its tile. -/
def drainWrite (k : Nat) (c : Core) (r : Run) (e : QEntry) (g : Nat) (grp : Group) (t : Tile) (base stride : Nat) (row : Bool)
    (f : Nat) (add : Bool) (amax : Option Nat) (hold : Bool) (s : State) : State :=
  let vs := outVecs grp t base stride row
  let ranges := vs.map (fun v => (v.1, v.2.length * ofmtBytes f))
  if hold && r.cls == 1 then
    let ws := outWords vs
    if ranges.any (fun x => !mayWriteRange c { r with speculative := false } x.1 x.2) || !deferRoom c (4 * ws.length) then
      programError s k r 0x0B e.pc e.opcode
    else
      drainDone k r g grp t amax (deferPut s k (getCore s k) r.ctx (ws.flatMap (fun p => toBytes 4 p.2.toNat)) (.held · (ws.map (·.1))))
  else if ranges.any (fun x => !mayWriteRange c r x.1 x.2) then programError s k r 0x0B e.pc e.opcode
  else
    let q := writeOut k r f add vs s
    if q.2 then taskFault q.1 k r 0x08 e.pc e.opcode else drainDone k r g grp t amax q.1

def execDrainBegin (id : CoreId) (s : State) : State :=
  arrayStep id (fun k c r e s =>
    match e.op with
    | .drain g base stride row f add amax hold =>
      match tget none c.groups g with
      | some grp =>
        if grp.mergeDue || (drainRanges base stride row f (grp.nt, grp.c)).any (fun x => meets x (storePends s k) || !rangeReady c x.1 x.2)
        then s
        else
          let q := groupTotal s k grp
          if q.2.2.1 then taskFault q.1 k r 0x08 e.pc e.opcode
          else if grp.ck then
            let s := bump q.1 (corPage k) cor_CHK_COUNT 1
            if checkFails grp q.2.1 q.2.2.2 then checkFailed (queueHead s k none) k r e.pc e.opcode
            else drainWrite k c r e g grp q.2.1 base stride row f add amax hold s
          else drainWrite k c r e g grp q.2.1 base stride row f add amax hold q.1
      | none => s
    | _ => s) s

def execOpenBegin (id : CoreId) (s : State) : State :=
  arrayStep id (fun k c _ e s =>
    match e.op with
    | .opn g nt cc seq gsz lv spill t ck =>
      if (tget none c.groups g).isSome || decide (256 < sumOf ((openGroups c).map (·.nt)) + nt) then s
      else
        let c := getCore s k
        setCore s k { c with queue := c.queue.tail, groups := tput c.groups g (some
          ⟨nt, cc, seq, gsz, lv, spill, t, ck, 0, none, false, true, 0, e.ctx⟩) }
    | _ => s) s

end Sys2Proof.Machine
end

