-- ==== Sys2Proof/Machine/Tokens.lean ====
section
/-! DEFINITION. Machine/Tokens.lean: the token and coordination instructions (R91 to R93, R103 to R106), the switchback
(R98 to R102), and tokens that arrive at cores and work counters. -/
namespace Sys2Proof.Machine

/-! ## Sending (R91, R94) -/

/-- The endpoint that a destination value names (R91), none for an illegal one. -/
def destOf (s : State) (v : Nat) : Option End :=
  if 360 ≤ fld v 0 9 ∨ 7 < fld v 9 4 then none
  else some ⟨fld v 0 9, fld v 9 4, if v.testBit 31 then moduleNo s else fld v 13 18⟩

/-- A token of a running task. -/
def taskSends (s : State) (k : Nat) (r : Run) (vc kind tag : Nat) (e : End) (value : Nat) : Token :=
  { vc := vc, kind := kind, epoch := epochOf s (slotOf s (k / 384)), slot := 0, length := 0, arm := false, tag := tag, dest := e,
    src := here s (k / 384) (selfCore s k), offset := 0, dcount := 0, sample := r.sample, value := value, payload := [] }

/-- A token of a task enters the send queue of 4, behind every effect that a commit releases (R170), or is deferred. -/
def sendEff (s : State) (k : Nat) (c : Core) (r : Run) (t : Token) (mark : Option Nat) : Eff :=
  if r.speculative then (match mark with | none => deferEff s k c r t.payload (.send t) | some m => deferEff s k c r [] (fun _ => .signal t m))
  else if !c.releasing.isEmpty || !sendRoom s k then .stall 5
  else .next (sendPut s k r.ctx t mark)

def execSend (id : CoreId) (s : State) : State :=
  issue s id 0x30 fun s k c r w =>
    match destOf s (regVal c (fld w 51 5)).toNat with
    | none => .illegal s
    | some e =>
      let n := 32 * fld w 41 7
      let a := areg c (fld w 48 3)
      match readStop s c a n with
      | some x => x
      | none =>
        let q := coreCheck s k (some r.ctx) a n
        let cnt := fld w 10 15
        let t := { taskSends s k r 1 (if w.testBit 40 then 1 else 0) (fld w 35 5) e (regVal c (fld w 25 5)).toNat with
          slot := (regVal c (fld w 30 5)).toNat % 16, length := fld w 41 7, arm := w.testBit 9,
          offset := if w.testBit 40 then 0 else cnt, dcount := if w.testBit 40 then cnt else 0,
          payload := coreBytes q.1 k (some r.ctx) a n }
        if q.2 then .ue q.1 else sendEff q.1 k (getCore q.1 k) r t none

/-- Whether a fence of a scope waits for a token of its task. -/
def fenceWaits (s : State) (k scope : Nat) (e : End) : Bool :=
  let d := k / 384
  let near := e.mod == moduleNo s
  if scope = 0 then false
  else if scope = 1 then near && e.die == d
  else
    let part := near && slotOf s e.die == slotOf s d
    if scope = 2 then part else part || (peerModules s (slotOf s d)).contains e.mod

/-- Whether an endpoint lies in the release scope of a SIGNAL of a core to another endpoint: the smallest of CORE, DIE, PART and
NODE that contains both cores (R104). -/
def inRelease (s : State) (k : Nat) (to_ e : End) : Bool :=
  if to_.mod ≠ moduleNo s then fenceWaits s k 3 e || e.mod == to_.mod
  else if to_.die ≠ k / 384 then fenceWaits s k 2 e
  else if to_.core ≠ selfCore s k then fenceWaits s k 1 e
  else e == to_

/-- Whether a SIGNAL at the head of the send queue waits for the task's earlier writes and token deliveries (R104): queued DRAINs
and tokens that are not yet accepted. -/
def signalHeld (s : State) (k : Nat) (f : Flight) : Bool :=
  let c := getCore s k
  let mark := c.sigs.headD 0
  f.tok.kind == 5
    && (c.queue.any (fun e => f.owner == .task k e.ctx && decide (e.serial < mark) && (match e.op with | .drain .. => true | _ => false))
      || (inFlight s).any (fun g => g.owner == f.owner && inRelease s k f.tok.dest g.tok.dest))

/-- SEND_TRANSMIT: the head of the send queue sets out once its header can leave the core (R94, R97), a SIGNAL not before what it
releases (R104). -/
def execSendTransmit (id : CoreId) (s : State) : State :=
  let k := cid id
  let c := getCore s k
  match c.sendq with
  | [] => s
  | f :: rest =>
    if !canLeave s f || signalHeld s k f then s
    else pumpAll (netSend (setCore s k { c with sendq := rest, sigs := if f.tok.kind = 5 then c.sigs.tail else c.sigs }) f.tok f.owner f.pslot) k

/-! ## RECV and STEER (R99, R101, R174) -/

/-- Key of a rule's sample slot. -/
def holdKey (rule slot : Nat) : Nat := rule * 16 + slot

def getHold (c : Core) (rule slot : Nat) : Hold := tget Hold.none c.holds (holdKey rule slot)

def setHold (c : Core) (rule slot : Nat) (h : Hold) : Core := { c with holds := tset Hold.none c.holds (holdKey rule slot) h }

def execRecv (id : CoreId) (s : State) : State :=
  issue s id 0x31 fun s k c r w =>
    let rule := fld w 45 5
    let slot := (regVal c (fld w 40 5)).toNat % 16
    let h := getHold c rule slot
    match h.record with
    | none => .stall 6
    | some v =>
      let h' := { h with record := none, taken := if r.speculative then some (r.ctx, v) else none, sample := if r.speculative then h.sample else 0 }
      .next (pumpAll (setCore s k (setReg (setHold c rule slot h') (fld w 51 5) v)) k)

/-- ACTION of an arm: 0 DELIVER, 1 FORWARD, 2 DELIVER_FORWARD, 3 DROP. -/
def armAction (a : Nat) : Nat := fld a 0 2
def armForwards (a : Nat) : Bool := armAction a == 1 || armAction a == 2

/-- Whether an arm's fields are legal (R99). -/
def armLegal (a : Nat) : Bool :=
  fld a 20 12 == 0 && (if armForwards a then decide (fld a 2 4 ≤ 7 ∧ fld a 6 9 < 360) else fld a 2 18 == 0)

/-- Whether a rule descriptor is legal (R99). -/
def ruleLegal (bs : List Byte) : Bool :=
  let r := ruleFrom bs
  fld (bytesAt bs 0 1) 2 6 == 0 && fld (bytesAt bs 1 1) 4 4 == 0 && fld (bytesAt bs 2 1) 5 2 == 0 && bytesAt bs 3 1 == 0
    && bytesAt bs 20 12 == 0 && r.hold % 1024 == 0 && r.size % 1024 == 0 && r.size != 0
    && decide (r.hold < 2 ^ 22 ∧ r.size < 2 ^ 22) && inData r.hold ((r.slotsM1 + 1) * r.size) && armLegal r.arm0 && armLegal r.arm1

def execSteer (id : CoreId) (s : State) : State :=
  issue s id 0x32 fun s k c r w =>
    let rule := fld w 45 5
    let a := areg c (fld w 53 3)
    match readStop s c a 32 with
    | some x => x
    | none =>
      let q := coreCheck s k (some r.ctx) a 32
      let bs := coreBytes q.1 k (some r.ctx) a 32
      let c := getCore q.1 k
      if q.2 then .ue q.1
      else if !ruleLegal bs then .illegal q.1
      else if r.speculative then deferEff q.1 k c r bs (.steer rule)
      else if !ruleIdle c rule then .stall 11
      else .next (setCore q.1 k { c with rules := tset Rule.none c.rules rule (ruleFrom bs) })

/-! ## CLAIM, WAIT, SIGNAL, FENCE (R92, R103 to R106, R180) -/

def execClaim (id : CoreId) (s : State) : State :=
  issue s id 0x40 fun s k c r w =>
    if r.narrow then .illegal s
    else if r.speculative then .stall 8
    else
      let ctr := fld w 16 8
      let t := taskSends s k r 0 6 0 (here s (k / 384) (0x170 + ctr % 24)) ctr
      .hold (netSend (setCore s k { c with wait := .claim (fld w 51 5) }) t (.task k r.ctx) (slotOf s (k / 384))) 8

def execWait (id : CoreId) (s : State) : State :=
  issue s id 0x41 fun s k c r w =>
    if fld w 48 2 = 0 then
      let n := fld w 43 5
      let cnt := fld w 0 16
      let v := tget 0 c.sem n
      if v < cnt then .stall 7
      else
        let c := { c with sem := tset 0 c.sem n (v - cnt), waits := if r.speculative then c.waits ++ [(r.ctx, n, cnt)] else c.waits }
        .next (setCore s k c)
    else if rangeReady c (areg c (fld w 40 3)) (regVal c (fld w 35 5)).toNat then .next s
    else .stall 7

def execSignal (id : CoreId) (s : State) : State :=
  issue s id 0x42 fun s k c r w =>
    match destOf s (regVal c (fld w 51 5)).toNat with
    | none => .illegal s
    | some e =>
      sendEff s k c r (taskSends s k r 0 5 (fld w 43 5) e (fld w 0 16)) (some c.serial)

def execFence (id : CoreId) (s : State) : State :=
  issue s id 0x43 fun s k c r w =>
    let scope := fld w 48 2
    if r.speculative && scope != 0 then deferEff s k c r [] (fun _ => .fence scope)
    else .hold (setCore s k { c with wait := .fence scope }) 9

/-- The SENDs and SIGNALs of a task that are not yet accepted: in the send queue or in flight. -/
def unaccepted (s : State) (k ctx : Nat) : List Flight := ((getCore s k).sendq ++ inFlight s).filter (fun f => f.owner == .task k ctx)

/-- Whether what a fence waits for has come about: the task's array work and merges, which read and write core SRAM (R66), and the
acceptance of its tokens (R105). -/
def fenceDone (s : State) (k ctx scope : Nat) : Bool :=
  (getCore s k).queue.all (·.ctx != ctx)
    && (getCore s k).groups.all (fun e => match e.2 with | some g => g.ctx != ctx || !g.mergeDue | none => true) && (unaccepted s k ctx).all (fun f => !fenceWaits s k scope f.tok.dest)

/-- The end of a die's gather epoch (R236): every line goes, run-ahead lines included. -/
def endGatherEpoch (d : Nat) (s : State) : State :=
  let x := getDie s d
  let s := bump s (.gch d) gch_RA_EVICT (x.lines.filter (·.ra.isSome)).length
  setDie (bump s (.gch d) gch_INVALIDATIONS 1) d { x with lines := [] }

/-- The dies of this module whose gather caches a fence invalidates. -/
def fenceDies (s : State) (d scope : Nat) : List Nat :=
  if scope = 0 then [] else if scope = 1 then [d] else diesOf s (slotOf s d)

/-- FENCE_COMPLETE: a fence that the running task waits at, or the one at the head of the released effects. -/
def execFenceComplete (id : CoreId) (s : State) : State :=
  let k := cid id
  let c := getCore s k
  match c.releasing with
  | (i, .fence scope) :: rest =>
    if fenceDone s k i scope then
      pumpAll (each (fenceDies s (k / 384) scope) endGatherEpoch (setCore s k { c with releasing := rest })) k
    else s
  | _ =>
    match c.run, c.wait with
    | some r, .fence scope =>
      if runs s (k / 384) && !r.ended && !c.halted && c.releasing.all (·.1 != r.ctx) && fenceDone s k r.ctx scope then
        let s := each (fenceDies s (k / 384) scope) endGatherEpoch s
        let c := getCore s k
        setCore s k { c with wait := .none, pc := c.pc + 1, stall := 0 }
      else s
    | _, _ => s

/-! ## END and YIELD (R93, R43) -/

def execEnd (id : CoreId) (s : State) : State :=
  issue s id 0x50 fun s k c r _ =>
    if c.queue.any (·.ctx == r.ctx) then .stall 10
    else if (openGroups c).any (·.ctx == r.ctx) then .illegal s
    else if !(unaccepted s k r.ctx).isEmpty then .stall 10
    else
      let trip := r.narrow && r.fmtNow != r.ceiling && ufTrips (classB s (k / 384) r.fmtc) r.nz r.uf
      .left (leave s k r (if trip then 5 else 0))

/-- The run record that a YIELD saves. -/
def yieldRecord (c : Core) (r : Run) : RunRec :=
  { sat := r.sat, nz := r.nz, uf := r.uf, vidx := r.vidx, pc := c.pc + 1, s := c.s, a := c.a, ret := c.ret, claim := none, finger := 0 }

def execYield (id : CoreId) (s : State) : State :=
  issue s id 0x51 fun s k c r _ =>
    if c.queue.any (·.ctx == r.ctx) then .stall 10
    else
      let s := setCore s k { c with run := none, stall := 0, retained := none, v := [], away := c.away ++ [{ r with ended := true }] }
      let t := taskToken s (k / 384) (selfCore s k) 3 r.task r.sample 0 false (runBytes (yieldRecord c r))
      .left (netSend s t .nobody (slotOf s (k / 384)))

/-! ## The switchback (R98 to R102) -/

/-- A core refuses a token of another epoch (R98, R148). -/
def coreRefused (s : State) (k : Nat) : State :=
  epochRefused (last (bump s (corPage k) cor_EPOCH_REFUSED 1) (corPage k) 2) (slotOf s (k / 384))

/-- Address and length of a rule's area for a sample slot. -/
def areaOf (r : Rule) (slot : Nat) : Nat := r.hold + slot % (r.slotsM1 + 1) * r.size

/-- The range that a DATA token writes. -/
def tokRange (r : Rule) (t : Token) : Nat × Nat := (areaOf r t.slot + 32 * t.offset, 32 * t.length)

/-- A slot becomes unmatched (R102): its tokens are gone, its area is ready, the sample faults. -/
def unmatch (s : State) (k : Nat) (rule slot sample : Nat) (mark : Bool) : State :=
  let c := getCore s k
  let r := tget Rule.none c.rules rule
  let c := setHold (markBusy c (areaOf r slot) r.size false) rule slot { Hold.none with unmatched := mark }
  let s := last (bump (setCore s k c) (corPage k) cor_UNMATCHED 1) (corPage k) 3
  reportSample (pumpAll s k) (k / 384) sample 0x03 (selfCore s k)

/-- Sends one token of a firing set on to the arm's core (R101); true: its read-out met an uncorrectable word. -/
def forwardOne (k : Nat) (rule : Rule) (arm : Nat) (q : State × Bool) (t : Token) : State × Bool :=
  let s := q.1
  let g := tokRange rule t
  let x := if t.kind = 0 then coreCheck s k none g.1 g.2 else (s, false)
  let pl := if t.kind = 0 then coreBytes x.1 k none g.1 g.2 else []
  if x.2 then (x.1, true)
  else
    let t' := { t with dest := here s (fld arm 2 4) (fld arm 6 9), tag := fld arm 15 5, src := here s (k / 384) (selfCore s k), payload := pl }
    (netSend x.1 t' .nobody (slotOf s (k / 384)), q.2)

/-- A rule fires: the arm acts on the tokens of the set (R101). -/
def fire (s : State) (k : Nat) (n slot : Nat) (arm value : Nat) (toks : List Token) : State :=
  let rule := tget Rule.none (getCore s k).rules n
  let q := if armForwards arm then toks.foldl (forwardOne k rule arm) (s, false) else (s, false)
  let s := q.1
  let c := getCore s k
  let c := each toks (fun t c => if t.kind = 0 then markBusy c (tokRange rule t).1 (tokRange rule t).2 false else c) c
  let delivers := armAction arm == 0 || armAction arm == 2
  let rec_ := if delivers && !q.2 then some (w32 value) else none
  let smp := match toks.head? with | some t => if rec_.isSome then t.sample else 0 | none => 0
  let h := { getHold c n slot with data := [], ctrl := none, record := rec_, sample := smp }
  let s := pumpAll (setCore s k (setHold c n slot h)) k
  if q.2 then
    match toks.head? with
    | some t => failSample (last s (corPage k) 0x08) (k / 384) t.sample 0x08 (selfCore s k)
    | none => s
  else if delivers && rule.semen then semAdd s k rule.sem 1
  else s

/-- A rule with JOIN = 1 fires once it holds the CONTROL token and its DCOUNT DATA tokens. -/
def tryFire (s : State) (k : Nat) (n slot : Nat) : State :=
  let c := getCore s k
  let rule := tget Rule.none c.rules n
  let h := getHold c n slot
  match h.ctrl with
  | none => s
  | some t => if h.data.length = t.dcount then fire s k n slot (if t.arm then rule.arm1 else rule.arm0) t.value (h.data ++ [t]) else s

/-- Whether a slot's area is held: a fire record of a slot that shares it has not been received, or was taken by a task that may still
be discarded (R100, R174, log entry 56). -/
def areaHeld (c : Core) (rule slot : Nat) : Bool :=
  let areas := (tget Rule.none c.rules rule).slotsM1 + 1
  c.holds.any (fun e => e.1 / 16 == rule && e.1 % 16 % areas == slot % areas && (e.2.record.isSome || e.2.taken.isSome))

/-- Whether a token waits on its link: its rule is disabled, or the area of its slot is held (R100). -/
def tokenWaits (c : Core) (t : Token) : Bool := !(tget Rule.none c.rules t.tag).enable || areaHeld c t.tag t.slot

/-- A DATA token whose delivery would write where no token may: it is discarded, and the partition halts (R66, R173). -/
def refusesWrite (c : Core) (g : Nat × Nat) : Bool := (List.range g.2).any (fun i => inSpill c (g.1 + i) || shadowUpper c (g.1 + i))

/-- A DATA token at its rule (R100). -/
def dataDo (k : Nat) (t : Token) (s : State) : State :=
  let c := getCore s k
  let rule := tget Rule.none c.rules t.tag
  let g := tokRange rule t
  if rule.size < 32 * t.offset + 32 * t.length then unmatch s k t.tag t.slot t.sample true
  else if refusesWrite c g then deliveryError s k
  else
    let s := setCore s k (markBusy c g.1 g.2 true)
    let s := coreStore s k none g.1 t.payload
    let c := getCore s k
    let h := getHold c t.tag t.slot
    let s := setCore s k (setHold c t.tag t.slot { h with data := h.data ++ [t] })
    if rule.join then tryFire s k t.tag t.slot else fire s k t.tag t.slot rule.arm0 t.value [t]

/-- A CONTROL token at its rule (R100). -/
def controlDo (k : Nat) (t : Token) (s : State) : State :=
  let c := getCore s k
  let rule := tget Rule.none c.rules t.tag
  let h := getHold c t.tag t.slot
  if !rule.join then fire s k t.tag t.slot rule.arm0 t.value [t]
  else if t.dcount < h.data.length then unmatch s k t.tag t.slot t.sample true
  else tryFire (setCore s k (setHold c t.tag t.slot { h with ctrl := some t })) k t.tag t.slot

/-- A token for an endpoint that takes none of its kind is discarded, and on a die counted at the site nearest to the station that
receives it (R287, log entry 56). -/
def badEndpoint (s : State) (n : Nat) (f : Flight) : State :=
  if f.tok.dest.die < 8 then bump (netTake s n) (.cor f.tok.dest.die (stationSite s f.pslot f.tok)) cor_EPOCH_REFUSED 1
  else netTake s n

/-- A switchback token arrives at its core, waits on its link, or is discarded. -/
def switchback (kind : Nat) (wait : Core → Token → Bool) (f : Nat → Token → State → State) (n : Nat) (s : State) : State :=
  match arriving s n with
  | none => s
  | some x =>
    let t := x.tok
    if t.kind ≠ kind then s
    else if 360 ≤ t.dest.core then badEndpoint s n x
    else
      match coreOf s t.dest.die t.dest.core with
      | none => netTake s n
      | some k =>
        if t.epoch ≠ epochOf s (slotOf s t.dest.die) then coreRefused (netTake s n) k
        else if (getHold (getCore s k) t.tag t.slot).unmatched then netTake s n
        else if wait (getCore s k) t then s
        else f k t (netTake s n)

def execDataTokenArrive (n : Nat) (s : State) : State := switchback 0 tokenWaits dataDo n s

def execControlTokenArrive (n : Nat) (s : State) : State :=
  switchback 1 (fun c t => tokenWaits c t || (getHold c t.tag t.slot).ctrl.isSome) controlDo n s

def execSignalTokenArrive (n : Nat) (s : State) : State :=
  match arriving s n with
  | none => s
  | some x =>
    let t := x.tok
    if t.kind ≠ 5 then s
    else if 360 ≤ t.dest.core then badEndpoint s n x
    else
      match coreOf s t.dest.die t.dest.core with
      | none => netTake s n
      | some k =>
        if t.epoch ≠ epochOf s (slotOf s t.dest.die) then coreRefused (netTake s n) k
        else semAdd (netTake s n) k t.tag (t.value % 65536)

/-! ## Work counters (R180 to R183) -/

/-- The page of a counter, and the offset of its words in it. -/
def wkcPage (d c : Nat) : Page := .wkc d (c / 64)
def wkcOff (c : Nat) : Nat := 16 * (c % 64)

/-- The home of a counter serves one claim: the index, and the state. -/
def claimServe (s : State) (d c : Nat) : Nat × State :=
  let p := wkcPage d c
  let v := rd s p (wkc_VALUE_m + wkcOff c)
  let s := bump s p wkc_CLAIMS 1
  if v < rd s p (wkc_LIMIT_m + wkcOff c) then (v, wr s p (wkc_VALUE_m + wkcOff c) (v + 1))
  else
    let s := bump s p wkc_EXHAUSTED 1
    let x := getDie s d
    let report := (rd s p (wkc_CFG_m + wkcOff c)).testBit 2 && !tget false x.firstOut c
    let s := setDie s d { x with firstOut := tset false x.firstOut c true }
    (0xFFFFFFFF, if report then condition (wr s p wkc_LAST_EXHAUSTED c) p 0x15 1 else s)

def execClaimRequest (n : Nat) (s : State) : State :=
  match arriving s n with
  | none => s
  | some x =>
    let t := x.tok
    if t.kind ≠ 6 ∨ t.tag ≠ 0 then s
    else
      let d := t.dest.die
      if t.epoch ≠ epochOf s (slotOf s d) then epochRefused (netTake s n) (slotOf s d)
      else
        let q := claimServe (netTake s n) d (t.value % 256)
        netSend q.2 { t with tag := 1, dest := t.src, src := t.dest, value := q.1, epoch := epochOf s (slotOf s d) } x.owner x.pslot

def execClaimResponse (n : Nat) (s : State) : State :=
  match arriving s n with
  | none => s
  | some x =>
    let t := x.tok
    if t.kind ≠ 6 ∨ t.tag ≠ 1 then s
    else
      match coreOf s t.dest.die t.dest.core with
      | none => netTake s n
      | some k =>
        let s := netTake s n
        if t.epoch ≠ epochOf s (slotOf s t.dest.die) then coreRefused s k
        else
          let c := getCore s k
          match c.run, c.wait with
          | some r, .claim rd =>
            if x.owner = .task k r.ctx ∧ t.sample = r.sample ∧ !r.ended then
              setCore s k { setReg c rd (w32 t.value) with wait := .none, pc := c.pc + 1, stall := 0 }
            else s
          | _, _ => s

end Sys2Proof.Machine
end

