-- ==== Sys2Proof/Machine/Streams.lean ====
section
/-! DEFINITION. Machine/Streams.lean: stream and gather descriptors, their arms, run-ahead and the gather cache (R225 to
R249). Each meaning answers a next state. -/
namespace Sys2Proof.Machine

/-! ## Descriptors (R227, R229, R234) -/

/-- A die's descriptor of either engine; `g` says gather. -/
def getDesc (s : State) (d : Nat) (g : Bool) (i : Nat) : SDesc :=
  let x := getDie s d
  tget SDesc.none (if g then x.gathers else x.streams) i

def setDesc (s : State) (d : Nat) (g : Bool) (i : Nat) (v : SDesc) : State :=
  let x := getDie s d
  setDie s d (if g then { x with gathers := tset SDesc.none x.gathers i v } else { x with streams := tset SDesc.none x.streams i v })

/-- The engine's page. -/
def engPage (d : Nat) (g : Bool) : Page := if g then .gch d else .stm d

/-- Completion of both kinds: CKIND and TARGET. -/
def dKind (b : List Byte) : Nat := bytesAt b 30 2 % 4
def dTarget (b : List Byte) : Nat := bytesAt b 30 2 / 4
/-- FAR of a stream, TABLE of a gather. -/
def dFar (b : List Byte) : Nat := bytesAt b 0 6

/-! Streams. -/
def sNoExpand (b : List Byte) : Bool := (bytesAt b 13 1).testBit 1
def sAhead (b : List Byte) : Nat := fld (bytesAt b 13 1) 4 4
def sArms (b : List Byte) : Nat := bytesAt b 28 2 + 1
/-- The runs of an arm, as far and near addresses; a far address counts modulo 2^48 (log entry 30). -/
def sRuns (b : List Byte) (a : Nat) : List (Nat × Nat) :=
  (List.range (sCnt1 b * sCnt2 b)).map (fun j =>
    ((dFar b + a * bytesAt b 25 3 * 1024 + j / sCnt1 b * bytesAt b 21 4 + j % sCnt1 b * bytesAt b 17 4) % 2 ^ 48,
      dNear b + j * sLen b))

/-! Gathers. -/
def gIdx (b : List Byte) : Nat := bytesAt b 10 3 % 2 ^ 22
def gWidth (b : List Byte) : Nat := if (bytesAt b 10 3).testBit 22 then 2 else 4
def gCount (b : List Byte) : Nat := bytesAt b 13 3
def gRow (b : List Byte) : Nat := (bytesAt b 16 2 % 4096 + 1) * 64
def gStride (b : List Byte) : Nat := bytesAt b 18 4
def gRows (b : List Byte) : Nat := bytesAt b 22 4
/-- GEN: 0 OFF, 1 RECORD, 2 COMPARE. -/
def gGen (b : List Byte) : Nat := fld (bytesAt b 26 1) 0 2
def gNoAlloc (b : List Byte) : Bool := (bytesAt b 26 1).testBit 2
def gOobZero (b : List Byte) : Bool := (bytesAt b 26 1).testBit 3
def gRec (b : List Byte) : Nat := bytesAt b 27 3 % 2 ^ 22

/-- The faults of a descriptor for which an arm is refused on arrival (R229). -/
def descBad (s : State) (d : Nat) (g : Bool) (b : List Byte) : Bool :=
  (bytesAt b 6 4).testBit 31 || dKind b == 3 || decide (360 ≤ dCore b) || (siteOf s d (dCore b)).isNone || dNear b % 64 != 0
    || (if g then
          dFar b % 64 != 0 || gIdx b % gWidth b != 0 || gStride b % 64 != 0 || gRec b % 4 != 0 || (bytesAt b 10 3).testBit 23
            || fld (bytesAt b 16 2) 12 4 != 0 || fld (bytesAt b 26 1) 4 4 != 0 || gGen b == 3 || fld (bytesAt b 27 3) 22 2 != 0
            || !inData (dNear b) (gCount b * gRow b) || !inData (gIdx b) (gCount b * gWidth b)
            || (if gGen b = 0 then gRec b != 0 else !inData (gRec b) 4)
        else
          dFar b % 1024 != 0 || fld (bytesAt b 13 1) 2 2 != 0 || (sStore b && sAhead b != 0) || !inData (dNear b) (sTotal b))

/-! ## Arms arrive (R229, R242) -/

/-- A request as an arm that has not started. -/
def newArm (q : ArmReq) : Arm := ⟨q, false, 0, [], 0, false⟩

/-- Whether the partition of a die saves its context, when arms wait in the shadows (R242). -/
def saves (s : State) (d : Nat) : Bool := (getSlot s (slotOf s d)).saving.isSome

/-- An arm arrives: the state, and 0, ARM_OVERRUN or CMD_REJECT. -/
def armArrive (s : State) (d : Nat) (g : Bool) (i : Nat) (q : ArmReq) : State × Nat :=
  let x := getDesc s d g i
  if !(rd s (engPage d g) hCTRL).testBit 0 || descBad s d g x.bytes then (s, 0x14)
  else if x.state = 0 && !saves s d then
    (setDesc s d g i { x with state := 1, arm := some (newArm q), nextArm := x.nextArm + 1 }, 0)
  else if x.shadow.isNone then (setDesc s d g i { x with shadow := some q, nextArm := x.nextArm + 1 }, 0)
  else
    let s := if g then s else bump s (.stm d) stm_OVERRUN_COUNT 1
    (condition s (engPage d g) 0x0D (if g then 4 else 2), 0x0D)

/-- LAST_FAULT of an engine, with the sample for streams. -/
def engFault (s : State) (d : Nat) (g : Bool) (i code sample : Nat) : State :=
  if g then wr s (.gch d) gch_LAST_FAULT (code + 256 * i)
  else wr (wr s (.stm d) stm_LAST_FAULT (code + 256 * i)) (.stm d) stm_LAST_SAMPLE sample

/-- Whether an arm is still placed behind a FENCE of its producer's commit (R230). -/
def fenceHolds (s : State) (d : Nat) (q : ArmReq) : Bool :=
  match q.after with
  | none => false
  | some (l, i) =>
    (match coreOf s d l with
     | some k => (getCore s k).releasing.any (fun e => e.1 == i && (match e.2 with | .fence _ => true | _ => false))
     | none => false)

/-- An arm that a successor entry makes: index SAMPLE modulo ARMS; a refusal is a program error (R225, R229). -/
def succArm (s : State) (d : Nat) (g : Bool) (i cls sample : Nat) (after : Option (Nat × Nat)) : State :=
  let x := getDesc s d g i
  let r := armArrive s d g i ⟨if g then 0 else sample % sArms x.bytes, sample, decide (2 ≤ cls), after⟩
  if r.2 = 0 then r.1
  else
    let code := if r.2 = 0x14 then 0x0B else r.2
    haltSlot (engFault r.1 d g i code sample) (slotOf s d) code 0 false (imageDie s d)

/-- A host ARM. -/
def hostArm (s : State) (d : Nat) (g : Bool) (tag : Nat) : State :=
  let p := engPage d g
  let i := arg s p 0 % 1024
  let a := if g then 0 else arg s p 1 % 65536
  if !g && decide (sArms (getDesc s d g i).bytes ≤ a) then reject s p 0 tag
  else
    let r := armArrive s d g i ⟨a, arg s p 2, false, none⟩
    endCmd r.1 p r.2 0 tag 0

/-- RESTART (R231). -/
def restartDesc (s : State) (d : Nat) (g : Bool) (i : Nat) : State :=
  let x := getDesc s d g i
  setDesc s d g i (match x.shadow with
    | some q => { x with state := 1, arm := some (newArm q), shadow := none }
    | none => { x with state := 0 })

def hostRestart (s : State) (d : Nat) (g : Bool) (tag : Nat) : State :=
  let p := engPage d g
  let i := arg s p 0 % 1024
  if (getDesc s d g i).state = 2 then done (restartDesc s d g i) p tag else reject s p 0 tag

def execStmArm (fn d tag : Nat) (s : State) : State := hostCmd s fn (.stm d) fun s => hostArm s d false tag
def execGchArm (fn d tag : Nat) (s : State) : State := hostCmd s fn (.gch d) fun s => hostArm s d true tag
def execStmRestart (fn d tag : Nat) (s : State) : State := hostCmd s fn (.stm d) fun s => hostRestart s d false tag
def execGchRestart (fn d tag : Nat) (s : State) : State := hostCmd s fn (.gch d) fun s => hostRestart s d true tag
def execInvalidate (fn d tag : Nat) (s : State) : State :=
  hostCmd s fn (.gch d) fun s => done (endGatherEpoch d s) (.gch d) tag

/-! ## Ends of an arm (R230, R231) -/

/-- GEN_EN (R247). -/
def genOn (s : State) (d : Nat) : Bool := (rd s (.gch d) hCTRL).testBit 1

/-- GEN as it acts (R247). -/
def genMode (s : State) (d : Nat) (b : List Byte) : Nat := if genOn s d then gGen b else 0

/-- The arms that move bytes on a die, of both engines (R228). -/
def movingArms (s : State) (d : Nat) : List Arm :=
  let x := getDie s d
  (x.streams ++ x.gathers).filterMap (fun e => match e.2.arm with | some a => if e.2.state = 1 && a.moved then some a else none | none => none)

/-- The near range that an arm writes. -/
def nearWrites (g : Bool) (b : List Byte) : Nat × Nat :=
  if g then (dNear b, gCount b * gRow b) else if sStore b then (0, 0) else (dNear b, sTotal b)

/-- Sets or clears the ready flags of what an arm writes near: its destination, and the word of a RECORD (R82, R226). -/
def nearBusy (s : State) (d : Nat) (g : Bool) (b : List Byte) (v : Bool) : State :=
  match coreOf s d (dCore b) with
  | some k =>
    let c := markBusy (getCore s k) (nearWrites g b).1 (nearWrites g b).2 v
    setCore s k (if g && genMode s d b == 1 then markBusy c (gRec b) 4 v else c)
  | none => s

/-- The descriptor halts with a status; its transfer writes no more (R82, R230, log entry 31). -/
def armHalts (s : State) (d : Nat) (g : Bool) (i : Nat) (a : Arm) (status : Nat) : State :=
  let x := getDesc s d g i
  nearBusy (setDesc s d g i { x with state := 2, last := status, arm := some { a with moved := true, status := status, tags := 0, vpns := [] } })
    d g x.bytes false

/-- A demand access faults: status FAULT, and the partition halts (R230, R84). -/
def armFault (s : State) (d : Nat) (g : Bool) (i : Nat) (a : Arm) (code : Nat) : State :=
  let s := condition (engFault (armHalts s d g i a 4) d g i code a.req.sample) (engPage d g) code (if g then 8 else 4)
  haltSlot s (slotOf s d) code 0 false (imageDie s d)

/-- An uncorrectable demand read halts the descriptor and faults the sample (R231, R178, R329). -/
def armUe (s : State) (d : Nat) (g : Bool) (i : Nat) (a : Arm) : State :=
  let s := armHalts s d g i a 3
  let s := if g then s else bump s (.stm d) stm_HALT_COUNT 1
  let s := condition (engFault s d g i 9 a.req.sample) (engPage d g) 9 (if g then 2 else 1)
  if a.req.window then windowFault s (slotOf s d) 9 (imageDie s d) else failSample s d a.req.sample 9 0x1FF

/-! ## The gather cache and run-ahead lines (R232, R236) -/

/-- The set of a line. -/
def lineSet (l : Nat) : Nat := l % 24 * 128 + l / 24 % 128

/-- The bits of bytes [o, o + n). -/
def byteMask (o n : Nat) : Nat := (2 ^ n - 1) * 2 ^ o

/-- The pieces of a range by lines: line, offset, length. -/
def lineParts (va n : Nat) : List (Nat × Nat × Nat) :=
  if n = 0 then []
  else (List.range ((va + n - 1) / 256 - va / 256 + 1)).map (fun i =>
    let l := va / 256 + i
    let lo := max va (256 * l)
    (l % 2 ^ 40, lo - 256 * l, min (va + n) (256 * l + 256) - lo))

/-- Bytes `part` put into a line's bytes at an offset. -/
def lineInto (data : List Byte) (o : Nat) (part : List Byte) : List Byte := data.take o ++ part ++ data.drop (o + part.length)

def emptyLine : List Byte := List.replicate 256 0

/-- Puts a line first in the order of use, with the victim of a full set of 16 gone (R236). -/
def insertLine (s : State) (d : Nat) (v : GLine) : State :=
  let x := getDie s d
  let rest := x.lines.filter (fun m => !(m.va == v.va && m.ra == v.ra))
  let mine := rest.filter (fun m => lineSet m.va == lineSet v.va)
  let way := match x.lines.find? (fun m => m.va == v.va && m.ra == v.ra) with
    | some m => m.way
    | none => ((List.range 16).find? (fun w => mine.all (·.way != w))).getD 0
  match if 16 ≤ mine.length then mine.getLast? else none with
  | some w =>
    let s := if w.ra.isSome then bump s (.gch d) gch_RA_EVICT 1 else s
    setDie s d { x with lines := { v with way := w.way } :: rest.filter (fun m => !(m.va == w.va && m.ra == w.ra)) }
  | none => setDie s d { x with lines := { v with way := way } :: rest }

/-- Reads bytes [o, o + n) of a line of the cache through their check: the state, the line, and whether a word is
uncorrectable. WORD of a log entry is the byte index in the cache divided by 8 (R371). -/
def readLine (s : State) (d : Nat) (m : GLine) (o n : Nat) : State × GLine × Bool :=
  let q := readMarks (.gch d) 3 (32 * (16 * lineSet m.va + m.way)) false (fun w => decide (o < 8 * w + 8 ∧ 8 * w < o + n)) m.bad s
  (q.1, { m with bad := q.2.1 }, q.2.2)

/-- A line leaves the cache. -/
def dropLine (s : State) (d : Nat) (m : GLine) : State :=
  let x := getDie s d
  setDie s d { x with lines := x.lines.filter (fun e => !(e.va == m.va && e.ra == m.ra)) }

/-- Whether a demand access would promote a page to a stack that CALIBRATE stalls (R211, R223). -/
def promoteStalls (s : State) (k d va n : Nat) : Bool :=
  busy s (.mem d) && pgtPromote s k && !pgtStatic s k
    && (pagesIn va n).any (fun v => let e := pteOf s k v; pteValid e && pteTier e == 2 && !ptePinned e)

/-- 64 B units that a range touches. -/
def farUnits (va n : Nat) : Nat := if n = 0 then 0 else (va + n + 63) / 64 - va / 64

/-- The stream engine reads far bytes (R244): bytes and the bad words (index va / 8). -/
def farRead (s : State) (k d va n : Nat) : State × List Byte × List Nat :=
  let r := vaReadOk s k d .stream va n
  (bump r.1 (.stm d) stm_RD_UNITS (farUnits va n), r.2)

/-- The stream engine writes far bytes; `whole`: one transfer of a whole page (R199, R244). -/
def farWrite (k d : Nat) (whole : Bool) (va : Nat) (bs : List Byte) (s : State) : State :=
  vaWriteOk (bump s (.stm d) stm_WR_UNITS (farUnits va bs.length)) k d .stream whole va bs []

/-- Fills part of a run-ahead line of arm `a` of descriptor `i`, where a set has fewer than RA_WAYS of them (R232). Bytes that the
line holds already stay as they were read (R233). -/
def aheadFill (k d i a : Nat) (p : Nat × Nat × Nat) (s : State) : State :=
  let va := 256 * p.1 + p.2.1
  let x := getDie s d
  let old := x.lines.find? (fun m => m.va == p.1 && m.ra == some (i, a))
  let need := byteMask p.2.1 p.2.2
  if (match old with | some m => m.valid &&& need == need | none => false) then s
  else match look s k d (va / pageSize) false true with
  | .found _ =>
    let ways := (x.lines.filter (fun m => lineSet m.va == lineSet p.1 && m.ra.isSome)).length
    if old.isNone && decide (rd s (.gch d) gch_RA_WAYS % 32 ≤ ways) then s
    else
      let r := farRead s k d va p.2.2
      if !r.2.2.isEmpty then r.1
      else
        let base := match old with | some m => m | none => ⟨p.1, 0, some (i, a), 0, emptyLine, [], 0⟩
        let s := if old.isNone then bump r.1 (.stm d) stm_RA_ISSUED 1 else r.1
        insertLine s d { base with valid := base.valid ||| byteMask p.2.1 p.2.2, data := lineInto base.data p.2.1 r.2.1 }
  | .fault _ reason => bump (faultWalk s k d reason (va / pageSize)) (.pgt d) pgt_RUNAHEAD_DROP 1
  | _ => bump (faultWalk s k d 0 (va / pageSize)) (.pgt d) pgt_RUNAHEAD_DROP 1

/-- The run-ahead of a LOAD arm: the far bytes of the arms after it, as far as RUNAHEAD and the extent go. -/
def runAhead (s : State) (k d i a : Nat) (b : List Byte) : State :=
  if sStore b || !(rd s (.stm d) hCTRL).testBit 1 || rd s (.stm d) stm_RA_TAG_LIMIT % 1024 == 0 then s
  else
    each (((List.range (sAhead b)).map (· + a + 1)).filter (fun n => decide (n < sArms b))) (fun n s =>
      each ((sRuns b n).flatMap (fun r => lineParts r.1 (sLen b))) (aheadFill k d i n) s) s

/-- One piece of a demand read of arm `a`: from its run-ahead line, which is then dropped, or from memory. -/
def readPart (k d i a : Nat) (q : State × List Byte × List Nat) (p : Nat × Nat × Nat) : State × List Byte × List Nat :=
  let s := q.1
  let x := getDie s d
  match x.lines.find? (fun m => m.va == p.1 && m.ra == some (i, a) && m.valid &&& byteMask p.2.1 p.2.2 == byteMask p.2.1 p.2.2) with
  | some m =>
    let c := readLine (dropLine s d m) d m p.2.1 p.2.2
    if c.2.2 then
      let r := farRead c.1 k d (256 * p.1 + p.2.1) p.2.2
      (r.1, q.2.1 ++ r.2.1, q.2.2 ++ r.2.2)
    else (bump c.1 (.stm d) stm_RA_USED 1, q.2.1 ++ (m.data.drop p.2.1).take p.2.2, q.2.2)
  | none =>
    let r := farRead s k d (256 * p.1 + p.2.1) p.2.2
    (r.1, q.2.1 ++ r.2.1, q.2.2 ++ r.2.2)

/-- A demand read of a run: bytes and the bad words (index va / 8). -/
def readFar (s : State) (k d i a va n : Nat) : State × List Byte × List Nat :=
  if (getDie s d).lines.any (fun m => m.ra == some (i, a)) then (lineParts va n).foldl (readPart k d i a) (s, [], [])
  else farRead s k d va n

/-! ## Moving the bytes of a stream arm (R227, R228, R237) -/

/-- The requests of a run: offset and length, each within one 1 KiB block. -/
def blocks (va n : Nat) : List (Nat × Nat) :=
  if n = 0 then []
  else (List.range ((va + n - 1) / 1024 - va / 1024 + 1)).map (fun i =>
    let lo := max va (1024 * (va / 1024 + i))
    (lo - va, min (va + n) (1024 * (va / 1024 + i) + 1024) - lo))

/-- One request of an arm: far and near address, bytes, and whether it can be made. -/
structure Req where
  far : Nat
  near : Nat
  bytes : List Byte
  ok : Bool
  deriving DecidableEq, Repr

/-- The requests that take effect: all of an arm that moves every byte; of an arm that halts, those that it had made before,
in no fixed order, which is open (R231, log entry 4). -/
def made (s : State) (l : List Req) : State × List Req :=
  if l.all (·.ok) then (s, l)
  else l.foldl (fun q r =>
    if r.ok then let x := drawNat q.1; (x.2, if x.1 % 2 = 1 then q.2 ++ [r] else q.2) else q) (s, [])

/-- The requests of a run from its bytes and bad words. -/
def runReqs (r : Nat × Nat) (bs : List Byte) (bad : List Nat) : List Req :=
  (blocks r.1 bs.length).map (fun p =>
    ⟨r.1 + p.1, r.2 + p.1, (bs.drop p.1).take p.2, bad.all (fun w => decide (8 * w + 8 ≤ r.1 + p.1 ∨ r.1 + p.1 + p.2 ≤ 8 * w))⟩)

/-- Reads the far side of a LOAD. -/
def loadReqs (s : State) (k d i a : Nat) (b : List Byte) : State × List Req :=
  (sRuns b a).foldl (fun q r =>
    let x := readFar q.1 k d i a r.1 (sLen b)
    (x.1, q.2 ++ runReqs r x.2.1 x.2.2)) (s, [])

/-- Reads the near side of a STORE. -/
def storeReqs (s : State) (key a : Nat) (b : List Byte) : State × List Req :=
  (sRuns b a).foldl (fun q r =>
    (blocks r.1 (sLen b)).foldl (fun q p =>
      let x := coreCheck q.1 key none (r.2 + p.1) p.2
      (x.1, q.2 ++ [⟨r.1 + p.1, r.2 + p.1, coreBytes x.1 key none (r.2 + p.1) p.2, !x.2⟩])) q) (s, [])

/-- Bytes of a page that requests cover, as (offset, bytes). -/
def partsOf (l : List Req) (vpn : Nat) : List (Nat × List Byte) :=
  (l.filter (fun r => r.far / pageSize % 2 ^ 32 == vpn)).map (fun r => (r.far % pageSize, r.bytes))

/-- Whether parts cover a whole page. -/
def wholePage (l : List (Nat × List Byte)) : Bool :=
  ((l.foldl (fun u p => u.flatMap (without (p.1, p.2.length))) [(0, pageSize)]).isEmpty)

/-- A page assembled from parts, later ones prevailing. -/
def assemble (l : List (Nat × List Byte)) : List Byte :=
  l.foldl (fun bs p => bs.take p.1 ++ p.2 ++ bs.drop (p.1 + p.2.length)) (List.replicate pageSize 0)

/-- The pages of requests, each once. -/
def reqPages (l : List Req) : List Nat := (l.map (fun r => r.far / pageSize % 2 ^ 32)).eraseDups

/-- Writes the far side of a STORE: a page that the arm covers whole is written as one transfer (R199). -/
def storeFar (k d : Nat) (l : List Req) (s : State) : State :=
  each (reqPages l) (fun v s =>
    let ps := partsOf l v
    if wholePage ps then farWrite k d true (v * pageSize) (assemble ps) s
    else each ps (fun p s => farWrite k d false (v * pageSize + p.1) p.2 s) s) s

/-- Whether an arm may not reach its near range: it leaves data SRAM, or has part of an upper half of a shadow region, or a write
part of a spill region (R66, R173, R235). -/
def nearBad (c : Core) (a n : Nat) (write : Bool) : Bool :=
  !inData a n || (List.range n).any (fun i => shadowUpper c (a + i) || (write && inSpill c (a + i)))

/-- The verdict on every run of an arm: a fault, else a wait, else ok. -/
def judgeRuns (s : State) (k d : Nat) (l : List (Nat × Nat)) (n : Nat) (write : Bool) : State × Access :=
  match l.find? (fun r => match access s k d r.1 n write with | .fault _ _ _ => true | _ => false) with
  | some r => judge s k d .stream r.1 n write
  | none =>
    match l.find? (fun r => match access s k d r.1 n write with | .wait _ _ => true | _ => false) with
    | some r => judge s k d .stream r.1 n write
    | none => (s, .ok)

/-- Whether a request of a STORE would have to expand a coded page (R212). -/
def expands (s : State) (k : Nat) (l : List Req) (r : Req) : Bool :=
  let v := r.far / pageSize % 2 ^ 32
  pteCoded (pteOf s k v) && !wholePage (partsOf l v)

/-- Marks an arm's bytes as moved: it holds its tags until it completes. -/
def armMoved (s : State) (d : Nat) (g : Bool) (i : Nat) (a : Arm) (tags : Nat) (vpns : List Nat) (status : Nat) : State :=
  let x := getDesc s d g i
  setDesc s d g i { x with arm := some { a with moved := true, tags := tags, vpns := vpns, status := status } }

/-- A stream arm moves its bytes. -/
def streamMove (s : State) (k d i key : Nat) (a : Arm) (b : List Byte) : State :=
  let runs := sRuns b a.req.arm
  let store := sStore b
  if nearBad (getCore s key) (dNear b) (sTotal b) (!store) then armFault s d false i a 0x0B
  else
    match judgeRuns s k d runs (sLen b) store with
    | (s, .wait _ _) => s
    | (s, .fault code _ _) =>
      let s0 := nearBusy s d false b true
      let q := if store then storeReqs s0 key a.req.arm b else (s0, [])
      let can := fun (r : Req) => match access q.1 k d r.far r.bytes.length store with | .ok => r.ok | _ => false
      let l := if store then q.2.map (fun r => { r with ok := can r }) else runs.flatMap (fun r =>
        (blocks r.1 (sLen b)).map (fun p => (⟨r.1 + p.1, r.2 + p.1, List.replicate p.2 0,
          (match access q.1 k d (r.1 + p.1) p.2 false with | .ok => true | _ => false)⟩ : Req)))
      let m := made q.1 l
      let s := if store then each m.2 (fun r s => farWrite k d false r.far r.bytes s) m.1
        else each m.2 (fun r s =>
          let x := farRead s k d r.far r.bytes.length
          if x.2.2.isEmpty then coreStore x.1 key none r.near x.2.1 else x.1) m.1
      armFault s d false i a code
    | (s1, .ok) =>
      if runs.any (fun r => promoteStalls s1 k d r.1 (sLen b)) then s else
      let s := each runs (fun r s => promoteRange s k d r.1 (sLen b)) s1
      let s := nearBusy s d false b true
      let q := if store then storeReqs s key a.req.arm b else loadReqs s k d i a.req.arm b
      match if store && sNoExpand b then q.2.find? (expands q.1 k q.2) else none with
      | some r =>
        -- the PGT names no REASON for this fault: a free value (log entry 32)
        let n := drawNat q.1
        let s := recordFault n.2 d .stream true 0x0B (n.1 % 16) (r.far % 2 ^ 48)
        let coded := fun (v : Nat) => pteCoded (pteOf q.1 k v)
        -- which of the other writes came first: any writes to raw pages, and any coded pages that the arm covers whole
        let m := made s (q.2.map (fun r => { r with ok := r.ok && !coded (r.far / pageSize % 2 ^ 32) }))
        let w := made m.1 ((reqPages q.2).map (fun v => ⟨v, 0, [], coded v && wholePage (partsOf q.2 v)⟩))
        let s := each m.2 (fun r s => farWrite k d false r.far r.bytes s) w.1
        armFault (storeFar k d (q.2.filter (fun r => w.2.any (·.far == r.far / pageSize % 2 ^ 32))) s) d false i a 0x0B
      | none =>
        let m := made q.1 q.2
        let s := if !store then each m.2 (fun r s => coreStore s key none r.near r.bytes) m.1
          else if q.2.all (·.ok) then storeFar k d m.2 m.1
          else each m.2 (fun r s => farWrite k d false r.far r.bytes s) m.1
        if q.2.all (·.ok) then
          let s := armMoved s d false i a (min 512 q.2.length) (reqPages q.2) 0
          runAhead s k d i a.req.arm b
        else armUe s d false i a

/-- STREAM_ARM_START: an arm that has a place among the 32 of the die starts. -/
def execStreamArmStart (d i : Nat) (s : State) : State :=
  let x := getDesc s d false i
  match x.arm with
  | some a =>
    if x.state ≠ 1 ∨ a.moved ∨ 32 ≤ (movingArms s d).length ∨ fenceHolds s d a.req = true then s
    else if sTotal x.bytes = 0 then armMoved s d false i a 0 [] 1
    else
      match coreOf s d (dCore x.bytes) with
      | some key => streamMove s (slotOf s d) d i key a x.bytes
      | none => armFault s d false i a 0x0B
  | none => s

/-! ## Gather arms (R235, R236, R238, R239) -/

/-- A page's place in the shard range (R238). -/
def shardIndex (s : State) (d vpn : Nat) : Option Nat :=
  let base := (rd s (.gch d) gch_GEN_VA_LO + 2 ^ 32 * (rd s (.gch d) gch_GEN_VA_HI % 65536)) / pageSize
  if base ≤ vpn ∧ vpn < base + rd s (.gch d) gch_GEN_PAGES % 2 ^ 24 then some (vpn - base) else none

/-- Whether a line fill reads a page's generation, and the page's place in the shard range. -/
def genIndex (s : State) (d vpn : Nat) : Option Nat := if genOn s d then shardIndex s d vpn else none

/-- Physical address of a page's generation. -/
def genAddr (s : State) (d n : Nat) : Nat :=
  rd s (.gch d) gch_GEN_TBL_LO + 2 ^ 32 * (rd s (.gch d) gch_GEN_TBL_HI % 65536) + 2 * n

/-- Why a gather cannot go on. -/
inductive GStop where
  | wait
  | fault (code : Nat)
  | ue
  deriving DecidableEq, Repr

/-- The part of a line that lies in the table, as first and last byte + 1. -/
def lineTable (b : List Byte) (l : Nat) : Nat × Nat := (max (256 * l) (dFar b), min (256 * l + 256) (dFar b + gRows b * gStride b))

/-- Fills a line for a miss: its generation first, then the sectors within the table; a word that cannot be read leaves its
sector invalid. -/
def fillLine (s : State) (k d : Nat) (b : List Byte) (l need : Nat) : State × Except GStop GLine :=
  let r := lineTable b l
  match judge s k d .gather r.1 (r.2 - r.1) false with
  | (s, .fault c _ _) => (s, .error (.fault c))
  | (s, .wait _ _) => (s, .error .wait)
  | (s, .ok) =>
    if promoteStalls s k d r.1 (r.2 - r.1) then (s, .error .wait) else
    let s := promoteRange s k d r.1 (r.2 - r.1)
    let gi := genIndex s d (256 * l / pageSize)
    -- a table outside the partition's own tier 1 is not read (R191)
    if (match gi with | some n => !(genAddr s d n / 2 ^ 46 == 1 && ownPhys s k (genAddr s d n) 2) | none => false) then (s, .error (.fault 0x0B))
    -- a table on a stack that CALIBRATE stalls (R223)
    else if (match gi with | some n => stalled s (genAddr s d n) | none => false) then (s, .error .wait)
    else
    let g := match gi with
      | some n => let x := physRead s (genAddr s d n) 2; (x.1, ofBytes x.2.1, !x.2.2.isEmpty)
      | none => (s, 0, false)
    let x := vaReadOk g.1 k d .gather r.1 (r.2 - r.1)
    let badSect := x.2.2.map (fun w => (8 * w - 256 * l) / 64)
    let valid := (List.range 4).foldl (fun m i => if badSect.contains i then m else m ||| byteMask (64 * i) 64) 0 &&& byteMask (r.1 - 256 * l) (r.2 - r.1)
    let line : GLine := ⟨l, valid, none, g.2.1, lineInto emptyLine (r.1 - 256 * l) x.2.1, [], 0⟩
    if g.2.2 || (need &&& byteMask (r.1 - 256 * l) (r.2 - r.1)) &&& valid != (need &&& byteMask (r.1 - 256 * l) (r.2 - r.1)) then (x.1, .error .ue)
    else (if gNoAlloc b then x.1 else insertLine x.1 d line, .ok line)

/-- One piece of a row through the cache. -/
def fetchPart (s : State) (k d : Nat) (b : List Byte) (p : Nat × Nat × Nat) : State × Except GStop GLine × Nat :=
  let need := byteMask p.2.1 p.2.2
  let x := getDie s d
  let miss := fun s => let r := fillLine (bump s (.gch d) gch_MISSES 1) k d b p.1 need; (r.1, r.2, 1)
  match x.lines.find? (fun m => m.va == p.1 && m.ra.isNone) with
  | some m =>
    if m.valid &&& need ≠ need then miss s
    else
      let c := readLine s d m p.2.1 p.2.2
      if c.2.2 then miss (dropLine c.1 d m)
      else (bump (insertLine c.1 d c.2.1) (.gch d) gch_HITS 1, .ok c.2.1, 0)
  | none => miss s

/-- The bytes that a line gives a piece of a row. What a row has past the end of the table is not read, so those bytes are
open (log entry 4). -/
def pieceBytes (s : State) (b : List Byte) (p : Nat × Nat × Nat) (m : GLine) : State × List Byte :=
  let r := lineTable b p.1
  let n := min p.2.2 (r.2 - (256 * p.1 + p.2.1))
  ({ s with free := s.free + (p.2.2 - n) },
    (m.data.drop p.2.1).take n ++ (List.range (p.2.2 - n)).map (fun i => BitVec.ofNat 8 (Config.freeNat (s.free + i))))

/-- One row: state, bytes, the generations of the shard pages that it touches, misses, and what stops it. -/
def fetchRow (s : State) (k d : Nat) (b : List Byte) (va : Nat) : State × List Byte × List Nat × Nat × Option GStop :=
  let r := (lineParts va (gRow b)).foldl (fun (q : State × List Byte × Tab Nat × Nat × Option GStop) p =>
    if q.2.2.2.2.isSome then q
    else
      let x := fetchPart q.1 k d b p
      match x.2.1 with
      | .ok m =>
        let y := pieceBytes x.1 b p m
        let v := 256 * p.1 / pageSize
        let gens := if (genIndex s d v).isSome && (tfind q.2.2.1 v).isNone then tput q.2.2.1 v m.gen else q.2.2.1
        (y.1, q.2.1 ++ y.2, gens, q.2.2.2.1 + x.2.2, none)
      | .error e => (x.1, q.2.1, q.2.2.1, q.2.2.2.1 + x.2.2, some e)) (s, [], [], 0, none)
  (r.1, r.2.1, r.2.2.1.map (·.2), r.2.2.2)

/-- What the rows of an arm come to: requests, generations in order, misses, the pages read, and the first stop. -/
structure GRows where
  reqs : List Req
  gens : List Nat
  misses : Nat
  vpns : List Nat
  stop : Option GStop
  deriving DecidableEq, Repr

/-- One index of the list (R235). -/
def gatherRow (k d : Nat) (b : List Byte) (q : State × GRows) (p : Nat × Nat) : State × GRows :=
  let s := q.1
  let g := q.2
  let near := dNear b + p.2 * gRow b
  let zero := List.replicate (gRow b) (0 : Byte)
  let stop := fun (x : Option GStop) => match g.stop with | some .wait => g.stop | some y => if x = some .wait then x else some y | none => x
  if p.1 = 256 ^ gWidth b - 1 then (bump s (.gch d) gch_NULL_ROWS 1, { g with reqs := g.reqs ++ [⟨0, near, zero, true⟩] })
  else if gRows b ≤ p.1 then
    if gOobZero b then (bump s (.gch d) gch_OOB_ROWS 1, { g with reqs := g.reqs ++ [⟨0, near, zero, true⟩] })
    else (s, { g with reqs := g.reqs ++ [⟨0, near, zero, false⟩], stop := stop (some (.fault 0x0B)) })
  else
    let va := (dFar b + p.1 * gStride b) % 2 ^ 48
    let r := fetchRow s k d b va
    (r.1, { reqs := g.reqs ++ [⟨va, near, r.2.1, r.2.2.2.2.isNone⟩], gens := g.gens ++ r.2.2.1, misses := g.misses + r.2.2.2.1,
            vpns := (g.vpns ++ pagesIn va (gRow b)).eraseDups, stop := stop r.2.2.2.2 })

/-- RECORD and COMPARE after the rows: the state, the status, and whether the compare word is uncorrectable. -/
def fingerprint (s : State) (d key : Nat) (b : List Byte) (a : Arm) (gens : List Nat) : State × Nat × Bool :=
  let fp := crc32 (gens.flatMap (toBytes 2))
  if genMode s d b = 0 then (s, 0, false)
  else if genMode s d b = 1 then
    let s := coreStore s key none (gRec b) (toBytes 4 fp)
    let x := getCtx s d (dTarget b % 8192)
    (if dKind b = 1 then setCtx s d (dTarget b % 8192) { x with run := { x.run with finger := w32 fp } } else s, 0, false)
  else
    let q := coreCheck s key none (gRec b) 4
    if q.2 then (q.1, 0, true)
    else if bytesAt (coreBytes q.1 key none (gRec b) 4) 0 4 = fp then (q.1, 0, false)
    else
      let s := condition (bump (wr q.1 (.gch d) gch_LAST_STALE a.req.sample) (.gch d) gch_STALE_COUNT 1) (.gch d) 4 1
      (reportSample s d a.req.sample 4 0x1FF, 2, false)

/-- A gather arm moves its rows. -/
def gatherMove (s : State) (k d i key : Nat) (a : Arm) (b : List Byte) : State :=
  let c := getCore s key
  let n := gCount b
  let gen := genMode s d b
  if !rangeReady c (gIdx b) (n * gWidth b) || (gen != 0 && !rangeReady c (gRec b) 4) then s
  else if nearBad c (gIdx b) (n * gWidth b) false || nearBad c (dNear b) (n * gRow b) true || (gen != 0 && nearBad c (gRec b) 4 (gen == 1)) then
    armFault s d true i a 0x0B
  else
    let s0 := nearBusy s d true b true
    let q := coreCheck s0 key none (gIdx b) (n * gWidth b)
    if q.2 then armUe q.1 d true i a
    else
      let bs := coreBytes q.1 key none (gIdx b) (n * gWidth b)
      let idx := (List.range n).map (fun j => (bytesAt bs (gWidth b * j) (gWidth b), j))
      let r := idx.foldl (gatherRow k d b) (q.1, ⟨[], [], 0, [], none⟩)
      match r.2.stop with
      | some .wait => s
      | stop =>
        let m := made r.1 r.2.reqs
        let s := each m.2 (fun x s => coreStore s key none x.near x.bytes) m.1
        match stop with
        | some (.fault code) => armFault s d true i a code
        | some .ue => armUe s d true i a
        | _ =>
          let f := fingerprint s d key b a r.2.gens
          if f.2.2 then armUe f.1 d true i a else armMoved f.1 d true i a (min 512 r.2.misses) r.2.vpns f.2.1

/-- GATHER_ARM_START. -/
def execGatherArmStart (d i : Nat) (s : State) : State :=
  let x := getDesc s d true i
  match x.arm with
  | some a =>
    if x.state ≠ 1 ∨ a.moved ∨ 32 ≤ (movingArms s d).length ∨ fenceHolds s d a.req = true then s
    else if gCount x.bytes = 0 then armMoved s d true i a 0 [] 1
    else
      match coreOf s d (dCore x.bytes) with
      | some key => gatherMove s (slotOf s d) d i key a x.bytes
      | none => armFault s d true i a 0x0B
  | none => s

/-! ## ARM_COMPLETE (R230) -/

/-- A completion action on a die: one satisfaction of a TASK target, 1 to a SEM target, or nothing. -/
def completion (s : State) (d kind target sample : Nat) : State :=
  if kind = 1 then satisfy s d (target % 8192) sample
  else if kind = 2 then (match coreOf s d (target % 512) with | some k => semAdd s k (fld target 9 5) 1 | none => s)
  else s

/-- The gather cache of the die drops every line that a STORE's writes overlap. -/
def dropLines (s : State) (d : Nat) (runs : List (Nat × Nat)) (n : Nat) : State :=
  let x := getDie s d
  let hit := fun (m : GLine) => runs.any (fun r => overlap (256 * m.va, 256) (r.1, n))
  let s := bump s (.gch d) gch_RA_EVICT (x.lines.filter (fun m => hit m && m.ra.isSome)).length
  setDie s d { x with lines := x.lines.filter (fun m => !hit m) }

/-- ARM_COMPLETE: an arm whose bytes have moved completes, its action runs, and a shadowed arm starts. -/
def execArmComplete (d : Nat) (g : Bool) (i : Nat) (s : State) : State :=
  let x := getDesc s d g i
  match x.arm with
  | some a =>
    if x.state ≠ 1 ∨ !a.moved then s
    else
      let s := if g then s else bump s (.stm d) stm_ARMS_DONE 1
      let s := if !g && a.status == 1 then bump s (.stm d) stm_EMPTY_COUNT 1 else s
      let s := if !g && sStore x.bytes && a.status == 0 then dropLines s d (sRuns x.bytes a.req.arm) (sLen x.bytes) else s
      let s := nearBusy s d g x.bytes false
      let next := if saves s d then none else x.shadow
      let s := setDesc s d g i (match next with
        | some q => { x with last := a.status, arm := some (newArm q), shadow := none }
        | none => { x with last := a.status, state := 0, arm := some a })
      let s := if a.mute then s else completion s d (dKind x.bytes) (dTarget x.bytes) a.req.sample
      pgtRetry s (slotOf s d)
  | none => s

/-! ## A rewind at the engines (R231) -/

/-- One descriptor at a rewind of the samples that `gone` names. -/
def rewindDesc (gone : Nat → Bool) (x : SDesc) : SDesc :=
  let x := { x with shadow := match x.shadow with | some q => if gone q.sample then none else some q | none => none }
  match x.arm with
  | some a =>
    if gone a.req.sample then
      if x.state = 2 then
        (match x.shadow with
         | some q => { x with state := 1, arm := some (newArm q), shadow := none }
         | none => { x with state := 0 })
      else if x.state = 1 then { x with arm := some { a with mute := true } }
      else x
    else x
  | none => x

/-- Both engines of a die at a rewind. -/
def rewindEngines (gone : Nat → Bool) (d : Nat) (s : State) : State :=
  let x := getDie s d
  setDie s d { x with streams := x.streams.map (fun e => (e.1, rewindDesc gone e.2)), gathers := x.gathers.map (fun e => (e.1, rewindDesc gone e.2)) }

end Sys2Proof.Machine
end

