-- ==== Sys2Proof/Machine/Segments.lean ====
section
/-! DEFINITION. Machine/Segments.lean: collective segments (R315), checkpoint segments to a buddy (R346), and the tap that captures
pages of a checkpoint (R340). -/
namespace Sys2Proof.Machine

/-! ## Segments (R315) -/

/-- The bytes of a segment, its data padded to whole 32 B units. -/
def segBytes (kind ring group version op run srank step offset chunk dest : Nat) (data : List Byte) : List Byte :=
  toBytes 1 (kind + 16 * ring) ++ toBytes 1 0 ++ toBytes 2 group ++ toBytes 1 version ++ toBytes 1 0 ++ toBytes 2 op
    ++ toBytes 2 run ++ toBytes 3 srank ++ toBytes 3 step ++ toBytes 4 offset ++ toBytes 2 data.length ++ toBytes 3 chunk
    ++ toBytes 1 0 ++ toBytes 3 dest ++ toBytes 3 0 ++ data ++ List.replicate ((32 - data.length % 32) % 32) 0

def segKind (b : List Byte) : Nat := fld (bytesAt b 0 1) 0 4
def segRing (b : List Byte) : Nat := fld (bytesAt b 0 1) 4 1
def segGroup (b : List Byte) : Nat := bytesAt b 2 2 % 4096
def segVersion (b : List Byte) : Nat := bytesAt b 4 1
def segOp (b : List Byte) : Nat := bytesAt b 6 2 % 4096
def segRun (b : List Byte) : Nat := bytesAt b 8 2
def segSrank (b : List Byte) : Nat := bytesAt b 10 3 % 2 ^ 18
def segStep (b : List Byte) : Nat := bytesAt b 13 3 % 2 ^ 18
def segOffset (b : List Byte) : Nat := bytesAt b 16 4
def segLength (b : List Byte) : Nat := bytesAt b 20 2
def segChunk (b : List Byte) : Nat := bytesAt b 22 3 % 2 ^ 18
def segDest (b : List Byte) : Nat := bytesAt b 26 3 % 2 ^ 18
def segData (b : List Byte) : List Byte := (b.drop 32).take (segLength b)

/-- Bytes that a segment takes in its stream, by its LENGTH. -/
def segSize (len : Nat) : Nat := 32 + cdiv len 32 * 32

/-- What stands for a segment among the things a port holds: whose acceptance a run waits for (R314). -/
def segOwn (k m : Nat) (o : Owner) : Flight :=
  ⟨⟨0, 15, 0, 0, 0, false, 0, ⟨0, 8, m⟩, ⟨0, 8, m⟩, 0, 0, 0, 0, []⟩, o, k⟩

/-- Sends a segment of a slot. -/
def segSend (s : State) (k m : Nat) (o : Owner) (b : List Byte) : State :=
  let r := route s k m none
  portPut s k r.1 r.2 2 b (some (segOwn k m o))

/-- Cuts a byte range into segments of at most 2,048 B. -/
def cuts (off len : Nat) : List (Nat × Nat) :=
  (List.range (cdiv len 2048)).map (fun i => (off + 2048 * i, min 2048 (len - 2048 * i)))

/-! ## Checkpoint bytes to the buddy (R345, R346) -/

/-- A directory entry. -/
def dirBytes (p : CkPage) : List Byte :=
  toBytes 4 p.vpn ++ toBytes 1 (b2n p.ride + 2 * b2n p.coded + 4 * b2n p.poison + 16 * (p.sectors - 1))
    ++ toBytes 1 (p.tier + 4 * p.stack) ++ toBytes 2 0 ++ toBytes 8 p.crc ++ toBytes 4 p.sector ++ List.replicate 12 0

/-- Offset of the directory in the record: right after the header. -/
def dirOff : Nat := 256

/-- CHUNK of a segment of the record itself (log entry 54). -/
def recChunk : Nat := 0x3FFFF

def ckSeg (s : State) (op run offset chunk dest : Nat) (data : List Byte) : List Byte :=
  segBytes 3 0 0 0 op run (moduleNo s) 0 offset chunk dest data

/-- Sends checkpoint bytes in segments of at most 2,048 B. -/
def ckSend (s : State) (k op run chunk dest off : Nat) (bs : List Byte) : State :=
  each (cuts 0 bs.length) (fun c s => segSend s k dest .nobody (ckSeg s op run (off + c.1) chunk dest ((bs.drop c.1).take c.2))) s

/-- The buddy of a slot, if it has one. -/
def buddyOf (s : State) (k : Nat) : Option Nat :=
  let b := rd s (.ckp k) ckp_BUDDY
  if b.testBit 31 then some (b % 2 ^ 18) else none

/-- COPY bytes to the buddy, counted in 64 B units. -/
def toBuddy (s : State) (k chunk off : Nat) (bs : List Byte) : State :=
  match buddyOf s k with
  | some m => ckSend (bump s (.ckp k) ckp_BYTES_BUDDY (cdiv bs.length 64)) k 0 ((getCk s k).number % 65536) chunk m off bs
  | none => s

/-! ## The tap (R340) -/

/-- Whether the collective engine passes writes to the checkpoint engine. -/
def tapOn (s : State) (k : Nat) : Bool := ckPhase s k == 1 && (rd s (.ckp k) hCTRL).testBit 3

/-- The pages of the named regions, in ascending virtual address. -/
def setPtes (x : SlotSt) : Tab Nat := x.ptes.filter (fun e => pteValid e.2 && x.ck.regions.contains (e.1 / 8192))

/-- A page's copy as it is sent: its bytes in whole sectors, and its directory entry (R345). -/
def sendForm (s : State) (k vpn : Nat) : State × List Byte × CkPage :=
  let e := pteOf s k vpn
  let r := copyForm s k e
  let n := match r.2.1 with | some c => codedSectors c | none => 16
  (r.1, (match r.2.1 with | some c => c ++ List.replicate (4096 * n - c.length) 0 | none => r.2.2.1),
    { vpn := vpn, ride := pteRide e, coded := r.2.1.isSome, poison := !r.2.2.2.isEmpty, sectors := n, tier := pteTier e,
      stack := copyStack s k e, crc := crc64 r.2.2.1, sector := 0, made := false, buddy := 1 })

/-- Sends a page's copy, its directory entry first, under index i. -/
def sendCopy (s : State) (k i vpn : Nat) : State × CkPage :=
  let r := sendForm s k vpn
  (toBuddy (toBuddy r.1 k recChunk (dirOff + 32 * i) (dirBytes r.2.2)) k i 0 r.2.1, r.2.2)

/-- A page has its capture. -/
def putCap (s : State) (k vpn : Nat) (p : CkPage) : State :=
  let x := getSlot s k
  setSlot s k { x with captured := vpn :: x.captured, ck := { x.ck with caps := tput x.ck.caps vpn p } }

/-- A RIDE page that an ALL_GATHER run has written whole is captured: its copy is written to the local area, or with DEST BUDDY sent
to the buddy under the index that the page has in the set as it now stands (log entry 41); with 64 pages unacknowledged it is left
uncaptured (R340, R346). -/
def capture (s : State) (k vpn : Nat) : State :=
  let e := pteOf s k vpn
  if tapOn s k && pteRide e && pteValid e && (getCk s k).regions.contains (vpn / 8192) then
    let x := getSlot s k
    let s := setSlot s k { x with captured := x.captured.filter (· != vpn) }
    if (getCk s k).dest = 1 then
      match (setPtes x).findIdx? (·.1 == vpn) with
      | some i =>
        if 64 ≤ ((getCk s k).caps.filter (·.2.buddy == 1)).length then s
        else let r := sendCopy s k i vpn; putCap r.1 k vpn { r.2 with sector := i }
      | none => s
    else
      match copyPage s k vpn with
      | some (s, p) => putCap s k vpn p
      | none => ckFail s k 5
  else s

end Sys2Proof.Machine
end

