-- ==== Sys2Proof/Machine/Collective.lean ====
section
/-! DEFINITION. Machine/Collective.lean: the collective engine (R309 to R318, R327): posts, runs, segments. Each meaning
answers a next state. -/
namespace Sys2Proof.Machine

/-! ## Groups and operations (R309 to R312) -/

/-- The group table indices of a slot (R252). -/
def inGroups (s : State) (k g : Nat) : Bool :=
  decide (k * 4096 / layoutN s ≤ g ∧ g < (k + 1) * 4096 / layoutN s)

def groupOf (s : State) (k g : Nat) : List Byte := tget [] (getSlot s k).groups g
def grpValid (b : List Byte) : Bool := (bytesAt b 0 1).testBit 0
def grpBroken (b : List Byte) : Bool := (bytesAt b 0 1).testBit 1
def grpVersion (b : List Byte) : Nat := bytesAt b 1 1
def grpN (b : List Byte) : Nat := bytesAt b 4 4 % 2 ^ 18 + 1
def grpRank (b : List Byte) : Nat := bytesAt b 8 4 % 2 ^ 18
def grpNext (b : List Byte) : Nat := bytesAt b 12 4 % 2 ^ 18
def grpPrev (b : List Byte) : Nat := bytesAt b 16 4 % 2 ^ 18
def grpList (b : List Byte) : Nat := bytesAt b 20 6

def setGroup (s : State) (k g : Nat) (b : List Byte) : State :=
  let x := getSlot s k
  setSlot s k { x with groups := tput x.groups g b }

def opKind (b : List Byte) : Nat := fld (bytesAt b 0 1) 0 3
def opType (b : List Byte) : Nat := fld (bytesAt b 0 1) 3 2
def opDirs2 (b : List Byte) : Bool := (bytesAt b 0 1).testBit 5
def opInplace (b : List Byte) : Bool := (bytesAt b 0 1).testBit 6
def opGroup (b : List Byte) : Nat := bytesAt b 2 2 % 4096
def opCount (b : List Byte) : Nat := bytesAt b 4 4
def opSrc (b : List Byte) : Nat := bytesAt b 8 6
def opDst (b : List Byte) : Nat := bytesAt b 14 6
def opAux (b : List Byte) : Nat := bytesAt b 20 6
def opMoves (b : List Byte) : Nat := bytesAt b 26 2
def opRoot (b : List Byte) : Nat := bytesAt b 28 4 % 2 ^ 18
def opInBytes (b : List Byte) : Nat := bytesAt b 32 4
def opParts (b : List Byte) : Nat := bytesAt b 36 2
def opCkind (b : List Byte) : Nat := bytesAt b 38 2 % 4
def opTarget (b : List Byte) : Nat := bytesAt b 38 2 / 4
def opCdie (b : List Byte) : Nat := bytesAt b 40 1 % 8
def opStage (b : List Byte) : Nat := bytesAt b 41 6

/-- Bytes of an element. -/
def opSize (b : List Byte) : Nat := match opType b with | 0 => 4 | 1 => 2 | _ => 1

/-- Whether an entry names an operation: no reserved KIND or DTYPE, no reduction of BYTES, a group of the slot, PARTS. -/
def opLegal (s : State) (k : Nat) (b : List Byte) : Bool :=
  decide (opKind b ≤ 5) && opType b != 3 && !(decide (opKind b ≤ 1) && opType b == 2) && inGroups s k (opGroup b) && opParts b != 0

/-- The chunk length q in elements, and chunk c as its first element and the one after its last (R312). -/
def chunkQ (b : List Byte) (n : Nat) : Nat :=
  let u := if opType b = 2 then 64 else 16
  cdiv (cdiv (opCount b) n) u * u

def chunkOf (b : List Byte) (n c : Nat) : Nat × Nat :=
  (min (c * chunkQ b n) (opCount b), min ((c + 1) * chunkQ b n) (opCount b))

/-- The part of a chunk that runs on a ring, as byte offset in the chunk and length (R313, log entry 43). -/
def ringPart (b : List Byte) (n ring c : Nat) : Nat × Nat :=
  let r := chunkOf b n c
  let len := r.2 - r.1
  let mid := cdiv len 16 / 2 * 16
  if opDirs2 b && opKind b != 3 then
    (if ring = 0 then (0, mid * opSize b) else (mid * opSize b, (len - mid) * opSize b))
  else if ring = 0 then (0, len * opSize b) else (0, 0)

/-- The address of an operation's entry in the table of the CURRENT job. -/
def opVa (s : State) (k op : Nat) : Option Nat :=
  match (getSlot s k).current with
  | none => none
  | some j =>
    let lo := rd s (.clv k) (clv_OP_BASE_j_LO + 8 * j)
    let hi := rd s (.clv k) (clv_OP_BASE_j_HI + 8 * j)
    if op < fld hi 16 13 then some (lo + 2 ^ 32 * (hi % 65536) + 64 * op) else none

/-- Posts, run number, STATE and PENDING of an entry. -/
def opPosts (b : List Byte) : Nat := bytesAt b 48 2
def opRun (b : List Byte) : Nat := bytesAt b 50 2
def opState (b : List Byte) : Nat := fld (bytesAt b 52 1) 0 2
def opPending (b : List Byte) : Bool := (bytesAt b 52 1).testBit 2

/-- Reads an entry. -/
def opRead (s : State) (k va : Nat) : State × List Byte :=
  let r := vaReadOk s k (homeDie s k) .coll va 64
  (r.1, r.2.1)

/-- Writes the engine bytes of an entry. -/
def opWrite (s : State) (k va posts run state : Nat) (pending : Bool) : State :=
  vaWriteOk s k (homeDie s k) .coll false (va + 48) (toBytes 2 posts ++ toBytes 2 run ++ toBytes 1 (state + 4 * b2n pending)) []

/-! ## Runs -/

/-- The run of an operation that is in progress. -/
def runOfOp (s : State) (k op : Nat) : Option CollRun := (getSlot s k).runs.find? (fun r => r.op == op)

/-- Replaces the run of an operation. -/
def setCollRun (s : State) (k : Nat) (r : CollRun) : State :=
  let x := getSlot s k
  setSlot s k { x with runs := x.runs.map (fun q => if q.op = r.op then r else q) }

/-- Removes the run of an operation. -/
def delRun (s : State) (k op : Nat) : State :=
  let x := getSlot s k
  setSlot s k { x with runs := x.runs.filter (fun q => q.op != op) }

/-- Chunks that this rank receives on a ring in the reduction (gather = false) or the gather, summed in bytes. -/
def dueOn (r : CollRun) (ring : Nat) (gather : Bool) : Nat :=
  let skip := if gather then r.rank else if ring = 0 then (r.rank + r.n - 1) % r.n else (r.rank + 1) % r.n
  sumOf (((List.range r.n).filter (· != skip)).map (fun c => (ringPart r.entry r.n ring c).2))

/-- Bytes that a run receives on a ring. -/
def dueRing (r : CollRun) (ring : Nat) : Nat :=
  match opKind r.entry with
  | 0 => dueOn r ring false + dueOn r ring true
  | 1 => dueOn r ring false
  | 2 => dueOn r ring true
  | 3 => if ring = 0 ∧ r.rank ≠ opRoot r.entry then opCount r.entry * opSize r.entry else 0
  | 4 => if ring = 0 then opInBytes r.entry else 0
  | _ => 0

/-- A segment of a run. -/
def runSeg (r : CollRun) (kind ring step offset chunk dest : Nat) (data : List Byte) : List Byte :=
  segBytes kind ring r.group r.version r.op r.run r.rank step offset chunk dest data

/-- Grants a number of bytes to a module, in as many GRANTs as the 32-bit credit needs. -/
def grant (k : Nat) (r : CollRun) (ring dest : Nat) : Nat → Nat → State → State
  | 0, _, s => s
  | fuel + 1, n, s =>
    if n = 0 then s
    else
      let m := min n 0xFFFFFFFF
      grant k r ring dest fuel (n - m) (segSend s k dest .nobody (runSeg r 1 ring 0 m 0 dest []))

def grantAll (s : State) (k : Nat) (r : CollRun) (ring dest n : Nat) : State := grant k r ring dest (n / 0xFFFFFFFF + 1) n s

/-- The neighbour that a ring sends to, and its rank. -/
def ringNext (r : CollRun) (ring : Nat) : Nat × Nat :=
  if ring = 0 then (r.next, (r.rank + 1) % r.n) else (r.prev, (r.rank + r.n - 1) % r.n)

/-- The sends of a part of a chunk at a step. -/
def ringSends (r : CollRun) (ring step chunk : Nat) (part : Nat × Nat) (src : Nat) : List CollSend :=
  (cuts part.1 part.2).map (fun p =>
    ⟨ring, step, chunk, p.1, p.2, (ringNext r ring).1, (ringNext r ring).2, src + p.1, none⟩)

/-- A move list entry (R314, log entry 44). -/
structure Move where
  rank : Nat
  length : Nat
  soff : Nat
  doff : Nat
  deriving DecidableEq, Repr

def moveOf (bs : List Byte) (i : Nat) : Move :=
  ⟨bytesAt bs (16 * i) 4 % 2 ^ 18, bytesAt bs (16 * i + 4) 4, bytesAt bs (16 * i + 8) 4, bytesAt bs (16 * i + 12) 4⟩

/-- Byte offset of a chunk in a buffer of COUNT elements. -/
def chunkByte (r : CollRun) (c : Nat) : Nat := (chunkOf r.entry r.n c).1 * opSize r.entry

/-- The sends and local copies that a ring operation begins with. -/
def ringPlan (r : CollRun) : List CollSend × List (Nat × Nat × Nat) :=
  let b := r.entry
  let whole := opCount b * opSize b
  if r.n = 1 then (if opKind b ≤ 3 then ([], [(opSrc b, opDst b, whole)]) else ([], []))
  else
    match opKind b with
    | 0 | 1 =>
      ([0, 1].flatMap (fun ring =>
        let c := if ring = 0 then (r.rank + r.n - 1) % r.n else (r.rank + 1) % r.n
        ringSends r ring 1 c (ringPart b r.n ring c) (opSrc b + chunkByte r c)), [])
    | 2 =>
      ([0, 1].flatMap (fun ring => ringSends r ring 1 r.rank (ringPart b r.n ring r.rank) (opSrc b)),
        [(opSrc b, opDst b + chunkByte r r.rank, ((chunkOf b r.n r.rank).2 - (chunkOf b r.n r.rank).1) * opSize b)])
    | 3 => if r.rank = opRoot b then (ringSends r 0 1 0 (0, whole) (opSrc b), [(opSrc b, opDst b, whole)]) else ([], [])
    | _ => ([], [])

/-- A translation fault of a run halts the partition (log entry 45). -/
def collFault (s : State) (k code : Nat) : State := haltSlot s k code 0 false (imageDie s (homeDie s k))

/-- Judges a list of accesses of the engine: a fault halts, a wait leaves everything as it is. -/
def collJudge (s : State) (k : Nat) : List (Nat × Nat × Bool) → State × Option Bool
  | [] => (s, some true)
  | (va, n, w) :: l =>
    match judge s k (homeDie s k) .coll va n w with
    | (s, .ok) => collJudge s k l
    | (s, .wait _ _) => (s, some false)
    | (s, .fault c _ _) => (collFault s k c, none)

/-- Reads and writes of the engine, judged before. -/
def collRead (s : State) (k va n : Nat) : State × List Byte × List Nat := vaReadOk s k (homeDie s k) .coll va n

/-- Ranges of a page that the tap has not been passed yet, after a write to the page; `tap`: the write is passed to it (R340). -/
def coverPage (tap : Bool) (t : Tab (List (Nat × Nat))) (p : Nat × Nat × Nat) : Tab (List (Nat × Nat)) :=
  let l := (tfind t p.1).getD [(0, pageSize)]
  tput t p.1 (if tap then l.flatMap (without (p.2.1, p.2.2)) else l)

/-- A write of a run: its words formed from uncorrectable ones are poisoned (R367); the pages written are kept, and an
ALL_GATHER that has written a page whole gives it to the tap (R340). -/
def collWrite (s : State) (k : Nat) (r : CollRun) (va : Nat) (bs : List Byte) (bad : List Nat) : State × CollRun :=
  let h := hubBad s bs.length
  let s := vaWriteOk h.1 k (homeDie s k) .coll false va bs (bad ++ h.2)
  let ps := piecesOf va bs.length
  let cover := ps.foldl (coverPage (tapOn s k && opKind r.entry == 2)) r.cover
  let full := (ps.map (·.1)).filter (fun v => tfind cover v == some [])
  (each full (fun v s => capture s k v) s, { r with cover := cover })

/-- The PERMUTE moves of a run: grants to every other member, the sends and the local copies. A segment's OFFSET counts in the move
(R315); CHUNK and STEP, which a PERMUTE has no use for, carry DOFF (DESIGN CHOICE, log entry 44). -/
def permutePlan (s : State) (k : Nat) (r : CollRun) (list : List Byte) (moves : List Byte) : State × CollRun :=
  let b := r.entry
  let modOf := fun rank => bytesAt list (4 * rank) 4 % 2 ^ 18
  let s := each ((List.range r.n).filter (· != r.rank)) (fun m s => grantAll s k r 0 (modOf m) (opInBytes b)) s
  let ms := (List.range (opMoves b)).map (fun i => (i, moveOf moves i))
  let sends := (ms.filter (fun m => m.2.rank != r.rank)).flatMap (fun m => (cuts 0 m.2.length).map (fun p =>
    (⟨0, m.2.doff / 2 ^ 18, m.2.doff % 2 ^ 18, p.1, p.2, modOf m.2.rank, m.2.rank, opSrc b + m.2.soff + p.1, none⟩ : CollSend)))
  let own := ms.filter (fun m => m.2.rank == r.rank)
  let dst := if opInplace b then opStage b else opDst b
  (s, { r with planned := true, sends := sends, copies := own.map (fun m => (opSrc b + m.2.soff, dst + m.2.doff, m.2.length)),
               staged := if opInplace b then own.map (fun m => (m.2.doff, m.2.length)) else [],
               due := r.due - sumOf (own.map (fun m => m.2.length)) })

/-- Plans a run: what it sends, grants and copies. -/
def planRun (s : State) (k : Nat) (r : CollRun) : State × CollRun :=
  let b := r.entry
  if opKind b = 4 then
    let g := groupOf s k r.group
    match collJudge s k [(opAux b, 16 * opMoves b, false), (grpList g, 4 * r.n, false)] with
    | (s, some true) =>
      let m := collRead s k (opAux b) (16 * opMoves b)
      let l := collRead m.1 k (grpList g) (4 * r.n)
      permutePlan l.1 k r l.2.1 m.2.1
    | (s, _) => (s, r)
  else
    let s := if r.n = 1 then s else grantAll (grantAll s k r 0 r.prev (dueRing r 0)) k r 1 r.next (dueRing r 1)
    let p := ringPlan r
    let s := if opKind b = 5 && decide (1 < r.n) && r.rank == 0 then segSend s k r.next .nobody (runSeg r 2 0 1 0 0 r.next []) else s
    (s, { r with planned := true, sends := p.1, copies := p.2, passed := r.passed || r.n == 1 })

/-- One local copy of a run, if it can be made. -/
def copyOne (s : State) (k : Nat) (r : CollRun) : Option (State × CollRun) :=
  match r.copies with
  | [] => none
  | (src, dst, len) :: rest =>
    match collJudge s k [(src, len, false), (dst, len, true)] with
    | (s, some true) =>
      let q := collRead s k src len
      let w := collWrite q.1 k { r with copies := rest } dst q.2.1 (q.2.2.map (· - src / 8))
      some w
    | (_, _) => none

/-- One send of a run that its credit and its source allow. -/
def sendOne (s : State) (k : Nat) (r : CollRun) : Option (State × CollRun) :=
  let key := fun (x : CollSend) => 2 * x.grantor + x.ring
  match r.sends.find? (fun x => decide (x.len ≤ tget 0 r.credit (key x))) with
  | none => none
  | some x =>
    let r' := { r with sends := r.sends.erase x, credit := tset 0 r.credit (key x) (tget 0 r.credit (key x) - x.len) }
    let go := fun (s : State) (data : List Byte) =>
      let s := bump (hubRead s).1 (.clv k) clv_BYTES_OUT (cdiv x.len 64)
      some (segSend s k x.dest (.run k r.op) (runSeg r 0 x.ring x.step x.offset x.chunk x.dest data), r')
    match x.data with
    | some data => go s data
    | none =>
      match collJudge s k [(x.src, x.len, false)] with
      | (s, some true) => let q := collRead s k x.src x.len; go q.1 q.2.1
      | (_, _) => none

/-- Staged ranges go to DST once every read of the run's own sends is complete (R314). -/
def unstage (s : State) (k : Nat) (r : CollRun) : Option (State × CollRun) :=
  match r.staged with
  | [] => none
  | (off, len) :: rest =>
    if !r.copies.isEmpty || r.sends.any (·.data.isNone) then none
    else
      match collJudge s k [(opStage r.entry + off, len, false), (opDst r.entry + off, len, true)] with
      | (s, some true) =>
        let q := collRead s k (opStage r.entry + off) len
        some (collWrite q.1 k { r with staged := rest } (opDst r.entry + off) q.2.1 (q.2.2.map (· - (opStage r.entry + off) / 8)))
      | (_, _) => none

/-- Lets a run do what it can; the first argument bounds the steps. -/
def runSteps : Nat → Nat → CollRun → State → State × CollRun
  | 0, _, r, s => (s, r)
  | fuel + 1, k, r, s =>
    match copyOne s k r with
    | some q => runSteps fuel k q.2 q.1
    | none =>
      match sendOne s k r with
      | some q => runSteps fuel k q.2 q.1
      | none => match unstage s k r with | some q => runSteps fuel k q.2 q.1 | none => (s, r)

/-- The first access that a run's next copy, send or unstaging waits to make, for its faults to be taken. -/
def runFaults (s : State) (k : Nat) (r : CollRun) : State :=
  let l := (match r.copies with | (a, d, n) :: _ => [(a, n, false), (d, n, true)] | [] => [])
    ++ (match r.sends.find? (fun x => x.data.isNone && decide (x.len ≤ tget 0 r.credit (2 * x.grantor + x.ring))) with
        | some x => [(x.src, x.len, false)] | none => [])
    ++ (match r.staged with
        | (o, n) :: _ => if r.copies.isEmpty && !r.sends.any (·.data.isNone) then [(opStage r.entry + o, n, false), (opDst r.entry + o, n, true)] else []
        | [] => [])
  (collJudge s k l).1

/-- Lets the run of an operation plan and proceed. -/
def pumpRun (s : State) (k op : Nat) : State :=
  match runOfOp s k op with
  | none => s
  | some r =>
    let q := if r.planned then (s, r) else planRun s k r
    let p := if q.2.planned then runSteps (2 * (q.2.copies.length + q.2.sends.length + q.2.staged.length) + 2) k q.2 q.1 else q
    let s := setCollRun p.1 k p.2
    if p.2.planned then runFaults s k p.2 else s

/-! ## Segments that belong to a run -/

/-- A GRANT of a run. -/
def grantTo (r : CollRun) (b : List Byte) : CollRun :=
  let key := 2 * segSrank b + segRing b
  { r with credit := tset 0 r.credit key (tget 0 r.credit key + segOffset b) }

/-- A BARRIER segment at a member whose run is in progress: passed on until it has gone round twice (R314). -/
def barrierAt (s : State) (k : Nat) (r : CollRun) (b : List Byte) : State :=
  let st := segStep b
  let s := setCollRun s k { r with passed := r.passed || decide (r.n < st) }
  if st < 2 * r.n then segSend s k r.next .nobody (runSeg r 2 0 (st + 1) 0 0 r.next []) else s

/-- A segment of another membership is discarded and counted (R317). -/
def versionRefused (s : State) (k : Nat) : State := raise (bump s (.clv k) clv_VERSION_REFUSED 1) (.clv k) 2

/-- Segments that came before their run are taken up. -/
def takeEarly (s : State) (k op run : Nat) : State :=
  let x := getSlot s k
  let mine := x.earlySegs.filter (fun b => segOp b == op && segRun b == run)
  let s := setSlot s k { x with earlySegs := x.earlySegs.filter (fun b => !(segOp b == op && segRun b == run)) }
  each mine (fun b s =>
    match runOfOp s k op with
    | some r => if segVersion b ≠ r.version then versionRefused s k else if segKind b = 1 then setCollRun s k (grantTo r b) else barrierAt s k r b
    | none => s) s

/-- Whole posts toward further runs, as one count. -/
def opHeld (b : List Byte) : Nat := if opPending b then min (opParts b + opPosts b) 65535 else opPosts b

/-- A run begins: its entry is RUNNING, a further run that has all its posts too is PENDING, credit is granted, and what can be sent
is sent. -/
def beginRun (s : State) (k va : Nat) (op : Nat) (e : List Byte) (posts : Nat) (sample : Option Nat) : State :=
  let g := groupOf s k (opGroup e)
  let run := (opRun e + 1) % 65536
  let more := decide (opParts e ≤ posts)
  let s := opWrite s k va (if more then posts - opParts e else posts) run 2 more
  let r0 : CollRun :=
    { op := op, run := run, group := opGroup e, version := grpVersion g, entry := e.take 48, n := grpN g, rank := grpRank g,
      next := grpNext g, prev := grpPrev g, planned := false, credit := [], sends := [], copies := [], due := 0, staged := [],
      cover := [], passed := false, sample := sample, nextSample := none }
  let r := { r0 with due := if r0.n = 1 ∧ opKind e ≠ 4 then 0 else dueRing r0 0 + dueRing r0 1 }
  let x := getSlot s k
  let s := setSlot s k { x with runs := x.runs ++ [r] }
  pumpRun (takeEarly (pumpRun s k op) k op run) k op

/-! ## Posts (R309, R318, R325) -/

/-- A post is refused; a code that a host POST carries in CMD_RESULT, or CMD_REJECT, does not enter STATUS.LAST (R404, R405). -/
def postRefused (s : State) (k code : Nat) (host : Bool) : State × Nat :=
  let s := bump s (.clv k) clv_POST_REFUSED 1
  (raise (if code = 0x14 || host then s else last s (.clv k) code) (.clv k) 4, code)

/-- Whether a post is refused before its entry is read: ENABLE = 0, or beyond the table (R327). -/
def postBarred (s : State) (k op : Nat) : Bool :=
  !(slotUsed s k && (rd s (.clv k) hCTRL).testBit 0) || (opVa s k op).isNone

/-- Whether a post must wait for the entry's page (R342, R223). -/
def postWaits (s : State) (k op : Nat) : Bool :=
  match opVa s k op with
  | some va => match access s k 8 va 64 true with | .wait _ _ => true | _ => false
  | none => false

/-- One post to an operation of the CURRENT job: the state, and 0 or the condition of a refusal. -/
def post (s : State) (k op : Nat) (sample : Option Nat) : State × Nat :=
  match if postBarred s k op then none else opVa s k op with
  | none => postRefused s k 0x14 sample.isNone
  | some va =>
    match collJudge s k [(va, 64, true)] with
    | (s, some true) =>
      let q := opRead s k va
      let s := q.1
      let e := q.2
      let g := groupOf s k (opGroup e)
      let total := min (opPosts e + 1) 65535
      if opPending e && (opState e == 2 || decide (opParts e ≤ opPosts e)) then postRefused s k 0x0D sample.isNone
      else if !opLegal s k e then postRefused s k 0x14 sample.isNone
      else if opPending e || decide (total < opParts e) then
        (opWrite s k va total (opRun e) (if opState e = 2 then 2 else 1) (opPending e), 0)
      else if opState e = 2 then
        let s := match runOfOp s k op with | some r => setCollRun s k { r with nextSample := sample } | none => s
        (opWrite s k va 0 (opRun e) 2 true, 0)
      else if (getSlot s k).saving.isSome then (opWrite s k va (total - opParts e) (opRun e) 1 true, 0)
      else if !grpValid g || grpBroken g then (opWrite s k va total (opRun e) 1 false, 0)
      else (beginRun s k va op e (total - opParts e) sample, 0)
    | (s', _) => (s', match access s k 8 va 64 true with | .fault c _ _ => c | _ => 0)

/-- A post by a COLLECTIVE successor entry: a refusal is a program error (R309, R84). -/
def succPost (s : State) (d op sample : Nat) : State :=
  let k := slotOf s d
  let r := post s k op (some sample)
  if r.2 = 0 then r.1
  else
    let code := if r.2 = 0x14 then 0x0B else r.2
    haltSlot r.1 k code 0 false (imageDie s d)

def execPost (fn k tag : Nat) (s : State) : State :=
  hostCmd s fn (.clv k) fun s =>
    let op := arg s (.clv k) 0 % 4096
    if !postBarred s k op && postWaits s k op then s
    else
      let r := post s k op none
      endCmd r.1 (.clv k) r.2 0 tag 0

def execGroupWrite (fn k tag : Nat) (s : State) : State :=
  hostCmd s fn (.clv k) fun s =>
    let g := rd s (.clv k) clv_GRP_SEL % 4096
    if !slotUsed s k || !inGroups s k g || ((getSlot s k).runs.any (·.group == g) && !grpBroken (groupOf s k g)) then
      endCmd s (.clv k) 0x14 0 tag 0
    else
      let b := (List.range 8).flatMap (fun i => toBytes 4 (arg s (.clv k) i))
      let b0 := BitVec.ofNat 8 (setFld (bytesAt b 0 1) 1 1 0)
      endCmd (setGroup s k g (b0 :: b.drop 1)) (.clv k) 0 0 tag 0

/-! ## PEER_LOST (R318) -/

/-- Ends the run of an operation as ABORTED; whole posts toward a further run stay counted. -/
def abortRun (k m : Nat) (r : CollRun) (s : State) : State :=
  let s := bump (delRun s k r.op) (.clv k) clv_ABORTS 1
  let s := match opVa s k r.op with
    | some va =>
      let q := opRead s k va
      let posts := opHeld q.2
      opWrite q.1 k va posts (opRun q.2) (if posts = 0 then 0 else 1) false
    | none => s
  condition (wr s (.clv k) clv_LAST_ABORT (r.op + 4096 * m)) (.clv k) 0x0F 1

/-- Whether a module is in a group's member list. -/
def inList (s : State) (k m : Nat) (g : List Byte) : Bool :=
  grpNext g == m || grpPrev g == m ||
    (match access s k 8 (grpList g) (4 * grpN g) false with
     | .fault _ _ _ => false
     | _ =>
       let l := (vaReadOk s k (homeDie s k) .coll (grpList g) (4 * grpN g)).2.1
       (List.range (grpN g)).any (fun i => bytesAt l (4 * i) 4 % 2 ^ 18 == m))

/-- Whether a run has done everything: its sends have been acknowledged where it is a PERMUTE. -/
def runDone (s : State) (k : Nat) (r : CollRun) : Bool :=
  r.planned && r.sends.isEmpty && r.copies.isEmpty && r.staged.isEmpty && r.due == 0
    && (opKind r.entry != 5 || r.passed)
    && (opKind r.entry != 4 || (inFlight s).all (fun f => f.owner != .run k r.op))

/-- A group with a lost member breaks, and its runs end, but one whose writes are all done, which completes (R319).
CLV.LAST_ABORT names the first one. -/
def breakGroup (k m : Nat) (e : Nat × List Byte) (s : State) : State :=
  if grpValid e.2 && inList s k m e.2 then
    let b0 := BitVec.ofNat 8 (setFld (bytesAt e.2 0 1) 1 1 1)
    let s := setGroup s k e.1 (b0 :: e.2.drop 1)
    each ((getSlot s k).runs.filter (fun r => r.group == e.1 && !runDone s k r)).reverse (abortRun k m) s
  else s

/-- Whether a run in progress has a module among its group's members. -/
def runsWith (s : State) (k m : Nat) : Bool :=
  (getSlot s k).runs.any (fun r => !runDone s k r && grpValid (groupOf s k r.group) && inList s k m (groupOf s k r.group))

/-- The collective engine of a slot after PEER_LOST names a module; where a save waits on a run with it, the job is saved halted
(R273). -/
def collPeerLost (s : State) (k m : Nat) : State :=
  let hit := (getSlot s k).saving.isSome && runsWith s k m
  let s := each (getSlot s k).groups (breakGroup k m) s
  if hit then haltSlot s k 0x0F 0 false 0 else s

/-! ## Arriving segments -/

/-- The first whole COLL segment of a port: its place in the inbox, CLASS and bytes. -/
def firstSeg (x : PortSt) : Option (Nat × Nat × List Byte) :=
  (x.inbox.zipIdx.find? (fun e => e.1.1 == 2)).map (fun e => (e.2, e.1.2.1, e.1.2.2))

/-- A segment of a kind that has arrived whole on a port: for another module it goes on, else `f` takes it, by slot; what `f`
leaves waiting stays first in its stream. -/
def segArrive (kind : Nat) (f : Nat → List Byte → State → State → State) (p : Nat) (s : State) : State :=
  match firstSeg (getPort s p) with
  | none => s
  | some (i, cls, b) =>
    if segKind b ≠ kind then s
    else
      match portSlot s p with
      | none => bump (inboxTake s p i) (.fld p) fld_DISCARDED 1
      | some k =>
        if segDest b ≠ moduleNo s then
          let r := route s k (segDest b) (some (p, cls))
          portPut (inboxTake s p i) k r.1 r.2 2 b (some (segOwn k (segDest b) .nobody))
        else f k b s (inboxTake s p i)

/-- A segment of a group of the slot: one of another membership is refused (R317), and so is one of a group that is not
valid. `f` acts on the run, if it is in progress. -/
def segOfRun (f : Nat → Option CollRun → List Byte → State → State → State) (k : Nat) (b : List Byte) (s0 s : State) : State :=
  let g := groupOf s k (segGroup b)
  if !inGroups s k (segGroup b) || !grpValid g || segVersion b != grpVersion g then
    versionRefused s k
  else f k ((runOfOp s k (segOp b)).filter (fun r => r.run == segRun b && r.group == segGroup b)) b s0 s

/-- The sum of two BF16 values, exact and rounded once (R313). -/
def bf16Sum (a b : Nat) : Nat :=
  let x := ofBf16 a
  let y := ofBf16 b
  let n := f32Fx x + f32Fx y
  if !f32IsFinite x || !f32IsFinite y || n == 0 then toBf16 (f32Add x y)
  else (if n < 0 then 0x8000 else 0) + min (floatNear 7 127 n.natAbs 149) 0x7F80

/-- The partial with this member's own data added, the partial as the left operand. -/
def reduceBytes (ty : Nat) (part own : List Byte) : List Byte :=
  if ty = 0 then
    (List.range (part.length / 4)).flatMap (fun i => toBytes 4 (f32Add (w32 (bytesAt part (4 * i) 4)) (w32 (bytesAt own (4 * i) 4))).toNat)
  else (List.range (part.length / 2)).flatMap (fun i => toBytes 2 (bf16Sum (bytesAt part (2 * i) 2) (bytesAt own (2 * i) 2)))

/-- What a DATA segment asks of memory: a read of own data to add, and a write. -/
structure SegWork where
  add : Option Nat
  write : Option Nat
  forward : Bool
  stage : Bool
  deriving DecidableEq, Repr

/-- Where the data of a PERMUTE segment lies from DST: DOFF of its move and the offset in the move (log entry 44). -/
def moveOff (b : List Byte) : Nat := segChunk b + 2 ^ 18 * segStep b + segOffset b

/-- The work of a DATA segment by its operation and step (R313, R314). -/
def segWork (r : CollRun) (b : List Byte) : SegWork :=
  let e := r.entry
  let st := segStep b
  let c := segChunk b
  let at_ := chunkByte r c + segOffset b
  match opKind e with
  | 0 =>
    if st < r.n - 1 then ⟨some (opSrc e + at_), none, true, false⟩
    else if st = r.n - 1 then ⟨some (opSrc e + at_), some (opDst e + at_), true, false⟩
    else ⟨none, some (opDst e + at_), decide (st - (r.n - 1) < r.n - 1), false⟩
  | 1 =>
    if st < r.n - 1 then ⟨some (opSrc e + at_), none, true, false⟩
    else ⟨some (opSrc e + at_), some (opDst e + segOffset b), false, false⟩
  | 2 => ⟨none, some (opDst e + at_), decide (st < r.n - 1), false⟩
  | 3 => ⟨none, some (opDst e + segOffset b), decide (st < r.n - 1), false⟩
  | _ => ⟨none, some ((if opInplace e then opStage e else opDst e) + moveOff b), false, opInplace e⟩

/-- A DATA segment at a run in progress. -/
def dataAt (s0 s : State) (k : Nat) (r : CollRun) (b : List Byte) : State :=
  let len := segLength b
  let w := segWork r b
  let l := (match w.add with | some a => [(a, len, false)] | none => []) ++ (match w.write with | some a => [(a, len, true)] | none => [])
  -- a segment whose write must wait stays in the port, and the write counts as stalled (R342)
  let w0 := collJudge s0 k l
  if w0.2 = some false then w0.1 else
  match collJudge s k l with
  | (s, none) | (s, some false) => s
  | (s, some true) =>
    let s := bump s (.clv k) clv_BYTES_IN (cdiv len 64)
    let q := match w.add with
      | some a => let x := collRead s k a len; (x.1, reduceBytes (opType r.entry) (segData b) x.2.1, x.2.2.map (· - a / 8))
      | none => (s, segData b, [])
    let r := { r with due := r.due - len, staged := if w.stage then r.staged ++ [(moveOff b, len)] else r.staged }
    let y := match w.write with | some a => collWrite q.1 k r a q.2.1 q.2.2 | none => (q.1, r)
    let nx := ringNext r (segRing b)
    let r := if w.forward then
        { y.2 with sends := y.2.sends ++ [⟨segRing b, segStep b + 1, segChunk b, segOffset b, len, nx.1, nx.2, 0, some q.2.1⟩] }
      else y.2
    pumpRun (setCollRun y.1 k r) k r.op

def execCollDataSegment (p : Nat) (s : State) : State :=
  segArrive 0 (segOfRun (fun k r b s0 s => match r with | some r => dataAt s0 s k r b | none => s)) p s

/-- Keeps a segment until its run begins. -/
def keepEarly (s : State) (k : Nat) (b : List Byte) : State :=
  let x := getSlot s k
  setSlot s k { x with earlySegs := x.earlySegs ++ [b] }

def execCollGrant (p : Nat) (s : State) : State :=
  segArrive 1 (segOfRun (fun k r b _ s => match r with
    | some r => pumpRun (setCollRun s k (grantTo r b)) k r.op
    | none => keepEarly s k b)) p s

def execCollBarrier (p : Nat) (s : State) : State :=
  segArrive 2 (segOfRun (fun k r b _ s => match r with
    | some r => barrierAt s k r b
    | none => keepEarly s k b)) p s

/-! ## COLLECTIVE_RUN_COMPLETE (R316) -/

/-- Where the generation of a written page of the shard range lies (R238). -/
def genTarget (s : State) (k vpn : Nat) : Option Nat :=
  let d := homeDie s k
  (shardIndex s d vpn).map (genAddr s d)

/-- Advances a generation. -/
def advanceGen (a : Nat) (s : State) : State :=
  let x := physRead s a 2
  physWrite x.1 a (toBytes 2 ((ofBytes x.2.1 + 1) % 65536)) []

/-- The sample for which a run satisfies a task: its last post's, or the target's own for a POST (log entry 46). -/
def runSample (s : State) (d : Nat) (r : CollRun) : Nat :=
  match r.sample with | some n => n | none => (getCtx s d (opTarget r.entry % 8192)).sample

def execCollectiveRunComplete (k op : Nat) (s : State) : State :=
  let s := pumpRun s k op
  match runOfOp s k op, opVa s k op with
  | some r, some va =>
    let e := r.entry
    let gens := if opKind e = 2 ∨ opKind e = 3 ∨ opKind e = 4 then r.cover.filterMap (fun x => genTarget s k x.1) else []
    if !runDone s k r || gens.any (stalled s) then s
    -- a table outside the partition's own tier 1 is not reached (R191)
    else if gens.any (fun a => !(a / 2 ^ 46 == 1 && ownPhys s k a 2)) then collFault s k 0x0B
    else
      match collJudge s k [(va, 64, true)] with
      | (s, some true) =>
        let s := each gens advanceGen s
        let s := bump (delRun s k op) (.clv k) clv_RUNS 1
        let q := opRead s k va
        let g := groupOf s k (opGroup q.2)
        let idle := (getSlot s k).saving.isNone
        let good := grpValid g && !grpBroken g
        let s := if opPending q.2 && idle && good then beginRun q.1 k va op q.2 (opPosts q.2) r.nextSample
          else
            -- posts to a group that has broken stay counted (R318)
            let posts := if idle then opHeld q.2 else opPosts q.2
            opWrite q.1 k va posts (opRun q.2) (if posts = 0 && !opPending q.2 then 0 else 1) (opPending q.2 && !idle)
        let d := homeDie s k + opCdie e % diesPer s
        completion s d (opCkind e) (opTarget e) (runSample s d r)
      | (s, _) => s
  | _, _ => s

/-- Runs whose posts were complete while the job was saved begin (R267, R309). -/
def collRestart (s : State) (k : Nat) : State :=
  match (getSlot s k).current with
  | none => s
  | some j =>
    each (List.range (fld (rd s (.clv k) (clv_OP_BASE_j_HI + 8 * j)) 16 13)) (fun op s =>
      match opVa s k op with
      | some va =>
        match access s k 8 va 64 true with
        | .ok =>
          let q := opRead s k va
          let g := groupOf s k (opGroup q.2)
          if !opPending q.2 || opState q.2 == 2 || !opLegal s k q.2 then s
          else if grpValid g && !grpBroken g then beginRun q.1 k va op q.2 (opPosts q.2) none
          else opWrite q.1 k va (opHeld q.2) (opRun q.2) 1 false
        | _ => s
      | none => s) s

end Sys2Proof.Machine
end

