-- ==== Sys2Proof/Machine/Tasks.lean ====
section
/-! DEFINITION. Machine/Tasks.lean: the task engine's steps (R159 to R179, R186, R367, R368): dispatch, reports, commit and
discard at the core, DEP tokens, deadlines, SUBMIT. Each meaning answers a next state. -/
namespace Sys2Proof.Machine

/-! ## What the image gives a die -/

/-- A program store word of the loaded image; zero where it gives none. -/
def imageWord (s : State) (d key pc : Nat) : W64 :=
  let k := slotOf s d
  match (getSlot s k).image with
  | some (im, pl) =>
    match im.progs.find? (fun p => p.placement == pl && p.die == imageDie s d && coreOf s d p.core == some key) with
    | some p => (p.words[pc]?).getD 0
    | none => 0
  | none => 0

/-- Where the PROGRAMS section of the loaded image keeps a core's program word (log entry 21). -/
def imagePlace (s : State) (d key pc : Nat) : Nat :=
  let p := (getSlot s (slotOf s d)).progs
  p.1 + 8 * (Config.imageWord (4096 * key + pc) % max 1 (p.2 / 8))

/-- Rewrites a program word from the image; where the image's word is uncorrectable the store word is left poisoned (R368). -/
def refreshWord (d key pc : Nat) (s : State) : State :=
  let r := checkRead (stackUnits s (imagePlace s d key pc) 8 false) (imagePlace s d key pc) 8
  if r.2 then setSynd r.1 (coreAddr key (8 * pc) / 8) 3
  else store r.1 (coreAddr key (8 * pc)) (toBytes 8 (imageWord s d key pc).toNat)

/-- Rewrites the program words of a core that raised UE_FETCH (R368). -/
def refreshCore (s : State) (d key : Nat) : State :=
  let x := getDie s d
  let s := setDie s d { x with refresh := x.refresh.filter (·.1 != key) }
  each (x.refresh.filter (·.1 == key)) (fun r s => refreshWord d key r.2 s) s

/-- The i-th descriptor that the image gives a die. -/
def imageTask (s : State) (d i : Nat) : Option TaskSec :=
  match (getSlot s (slotOf s d)).image with
  | some (im, pl) => (im.tasks.filter (fun t => t.placement == pl && t.die == imageDie s d))[i]?
  | none => none

/-! ## A release that ends in a fault of its own data (R367) -/

/-- A fault names a released context that no core runs: its sample faults, or the partition halts (R178, R329). -/
def dropRelease (s : State) (d i code : Nat) : State :=
  let x := getCtx s d i
  if x.cls < 2 then failSample s d x.sample code x.core
  else windowFault (condition (discardNow s d i) (.tke d) code 0) (slotOf s d) code (imageDie s d)

/-- The bytes that a task context takes of the context store: the descriptor's 64, then the run record (log entry 83). -/
def ctxBytes : Nat := 192

/-- Reads a context's descriptor (false) or run record (true) through its check: the state, the marks that stay, and whether a word
is uncorrectable (R363). WORD of a log entry is the byte index in the context store divided by 8 (R371). -/
def readCtx (s : State) (d i : Nat) (run : Bool) (l : Tab Byte) : State × Tab Byte × Bool :=
  readMarks (.tke d) 4 (ctxBytes / 8 * i + (if run then 8 else 0)) false (fun _ => true) l s

/-- A damaged descriptor is made anew from the image, and the release is discarded. -/
def refreshDesc (s : State) (d i : Nat) : State :=
  let x := getCtx s d i
  let y := match imageTask s d i with
    | some t =>
      let z := ctxFrom x.task t.desc
      { z with sample := x.sample, dcur := x.dcur, pcur := x.pcur, state := x.state, hard := x.hard, rung := x.rung, fmtNow := x.fmtNow,
               run := x.run, cycles := x.cycles, released := x.released, retained := x.retained, badRun := x.badRun,
               badDesc := x.badDesc.filter (5 ≤ ·.1) }
    | none => { x with badDesc := x.badDesc.filter (5 ≤ ·.1) }
  dropRelease (setCtx s d i y) d i 0x08

/-! ## Dispatch (R163, R177, R79) -/

/-- The context that a core's slice would dispatch: the smallest DEADLINE among READY and YIELDED, then the smaller task
number. -/
def nextTask (s : State) (d l : Nat) : Option (Nat × Ctx) :=
  let c := (getDie s d).ctxs.filter (fun e => e.2.core == l && (e.2.state == .ready || e.2.state == .yielded))
  c.foldl (fun b e => match b with
    | none => some e
    | some a => if e.2.deadline < a.2.deadline ∨ (e.2.deadline = a.2.deadline ∧ e.2.task < a.2.task) then some e else b) none

/-- Whether a core is still at the commit or discard of an earlier attempt. -/
def coreBusy (s : State) (d l : Nat) : Bool :=
  (getDie s d).ctxs.any (fun e => e.2.core == l && e.2.state == .running)
    || s.net.any (fun f => f.tok.kind == 2 && f.tok.dest == coreEnd s d l && (f.tok.tag == 4 || f.tok.tag == 6))

def execTaskDispatch (d l : Nat) (s : State) : State :=
  match coreOf s d l, nextTask s d l with
  | some key, some (i, x) =>
    if !runs s d || !(rd s (.tke d) hCTRL).testBit 0 || coreBusy s d l || (x.state == .ready && succWaits s d i) then s
    else
      let q := readCtx s d i false x.badDesc
      let y := { x with badDesc := q.2.1 }
      if q.2.1.any (·.1 < 5) then refreshDesc (setCtx q.1 d i y) d i
      else if x.state = .ready then
        let s := setCtx (refreshCore q.1 d key) d i { y with state := .running }
        edges (toCore s d i 0 (b2n x.retained) (descBytes { y with state := .running })) d i 1
      else
        let r := readCtx q.1 d i true x.badRun
        if r.2.2 then dropRelease (setCtx r.1 d i { y with badRun := [] }) d i 0x08
        else toCore (setCtx (refreshCore r.1 d key) d i { y with state := .running, badRun := r.2.1 }) d i 1 0 (runBytes x.run)
  | _, _ => s

/-- A TASK token of a tag at its core: the core's key and the token, with the network without it. A token of another epoch
is refused. -/
def taskAtCore (tag : Nat) (f : Nat → Token → State → State) (n : Nat) (s : State) : State :=
  match arriving s n with
  | none => s
  | some x =>
    let t := x.tok
    if t.kind ≠ 2 ∨ t.tag ≠ tag ∨ 360 ≤ t.dest.core then s
    else
      match coreOf s t.dest.die t.dest.core with
      | none => netTake s n
      | some k => if t.epoch ≠ epochOf s (slotOf s t.dest.die) then coreRefused (netTake s n) k else f k t (netTake s n)

/-- The run that a DISPATCH payload starts. -/
def dispatchRun (s : State) (d : Nat) (info : Nat) (b : List Byte) : Run :=
  let spec := fld (bytesAt b 14 1) 0 2
  let fmtc := fld (bytesAt b 14 1) 4 4
  { ctx := ctxOf (bytesAt b 0 4), task := bytesAt b 0 4, sample := bytesAt b 40 4, cls := fld (bytesAt b 16 1) 0 3, spec := spec,
    narrow := isNarrow spec, speculative := (bytesAt b 48 1).testBit 5, fmtNow := bytesAt b 49 1,
    ceiling := if isNarrow spec then clsCeiling (classA s d fmtc) else 15, fmtc := fmtc, shadow := bytesAt b 30 1 % 16,
    rkey := bytesAt b 32 4, retained := info.testBit 0, sat := 0, nz := 0, uf := 0, vidx := 0, ended := false }

def execDispatch (n : Nat) (s : State) : State :=
  taskAtCore 0 (fun k t s =>
    let r := dispatchRun s (k / 384) t.dcount t.payload
    let c := getCore s k
    setCore s k { c with
      pc := bytesAt t.payload 6 2 % 4096, s := tset 0 (tset 0 [] 14 (w32 r.sample)) 15 (w32 r.task),
      a := tset 0 [] 7 (w32 (bytesAt t.payload 8 4 % 2 ^ 22)), v := [], ret := [], parity := [], run := some r, wait := .none,
      stall := 0, halted := false }) n s

def execTaskResume (n : Nat) (s : State) : State :=
  taskAtCore 1 (fun k t s =>
    let c := getCore s k
    let x := runFrom t.payload
    match c.away.find? (·.task == t.value) with
    | none => s
    | some r =>
      setCore s k { c with
        pc := x.pc % 4096, s := x.s, a := x.a, v := [], ret := x.ret, parity := [], wait := .none, stall := 0,
        away := c.away.filter (·.task != t.value),
        run := some { r with sat := x.sat, nz := x.nz, uf := x.uf, vidx := x.vidx, ended := false } }) n s

/-! ## Reports of a core (R177, R43 to R45) -/

/-- A TASK token of a tag at its slice, for a context that runs: die, context and token. A report for anything else is
dropped. -/
def taskAtSlice (tag : Nat) (f : Nat → Nat → Token → State → State → State) (n : Nat) (s : State) : State :=
  match arriving s n with
  | none => s
  | some x =>
    let t := x.tok
    if t.kind ≠ 2 ∨ t.tag ≠ tag ∨ t.dest.core < 0x188 then s
    else
      let d := t.dest.die
      let i := ctxOf t.value
      if t.epoch ≠ epochOf s (slotOf s d) then epochRefused (netTake s n) (slotOf s d)
      else if (getCtx s d i).task = t.value ∧ (getCtx s d i).state = .running then f d i t s (netTake s n)
      else netTake s n

/-- The counts of an attempt as its core keeps them. -/
def awaySat (s : State) (d i : Nat) : Nat :=
  match coreOf s d (getCtx s d i).core with
  | some k => (match (getCore s k).away.find? (·.ctx == i) with | some r => r.sat | none => 0)
  | none => 0

/-- TKE.ESC_LAST_TASK and ESC_LAST_INFO. -/
def escLast (s : State) (d i wide cause : Nat) : State :=
  let x := getCtx s d i
  wr (wr s (.tke d) tke_ESC_LAST_TASK x.task) (.tke d) tke_ESC_LAST_INFO
    (x.fmtNow % 16 + 16 * wide + 256 * cause + 65536 * min (awaySat s d i) 0xFFFF)

/-- A trip below CEILING: the attempt is discarded and made ready one rung wider (R44). -/
def escalate (s : State) (d i cause : Nat) : State :=
  let x := getCtx s d i
  let wide := wider x.fmtNow
  let cnt := if x.fmtNow = 9 then tke_ESC_COUNT_J2 else if x.fmtNow = 8 then tke_ESC_COUNT_J3 else tke_ESC_COUNT_E2M1
  let s := condition (escLast (bump s (.tke d) cnt 1) d i wide cause) (.tke d) 6 1
  let s := toCore (bump s (.tke d) tke_DISCARD_COUNT 1) d i 4 0 []
  let s := setCtx s d i { getCtx s d i with rung := x.rung + 1, fmtNow := wide, state := .ready, run := RunRec.zero, badRun := [] }
  edges s d i 3

def execEnded (n : Nat) (s : State) : State :=
  taskAtSlice 2 (fun d i t s0 s =>
    let x := getCtx s d i
    let ceiling := clsCeiling (classA s d x.fmtc)
    let cause := fld t.dcount 1 2
    if t.dcount.testBit 0 && x.fmtNow != ceiling then
      if succWaits s d i then s0 else escalate (addCycles s d i) d i cause
    else if t.dcount.testBit 0 && cause == 1 then
      let s := addCycles s d i
      let s := condition (escLast (bump s (.tke d) tke_ESC_FAIL 1) d i x.fmtNow 1) (.tke d) 5 2
      dropRelease (setCtx s d i { getCtx s d i with state := .ended }) d i 5
    else
      let s := addCycles s d i
      if 0 < x.pcur then setCtx s d i { getCtx s d i with state := .ended } else commitDecide s d i) n s

def execYielded (n : Nat) (s : State) : State :=
  taskAtSlice 3 (fun d i t _ s =>
    let s := addCycles s d i
    let x := getCtx s d i
    bump (setCtx s d i { x with state := .yielded, run := { runFrom t.payload with finger := x.run.finger }, badRun := [] }) (.tke d) tke_YIELD_COUNT 1) n s

/-! ## Discard, confirmation and commit at the core (R167, R170) -/

def execTaskDiscard (n : Nat) (s : State) : State := taskAtCore 4 (fun k t s => coreDiscard s k (ctxOf t.value)) n s

/-- An attempt of a context is no longer speculative. -/
def unspeculate (i : Nat) (r : Run) : Run := if r.ctx = i then { r with speculative := false } else r

def execConfirm (n : Nat) (s : State) : State :=
  taskAtCore 5 (fun k t s =>
    let i := ctxOf t.value
    let s := coreConfirm s k i
    let c := getCore s k
    releaseDeferred (setCore s k { c with run := c.run.map (unspeculate i), away := c.away.map (unspeculate i) }) k i true) n s

/-- The core and context of a commit that has released a FENCE still to complete, which its arms wait for (R230). -/
def fenceBefore (s : State) (k l i : Nat) : Option (Nat × Nat) :=
  if (getCore s k).releasing.any (fun e => e.1 == i && (match e.2 with | .fence _ => true | _ => false)) then some (l, i) else none

/-- A successor entry that is no AHEAD edge takes effect (R159), for context i at the core of key k. A SEM entry follows the effects
that the commit releases, as a SIGNAL of the core does (R104, log entry 72). -/
def successor (k i cls sample : Nat) (after : Option (Nat × Nat)) (e : Nat) (s : State) : State :=
  let d := k / 384
  let tgt := succTarget e
  match succKind e with
  | 0 => satisfy s d (ctxOf tgt) sample
  | 1 => if succDie s d e = d then satisfy s d (ctxOf tgt) sample else sendDep s d (succDie s d e) 0 sample tgt
  | 2 => succArm s d false (tgt % 1024) cls sample after
  | 3 => succArm s d true (tgt % 1024) cls sample after
  | 4 => succPost s d (tgt % 4096) sample
  | 5 =>
    let t := { engineToken s (slotOf s d) 5 (fld tgt 9 5) (here s d (selfCore s k)) (here s d (tgt % 512)) 0 sample (tgt / 65536) with length := 0 }
    let c := getCore s k
    pumpAll (setCore s k { c with releasing := c.releasing ++ [(i, .signal t c.serial)] }) k
  | _ => s

/-- The terrace entry of a sample is released once every BACKWARD release of it on the core has committed (R462). -/
def terraceRelease (s : State) (d l k sample : Nat) : State :=
  if (getDie s d).ctxs.all (fun e => e.2.core != l || e.2.cls != 1 || !relFor e.2 sample || e.2.state == .committed) then
    let c := getCore s k
    setCore s k { c with terr := { c.terr with entries := c.terr.entries.filter (·.sample != sample) } }
  else s

/-- Keeps that a BACKWARD release of a descriptor has committed for a sample (R335). -/
def keepCommit (s : State) (d i sample : Nat) : State :=
  let x := getDie s d
  if x.retain.any (fun e => e.1 == sample && e.2.1 == i) then s else setDie s d { x with retain := x.retain ++ [(sample, i, false)] }

/-- Whether the commit of a context has to wait for a page: its list, or an operation's entry that it posts to. -/
def commitWaits (s : State) (d i : Nat) : Bool :=
  succWaits s d i
    || (match (succOf s d i).2 with
        | .ok l => l.any (fun e => succKind e == 4 && postWaits s (slotOf s d) (succTarget e % 4096))
        | .error _ => false)

/-- TASK_COMMIT: the steps of R170 in order. -/
def execTaskCommit (n : Nat) (s0 : State) : State :=
  taskAtCore 6 (fun k t s =>
    let d := k / 384
    let i := ctxOf t.value
    let x := getCtx s d i
    if commitWaits s d i then s0
    else
      let c := getCore s k
      let s := coreConfirm s k i
      let s := match c.away.find? (·.ctx == i) with
        | some r => applyHeld (advanceHead s k r) k i x.retained
        | none => s
      let c := getCore s k
      let s := releaseDeferred (setCore s k { c with away := c.away.filter (·.ctx != i) }) k i false
      let q := succOf s d i
      let s := match q.2 with
        | .ok l =>
          let s := each (l.filter (fun e => !succAhead e)) (successor k i x.cls x.sample (fenceBefore q.1 k x.core i)) q.1
          each (l.filter succAhead) (edge d 2 x.sample) s
        | .error c => listFault q.1 d i c
      let s := charge s d i
      let s := if x.cls = 2 then (let y := getDie s d; setDie s d { y with updates := i :: y.updates }) else s
      if x.cls = 1 then terraceRelease (keepCommit s d i x.sample) d x.core k x.sample else s) n s0

/-! ## DEP tokens (R162, R166, R176, R178) -/

/-- A fault notice: the sample's contexts on the die go; one from another module is passed to the other dies of the
partition and counted by this module's hub. A report (INFO 1) is only counted (R178, log entry 49). -/
def depFault (s : State) (d : Nat) (t : Token) : State :=
  let s := if t.dcount.testBit 0 then s else discardSample s d t.sample
  if t.src.mod = moduleNo s then s
  else
    let s := if t.dcount.testBit 0 then s
      else each ((diesOf s (slotOf s d)).filter (· != d)) (fun e s => sendDep s d e 4 t.sample 0) s
    sampleFault s (slotOf s d) t.sample 0 0x1FF (imageDie s d)

/-- A DEP token is applied. -/
def depApply (d : Nat) (t : Token) (s : State) : State :=
  let s := bump s (.tke d) tke_DEP_RECV 1
  let i := ctxOf t.value
  match t.tag with
  | 0 => satisfy s d i t.sample
  | 1 => depStart s d i t.sample
  | 2 => depCommit s d i t.sample
  | 3 => depDiscard 8192 s d i t.sample
  | 4 => depFault s d t
  | _ => s

/-- Whether a die has no tick in progress: it has not begun one, or has reported DONE for it. -/
def betweenTicks (s : State) (d : Nat) : Bool := !(getDie s d).started || (getDie s d).doneSent

/-- A marker is on its way to a die's receiver: other dies of the module may have begun a tick that it has not. -/
def markerDue (s : State) (d : Nat) : Bool := s.net.any (fun f => f.tok.kind == 4 && f.tok.tag == 0 && f.tok.dest == here s d 0x16B)

/-- Whether a DEP token belongs to a tick whose release is still to come on its die (R162): a marker is due; or the die has no tick
in progress and the token, no fault notice, is of another module or comes before the first tick. -/
def depEarly (s : State) (d : Nat) (t : Token) : Bool :=
  betweenTicks s d && (markerDue s d || (t.tag != 4 && (t.src.mod != moduleNo s || !(getDie s d).started)))

/-- A DEP token of a tag at the task engine of its die: held until the release of a tick that the die has not begun, while
fewer than 64 are held. -/
def depArrive (tag n : Nat) (s : State) : State :=
  match arriving s n with
  | none => s
  | some x =>
    let t := x.tok
    if t.kind ≠ 3 ∨ t.tag ≠ tag ∨ 8 ≤ t.dest.die then s
    else if t.dest.core ≠ 0x168 then badEndpoint s n x
    else
      let d := t.dest.die
      if t.epoch ≠ epochOf s (slotOf s d) then epochRefused (netTake s n) (slotOf s d)
      else if depEarly s d t then
        let y := getDie s d
        if 64 ≤ y.early.length then s else setDie (netTake s n) d { y with early := y.early ++ [t] }
      else depApply d t (netTake s n)

def execDepSatisfy (n : Nat) (s : State) : State := depArrive 0 n s
def execDepStart (n : Nat) (s : State) : State := depArrive 1 n s
def execDepCommit (n : Nat) (s : State) : State := depArrive 2 n s
def execDepDiscard (n : Nat) (s : State) : State := depArrive 3 n s
def execDepFault (n : Nat) (s : State) : State := depArrive 4 n s

/-! ## Deadlines and SUBMIT (R165, R186) -/

def execDeadlineMiss (d i : Nat) (s : State) : State :=
  let x := getCtx s d i
  let y := getDie s d
  if x.released && !tget false y.missed i
      && (x.state == .waiting || x.state == .ready || x.state == .running || x.state == .yielded) then
    let s := setDie s d { y with missed := tset false y.missed i true }
    raise (wr (bump s (.tke d) tke_DEADLINE_MISS 1) (.tke d) tke_LAST_MISS x.task) (.tke d) 0x10
  else s

def execSubmit (fn d tag : Nat) (s : State) : State :=
  hostCmd s fn (.tke d) fun s =>
    let p : Page := .tke d
    let first := arg s p 0 % 8192
    let n := arg s p 1 % 16384
    let l := (List.range n).map (first + ·)
    if !(rd s p hCTRL).testBit 0 || n == 0
        || l.any (fun i => decide (8192 ≤ i) || (getCtx s d i).cls != 4 || (getCtx s d i).state != .idle) then endCmd s p 0x14 0 tag 0
    else
      let y := getDie s d
      endCmd (setDie s d { y with submits := y.submits ++ [(first, n, arg s p 2)] }) p 0 0 tag 0

end Sys2Proof.Machine
end

