-- ==== Sys2Proof/Machine/Tick.lean ====
section
/-! DEFINITION. Machine/Tick.lean: the tick generators and receivers (R127 to R157), releases (R160), rewinds (R146, R231,
R335), settling (R330), the unmatched check of R102, DONE and EMPTY. Each meaning answers a next state. -/
namespace Sys2Proof.Machine

def getTick (s : State) (k : Nat) : TickSt := (getSlot s k).tick
def setTick (s : State) (k : Nat) (t : TickSt) : State := setSlot s k { getSlot s k with tick := t }

/-- TCK.CTRL.ROLE (0 ALONE, 1 LEADER, 2 FOLLOWER) and POLICY (0 STRETCH, 1 FAULT). -/
def roleNo (s : State) (k : Nat) : Nat := rd s (.tckG k) hCTRL % 4
def policyFault (s : State) (k : Nat) : Bool := (rd s (.tckG k) hCTRL).testBit 2

/-- The generator that leads a slot's segment: its module, and its endpoint. -/
def leaderModule (s : State) (k : Nat) : Nat :=
  if roleNo s k = 0 then moduleNo s else moduleNo s / 8 * 8 + fld (rd s (.tckG k) tck_PEERS) 8 3
def genEnd (k m : Nat) : End := ⟨0x168 + k, 8, m⟩

/-- The other member modules; none for ALONE. -/
def followers (s : State) (k : Nat) : List Nat := if roleNo s k = 0 then [] else peerModules s k

/-- The dies of a segment by module and die; a member partition has the same dies on every module (log entry 50). -/
def segmentDies (s : State) (k : Nat) : List (Nat × Nat) :=
  (moduleNo s :: followers s k).flatMap (fun m => (diesOf s k).map (fun d => (m, d)))

/-- Dies whose DONE is missing. -/
def missing (s : State) (k : Nat) : List (Nat × Nat) :=
  (segmentDies s k).filter (fun e => !(getTick s k).dones.any (fun x => x.mod == e.1 && x.die == e.2))

/-- Whether a generator ticks: RUN or DRAIN, no die paused, no save under way. -/
def ticking (s : State) (k : Nat) : Bool :=
  (phase s k == 3 || phase s k == 4) && (getTick s k).paused.isEmpty && (getSlot s k).saving.isNone

/-- A TICK token of a slot. -/
def tickToken (s : State) (k tag : Nat) (src dest : End) (sample value : Nat) : Token := engineToken s k 4 tag src dest 0 sample value

/-- The tick counter. -/
def tickLo (s : State) (k : Nat) : Nat := rd s (.tckG k) tck_TICK_LO
def setTickNo (s : State) (k n : Nat) : State :=
  wr (wr s (.tckG k) tck_TICK_LO (n % 2 ^ 32)) (.tckG k) tck_TICK_HI (n / 2 ^ 32 % 2 ^ 32)
def tickNo (s : State) (k : Nat) : Nat := rd s (.tckG k) tck_TICK_LO + 2 ^ 32 * rd s (.tckG k) tck_TICK_HI

/-- Window length W and depth D. -/
def windowLen (s : State) (k : Nat) : Nat := rd s (.tckG k) tck_WINDOW
def depthOf (s : State) (k : Nat) : Nat := rd s (.tckG k) tck_DEPTH % 256

/-! ## Work counters (R182) -/

/-- Counter c of a die takes BASE. -/
def reloadCounter (d mode c : Nat) (s : State) : State :=
  let p := wkcPage d c
  if fld (rd s p (wkc_CFG_m + wkcOff c)) 0 2 = mode then
    let x := getDie s d
    setDie (wr s p (wkc_VALUE_m + wkcOff c) (rd s p (wkc_BASE_m + wkcOff c))) d { x with firstOut := tset false x.firstOut c false }
  else s

/-- Every counter of a mode on a die reloads. -/
def reloadCounters (mode d : Nat) (s : State) : State := each (List.range 256) (reloadCounter d mode) s

/-! ## Settled samples (R330) and the rewind of injection (R146, R331) -/

/-- Samples of injection slots settle: SETTLED, fault counts, and the marks of every die's retain table. -/
def settleSamples (s : State) (k : Nat) (l : List Nat) : State :=
  match l.getLast? with
  | none => s
  | some n =>
    let t := getTick s k
    let s := setTick (wr s (.ckp k) ckp_SETTLED n) k { t with faultCount := t.faultCount.filter (fun e => !l.contains e.1) }
    each (diesOf s k) (fun d s => let x := getDie s d; setDie s d { x with retain := x.retain.filter (fun e => !l.contains e.1) }) s

/-- The samples of slots whose stage-0 backward tick is over before window tick kn, and that are not settled yet. -/
def settledBefore (s : State) (k kn : Nat) : List Nat :=
  let D := depthOf s k
  ((getTick s k).inj.filter (fun e => decide (e.1 + 2 * D ≤ kn ∧ kn < e.1 + 2 * D + 1))).map (·.2)

/-- The boundary's rewind of injection: the faulted sample and those injected after it leave their slots, and CURSOR goes
back. Kept for the dies, which act at their tick start. -/
def rewindInjection (s : State) (k : Nat) : State :=
  let t := getTick s k
  match t.rewindTo with
  | none => setTick s k { t with rewound := [] }
  | some f =>
    match t.inj.find? (·.2 == f) with
    | none => setTick s k { t with rewound := [], rewindTo := none }
    | some q =>
      let gone := (t.inj.filter (fun e => decide (q.1 ≤ e.1))).map (·.2)
      setTick (wr s (.ckp k) ckp_CURSOR f) k { t with rewound := gone, rewindTo := none, inj := t.inj.filter (fun e => decide (e.1 < q.1)) }

/-- A sample is injected at window tick kn: it takes CURSOR. -/
def inject (s : State) (k kn : Nat) : State :=
  let t := getTick s k
  let c := rd s (.ckp k) ckp_CURSOR
  setTick (wr s (.ckp k) ckp_CURSOR ((c + 1) % max 1 (wrapOf s k))) k { t with inj := tput t.inj kn c }

/-! ## Emission (R130, R134, R137) -/

/-- The marker for window tick kn goes to every receiver of the module and every follower. -/
def sendMarkers (s : State) (k kn : Nat) (inj : Bool) : State :=
  let src := genEnd k (moduleNo s)
  let v := kn % 2 ^ 20 + 2 ^ 20 * b2n inj
  let s := each (diesOf s k) (fun d s => netSend s (tickToken s k 0 src (here s d 0x16B) (tickLo s k) v) .nobody k) s
  each (followers s k) (fun m s => netSend s (tickToken s k 0 src (genEnd k m) (tickLo s k) v) .nobody k) s

/-- What a generator, leader or follower, does at the boundary before window tick kn: settle, rewind, inject or drain. -/
def boundaryTo (s : State) (k kn : Nat) (inj : Bool) : State :=
  let t := getTick s k
  let s := if kn = 0 then setTick s k { t with inj := [], bounded := false } else s
  let s := rewindInjection s k
  let s := settleSamples s k (settledBefore s k kn)
  let s := if inj then inject s k kn else s
  let s := wr s (.tckG k) tck_WINDOW_TICK kn
  let s := wrFld (setPhase s k (if inj then 3 else 4)) (.tckG k) tck_PHASE 4 1 0
  let s := if kn = 0 then each (diesOf s k) (fun d s => let x := getDie s d; setDie s d { x with updates := [] }) s else s
  setTick s k { getTick s k with count := .known 0 }

/-- Whether a sample enters at the boundary to window tick kn: fewer than W live ones are in the window (R144, R146). -/
def injects (s : State) (k kn : Nat) : Bool :=
  let t := getTick s k
  let live := if kn = 0 then [] else match t.rewindTo with
    | some f => (match t.inj.find? (·.2 == f) with | some q => t.inj.filter (fun e => decide (e.1 < q.1)) | none => t.inj)
    | none => t.inj
  decide (live.length < windowLen s k)

/-- The leader emits the marker for window tick kn; `first` for tick 0 after a LOAD, which leaves the counter as it is. -/
def emitMarker (s : State) (k kn : Nat) (first : Bool) : State :=
  let t := getTick s k
  let ext := max (rd s (.tckG k) tck_THERM_EXT % 2 ^ 21) (maxOf (t.dones.map (·.therm)))
  let s := wr s (.tckG k) tck_EXT_APPLIED ext
  let s := if ext = 0 then s else bump s (.tckG k) tck_THERM_TICKS 1
  let inj := injects s k kn
  let s := boundaryTo s k kn inj
  let s := if first then s else setTickNo s k (tickNo s k + 1)
  let s := setTick s k { getTick s k with dones := [], overrun := false, noLimit := false }
  sendMarkers s k kn inj

/-! ## Window boundaries (R144, R182, R236) -/

/-- Whether the window ends at this boundary: every DONE is in, with WINDOW_COMPLETE and EMPTY. -/
def windowOver (s : State) (k : Nat) : Bool :=
  (missing s k).isEmpty && (getTick s k).dones.all (fun x => x.windowComplete && x.empty) && (getTick s k).rewindTo.isNone

/-- The window boundary: counted, its samples settled, the WINDOW counters reloaded, the gather epochs ended. -/
def windowBoundary (s : State) (k : Nat) : State :=
  let t := getTick s k
  if t.bounded then s
  else
    let s := setTick s k { t with bounded := true }
    let s := bump s (.tckG k) tck_WINDOW_COUNT 1
    let s := raise s (.tckG k) 4
    let D := depthOf s k
    let rest := (t.inj.filter (fun e => decide (rd s (.tckG k) tck_WINDOW_TICK < e.1 + 2 * D))).map (·.2)
    let s := settleSamples s k rest
    let s := each (diesOf s k) (reloadCounters 1) s
    each (diesOf s k) endGatherEpoch s

/-- A CORE_SWAP waits on a tract of the partition. -/
def swapWaits (s : State) (k : Nat) : Bool := (diesOf s k).any (fun d => (List.range 24).any (fun t => busy s (.trc d t)))

/-- TCK.PHASE.STOP_PENDING. -/
def stopPending (s : State) (k : Nat) : Bool := (rd s (.tckG k) tck_PHASE).testBit 3

/-- The timetable entry of the current job: whether it counts ticks, and whether its last one is over (R263). -/
def entryRuns (s : State) (k : Nat) : Bool := (rd s (.tmt k) tmt_STATE).testBit 17 && !(rd s (.tmt k) tmt_STATE).testBit 16
def entryOver (s : State) (k : Nat) : Bool :=
  entryRuns s k && !(getSlot s k).entryFresh && decide (rd s (.tmt k) tmt_ENTRY_LEFT ≤ 1)

/-- One tick of the entry is over, or its first one begins. -/
def entryTick (s : State) (k : Nat) : State :=
  if !entryRuns s k then s
  else
    let x := getSlot s k
    if x.entryFresh then setSlot s k { x with entryFresh := false }
    else wr s (.tmt k) tmt_ENTRY_LEFT (rd s (.tmt k) tmt_ENTRY_LEFT - 1)

/-- TICK_MARKER_EMIT: the count has reached TICK_LEN plus the extension; `extra` are the cycles of a stretch (R135). -/
def execTickMarkerEmit (k extra : Nat) (s : State) : State :=
  if !slotUsed s k || !ticking s k || roleNo s k == 2 || !(missing s k).isEmpty || entryOver s k then s
  else
    let s0 := s
    let s := if (getTick s k).overrun then
        wrMax (bump s (.tckG k) tck_STRETCH_TOTAL extra) (.tckG k) tck_STRETCH_MAX (min extra 0xFFFFFFFF)
      else s
    if windowOver s k || (getTick s k).bounded then
      if stopPending s k then s0
      else
        let s := windowBoundary s k
        if ckPhase s k == 1 || ckPhase s k == 2 || swapWaits s k then s
        else emitMarker (entryTick s k) k 0 false
    else emitMarker (entryTick s k) k (rd s (.tckG k) tck_WINDOW_TICK + 1) false

/-! ## Followers (R134, R139, R150) -/

/-- MARKER_MISSED: a follower that hears no marker for its limit. -/
def execMarkerMissed (k : Nat) (s : State) : State :=
  if slotUsed s k && roleNo s k == 2 && ticking s k then
    let m := leaderModule s k
    let s := condition s (.tckG k) 0x0F 0x12
    collPeerLost (faultBit (haltSlot s k 0x0F 0 false 0) (.tckG k) true) k m
  else s

/-! ## Overruns (R135, R136) -/

/-- The generator halts its partition for an overrun; its count keeps the value that it has come to, `extra` cycles beyond the
tick (R136). -/
def overrunHalt (s : State) (k die extra : Nat) : State :=
  let n := rd s (.tckG k) tck_TICK_LEN + rd s (.tckG k) tck_EXT_APPLIED + extra
  stopCount (faultBit (raise (haltSlot (last s (.tckG k) 1) k 1 0 true die) (.tckG k) 2) (.tckG k) true) k (some n)

/-- The lowest image die of this module that is late, 0 for none. -/
def lateDie (s : State) (k : Nat) : Nat :=
  match (missing s k).find? (·.1 == moduleNo s) with | some e => imageDie s e.2 | none => 0

/-- TICK_OVERRUN: the count reaches TICK_LEN plus the extension with a DONE missing. -/
def execTickOverrun (k : Nat) (s : State) : State :=
  let t := getTick s k
  let late := missing s k
  if !slotUsed s k || !ticking s k || roleNo s k == 2 || late.isEmpty || t.overrun then s
  else
    let s := setTick s k { t with overrun := true }
    let s := bump s (.tckG k) tck_OVERRUN_COUNT 1
    let own := late.filter (·.1 == moduleNo s)
    let dies := sumOf (own.map (fun e => 2 ^ e.2))
    let mods := sumOf ((((late.filter (·.1 != moduleNo s)).map (·.1 % 8)).eraseDups).map (2 ^ ·))
    let s := wr s (.tckG k) tck_LATE_DIES (dies + 256 * mods)
    let s := condition s (.tckG k) 1 1
    let s := each own (fun e s => bump s (.tckR e.2) tck_RX_LATE_COUNT 1) s
    if policyFault s k || rd s (.tckG k) tck_STRETCH_LIMIT == 0 then overrunHalt s k (lateDie s k) 0 else s

/-- STRETCH_LIMIT_EXPIRY: the extra wait of a stretched tick reaches the limit. -/
def execStretchLimitExpiry (k : Nat) (s : State) : State :=
  let t := getTick s k
  if slotUsed s k && ticking s k && roleNo s k != 2 && t.overrun && !t.noLimit && !(missing s k).isEmpty then
    let n := rd s (.tckG k) tck_STRETCH_LIMIT
    let s := wrMax (bump s (.tckG k) tck_STRETCH_TOTAL n) (.tckG k) tck_STRETCH_MAX n
    overrunHalt s k (lateDie s k) n
  else s

/-! ## Tokens at the leader (R134, R138, R150) -/

/-- A TICK token of a tag at a generator of this module. -/
def tickAtGen (tag : Nat) (f : Nat → Token → State → State) (n : Nat) (s : State) : State :=
  match arriving s n with
  | none => s
  | some x =>
    let t := x.tok
    if t.kind ≠ 4 ∨ t.tag ≠ tag then s
    else if t.dest.die < 8 ∧ t.dest.core ≠ 0x16B then badEndpoint s n x
    else if t.dest.die ≠ 8 ∨ t.dest.core < 0x168 ∨ 0x170 ≤ t.dest.core then s
    else
      let k := t.dest.core - 0x168
      if t.epoch ≠ epochOf s k then epochRefused (netTake s n) k else f k t (netTake s n)

def execTickDoneReceive (n : Nat) (s : State) : State :=
  tickAtGen 1 (fun k t s =>
    let x := getTick s k
    if t.sample ≠ tickLo s k then s
    else
      let e : Done := ⟨t.src.mod, t.src.die, fld t.value 0 21, t.value.testBit 21, t.value.testBit 22⟩
      setTick s k { x with dones := x.dones.filter (fun y => !(y.mod == e.mod && y.die == e.die)) ++ [e] }) n s

/-- Every follower is ARMED. -/
def allArmed (s : State) (k : Nat) : Bool := (followers s k).all (fun m => (getTick s k).armed.contains m)

/-- The first marker of a generator that is ARMED, once every follower is and no checkpoint holds the window (R150, R341). -/
def firstMarker (s : State) (k : Nat) : State :=
  if (roleNo s k = 0 ∨ (roleNo s k = 1 ∧ allArmed s k = true)) ∧ ckPhase s k ≠ 2 then emitMarker (entryTick s k) k 0 true else s

def execArmed (n : Nat) (s : State) : State :=
  tickAtGen 2 (fun k t s =>
    let x := getTick s k
    let s := setTick s k { x with armed := if x.armed.contains t.src.mod then x.armed else x.armed ++ [t.src.mod] }
    if phase s k == 2 && roleNo s k == 1 then firstMarker s k else s) n s

def execPause (n : Nat) (s : State) : State :=
  tickAtGen 3 (fun k t s =>
    let e := (t.src.mod, t.src.die)
    let s := if counting s k then stopCount s k none else s
    let x := getTick s k
    setTick s k { x with paused := if x.paused.contains e then x.paused else x.paused ++ [e] }) n s

def execTickResume (n : Nat) (s : State) : State :=
  tickAtGen 4 (fun k t s =>
    let x := getTick s k
    setTick s k { x with paused := x.paused.filter (· != (t.src.mod, t.src.die)) }) n s

/-- Every die of a slot sends PAUSE (tag 3) or RESUME (tag 4) to the leader. -/
def sendPause (s : State) (k tag : Nat) : State :=
  each (diesOf s k) (fun d s =>
    netSend s (tickToken s k tag (here s d 0x16B) (genEnd k (leaderModule s k)) (tickLo s k) 0) .nobody k) s

/-! ## TICK_START (R133, R146, R160) -/

/-- The cores of a die that hold any state. -/
def dieCores (s : State) (d : Nat) : List Nat := (s.cores.map (·.1)).filter (fun k => k / 384 == d)

/-- Contexts of the tick that is over become IDLE. -/
def tickEnd (d : Nat) (s : State) : State :=
  let x := getDie s d
  setDie s d { x with ctxs := x.ctxs.map (fun e =>
    (e.1, if e.2.state = .halted then e.2 else { e.2 with state := .idle, released := false })) }

/-- Held tokens and fire records of discarded samples go (log entry 51). -/
def dropHold (gone : Nat → Bool) (k : Nat) (e : Nat × Hold) (s : State) : State :=
  let c := getCore s k
  let h := e.2
  let a := h.data.any (fun t => gone t.sample) || (match h.ctrl with | some t => gone t.sample | none => false)
  let b := (h.record.isSome || h.taken.isSome) && gone h.sample
  if a || b then
    let r := tget Rule.none c.rules (e.1 / 16)
    let h1 := if a then { h with data := [], ctrl := none } else h
    let h2 := if b then { h1 with record := none, taken := none, sample := 0 } else h1
    setCore s k (setHold (markBusy c (areaOf r (e.1 % 16)) r.size false) (e.1 / 16) (e.1 % 16) h2)
  else s

/-- A core at the rewind: its switchback, and its terrace (R462). -/
def rewindCore (gone : Nat → Bool) (k : Nat) (s : State) : State :=
  let s := pumpAll (each (getCore s k).holds (dropHold gone k) s) k
  let c := getCore s k
  let t := c.terr
  match t.entries.find? (fun e => gone e.sample) with
  | some e => setCore s k { c with terr := { t with head := e.start, entries := t.entries.filter (fun e => !gone e.sample) } }
  | none => s

/-- The rewind on a die: marks for the retain table, engines and cores. The DEP tokens that it holds are of the tick whose release
follows (R162). -/
def rewindDie (gone : Nat → Bool) (d : Nat) (s : State) : State :=
  let x := getDie s d
  let s := setDie s d { x with retain := x.retain.map (fun e => if gone e.1 then (e.1, e.2.1, true) else e) }
  each (dieCores s d) (rewindCore gone) (rewindEngines gone d s)

/-- The unmatched check of a core at a tick boundary; the marks of slots unmatched at once end (R102). -/
def checkRules (k : Nat) (s : State) : State :=
  let l := (getCore s k).holds
  let s := each l (fun e s =>
    match e.2.ctrl, e.2.data.head? with
    | some t, _ => unmatch s k (e.1 / 16) (e.1 % 16) t.sample false
    | none, some t => unmatch s k (e.1 / 16) (e.1 % 16) t.sample false
    | none, none => s) s
  let c := getCore s k
  setCore s k { c with holds := (c.holds.map (fun e => (e.1, { e.2 with unmatched := false }))).filter (fun e => e.2 != Hold.none) }

/-- The slot after the last injection slot, once W live samples are in the window: W itself where no rewind came. -/
def injectionEnd (s : State) (k : Nat) : Option Nat :=
  let l := (getTick s k).inj
  if l.length = windowLen s k then (l.getLast?).map (·.1 + 1) else none

/-- The sample for which a tick class releases a context at window tick kn, if it does (R160). -/
def releaseSample (s : State) (k kn i : Nat) (x : Ctx) (submits : List (Nat × Nat × Nat)) : Option Nat :=
  let D := depthOf s k
  let inj := (getTick s k).inj
  match x.cls with
  | 0 => if x.stage ≤ kn then tfind inj (kn - x.stage) else none
  | 1 => if 2 * D ≤ kn + 1 + x.stage then tfind inj (kn + 1 + x.stage - 2 * D) else none
  | 2 => match injectionEnd s k with
    | some b => if kn + 1 + x.stage = b + 2 * D + x.offset then some (rd s (.tckG k) tck_WINDOW_COUNT) else none
    | none => none
  | 3 => some (tickLo s k)
  | 4 => (submits.reverse.find? (fun e => decide (e.1 ≤ i ∧ i < e.1 + e.2.1))).map (·.2.2)
  | _ => none

/-- A context is released for a sample. -/
def releaseCtx (s : State) (d : Nat) (i : Nat) (x : Ctx) (sample : Nat) : State :=
  setCtx (succDrop s d i) d i { x with
    sample := sample, dcur := x.deps, pcur := 0, hard := false, rung := 0, fmtNow := startFmt s d x, run := RunRec.zero, badRun := [],
    state := if x.deps = 0 then .ready else .waiting, cycles := 0, released := true,
    retained := x.cls == 1 && (getDie s d).retain.any (fun e => e.1 == sample && e.2.1 == i && e.2.2) }

/-- The release of a tick on a die, and the DEP tokens that came before it (R162). -/
def releaseDie (k kn d : Nat) (s : State) : State :=
  let x := getDie s d
  let s := if (rd s (.tke d) hCTRL).testBit 0 then
      each x.ctxs (fun e s => match releaseSample s k kn e.1 e.2 x.submits with
        | some n => releaseCtx s d e.1 (getCtx s d e.1) n
        | none => s) s
    else s
  let x := getDie s d
  let s := setDie s d { x with submits := [], early := [], started := true, doneSent := false, missed := [] }
  each x.early (depApply d) s

/-- TICK_START: a die takes the marker that has come to its receiver. -/
def execTickStart (d : Nat) (s : State) : State :=
  let k := slotOf s d
  match s.net.findIdx? (fun f => f.tok.kind == 4 && f.tok.tag == 0 && f.tok.dest == here s d 0x16B) with
  | none => s
  | some n =>
    match s.net[n]? with
    | none => s
    | some f =>
      let s := netTake s n
      if f.tok.epoch ≠ epochOf s k then epochRefused s k
      else
        let gone := fun n => (getTick s k).rewound.contains n
        let s := tickEnd d s
        let s := if (getTick s k).rewound.isEmpty then s else rewindDie gone d s
        let s := each (dieCores s d) checkRules s
        let s := reloadCounters 0 d s
        let s := wrFld s (.tckR d) tck_RX_STATE 8 1 1
        releaseDie k (rd s (.tckG k) tck_WINDOW_TICK) d s

/-! ## DONE (R130, R134, R147, R171) -/

/-- Whether nothing that the tick released on a die is outstanding (R171). -/
def dieSettled (s : State) (d : Nat) : Bool :=
  let x := getDie s d
  x.ctxs.all (fun e => !e.2.released || e.2.state == .committed || e.2.state == .discarded)
    && x.early.isEmpty && x.owed.isEmpty
    && s.net.all (fun f => !(f.tok.kind == 2 && f.tok.dest.die == d && f.tok.dest.mod == moduleNo s))
    && (inFlight s).all (fun f => f.owner != .engine d && (match f.owner with | .task c _ => c / 384 != d | _ => true))
    && (dieCores s d).all (fun k => (getCore s k).releasing.isEmpty && (getCore s k).sendq.isEmpty)

/-- Whether a die is empty (R147). -/
def dieEmpty (s : State) (d : Nat) : Bool :=
  let x := getDie s d
  (dieCores s d).all (fun k =>
      let c := getCore s k
      c.queue.isEmpty && c.retained.isNone && c.sendq.isEmpty && c.releasing.isEmpty
        && c.holds.all (fun e => e.2.data.isEmpty && e.2.ctrl.isNone && e.2.record.isNone && e.2.taken.isNone))
    && s.net.all (fun f => !((f.tok.dest.die == d && f.tok.dest.mod == moduleNo s) || (f.tok.src.die == d && f.tok.src.mod == moduleNo s)))
    && (x.streams ++ x.gathers).all (fun e => e.2.state != 1)
    && x.ctxs.all (fun e => e.2.state == .idle || e.2.state == .waiting || e.2.state == .committed || e.2.state == .discarded || e.2.state == .halted)
    && x.early.isEmpty
    && (List.range 16).all (fun p => portSlot s p != some (slotOf s d)
        || ((getPort s p).queue.isEmpty && (getPort s p).replay.isEmpty && (getPort s p).rx.isEmpty && (getPort s p).inbox.isEmpty))

/-- Whether every update task of the window on a die has committed: no forward or backward release of the window is still to
come, and each UPDATE context has committed (DEDUCED, log entry 52). -/
def windowComplete (s : State) (k d : Nat) : Bool :=
  let kn := rd s (.tckG k) tck_WINDOW_TICK
  let x := getDie s d
  match injectionEnd s k with
  | none => false
  | some b => x.ctxs.all (fun e =>
      if e.2.cls = 0 then decide (b + e.2.stage ≤ kn + 1)
      else if e.2.cls = 1 then decide (b + 2 * depthOf s k ≤ kn + 2 + e.2.stage)
      else e.2.cls != 2 || x.updates.contains e.1)

/-- DIE_DONE: nothing that the tick released on a die is outstanding; `cycles` is the die's own count since the tick's start. -/
def execDieDone (d cycles : Nat) (s : State) : State :=
  let k := slotOf s d
  let s := payOwed s d
  let x := getDie s d
  if !slotUsed s k || !x.started || x.doneSent || !(phase s k == 3 || phase s k == 4) || (rd s (.tckR d) tck_RX_STATE).testBit 9
      || !dieSettled s d then s
  else
    let s := setDie s d { x with doneSent := true }
    let n := cycles % 2 ^ 22
    let s := wrMax (wr s (.tckR d) tck_RX_DONE_LAST n) (.tckR d) tck_RX_DONE_MAX n
    let th := rd s (.tckG k) tck_THERM_EXT % 2 ^ 21
    let s := wr s (.tckR d) tck_RX_THERM_REQ th
    let v := th + 2 ^ 21 * b2n (windowComplete s k d) + 2 ^ 22 * b2n (dieEmpty s d)
    netSend s (tickToken s k 1 (here s d 0x16B) (genEnd k (leaderModule s k)) (tickLo s k) v) .nobody k

/-! ## Commands of the generator (R147, R150, R154, R182, R184) -/

/-- TKE.CTRL.ENABLE of every die of a slot. -/
def enableDies (s : State) (k : Nat) (b : Bool) : State := each (diesOf s k) (fun d s => wrFld s (.tke d) hCTRL 0 1 (b2n b)) s

/-- A die of the slot whose wipe was interrupted (R382). -/
def wipeIncomplete (s : State) (k : Nat) : Bool := (diesOf s k).any (fun d => (rd s (.wip d) wip_STATE).testBit 3)

/-- Whether a job of a slot is eligible (R261). -/
def eligible (s : State) (k j : Nat) : Bool :=
  let x := tget Job.none (getSlot s k).jobs j
  match x.state with
  | .current => activePhase (phase s k)
  | .saved => match x.saved with | some v => activePhase v.phase | none => false
  | _ => false

/-- A job that becomes eligible, or whose SHARE leaves 0, gains no backlog: its PASS becomes the larger of its own and the
smallest PASS among the other eligible jobs (R264). -/
def catchUp (s : State) (k j : Nat) : State :=
  let x := getSlot s k
  let l := (x.jobs.filter (fun e => e.1 != j && eligible s k e.1)).map (fun e => e.2.pass)
  match l with
  | [] => s
  | a :: l =>
    let y := tget Job.none x.jobs j
    setSlot s k { x with jobs := tput x.jobs j { y with pass := max y.pass (l.foldl min a) } }

/-- The CURRENT job has become eligible. -/
def catchUpCurrent (s : State) (k : Nat) : State := match (getSlot s k).current with | some j => catchUp s k j | none => s

/-- A loaded generator starts, or arms. -/
def startSlot (s : State) (k : Nat) : State :=
  let s := catchUpCurrent (enableDies s k true) k
  if roleNo s k = 2 then
    let t := tickToken s k 2 (genEnd k (moduleNo s)) (genEnd k (leaderModule s k)) 0 0
    netSend (setPhase s k 2) t .nobody k
  else firstMarker (setPhase s k 2) k

def execStart (fn k tag : Nat) (s : State) : State :=
  hostCmd s fn (.tckG k) fun s =>
    if phase s k ≠ 1 || roleNo s k == 3 || wipeIncomplete s k then endCmd s (.tckG k) 0x14 0 tag 0
    else endCmd (startSlot s k) (.tckG k) 0 0 tag 0

def execStop (fn k tag : Nat) (s : State) : State :=
  hostCmd s fn (.tckG k) fun s =>
    if phase s k == 3 || phase s k == 4 then endCmd (wrFld s (.tckG k) tck_PHASE 3 1 1) (.tckG k) 0 0 tag 0
    else endCmd s (.tckG k) 0x14 0 tag 0

/-- The epoch of a partition in its generator and its receivers. -/
def setEpoch (s : State) (k e : Nat) : State :=
  each (diesOf s k) (fun d s => wrFld s (.tckR d) tck_RX_STATE 0 4 e) (wr s (.tckG k) tck_EPOCH (e % 16))

def execEpochSet (fn k tag : Nat) (s : State) : State :=
  hostCmd s fn (.tckG k) fun s =>
    if phase s k = 1 then endCmd (setEpoch s k (arg s (.tckG k) 0)) (.tckG k) 0 0 tag 0
    else endCmd s (.tckG k) 0x14 0 tag 0

/-- A die's marker latency is measured (log entry 4). -/
def measure (d : Nat) (s : State) : State := let q := drawNat s; wr q.2 (.tckR d) tck_RX_MARKER_LAT (q.1 % 2 ^ 12)

/-- TCK_CALIBRATE: the latencies are what the module measures; ALIGN covers the largest of them, and is 16 at least. -/
def execTckCalibrate (fn k tag : Nat) (s : State) : State :=
  hostCmd s fn (.tckG k) fun s =>
    if phase s k ≠ 1 then endCmd s (.tckG k) 0x14 0 tag 0
    else
      let s := each (diesOf s k) measure (startLong s (.tckG k) tag)
      let lat := maxOf ((diesOf s k).map (fun d => rd s (.tckR d) tck_RX_MARKER_LAT))
      let a := drawNat s
      let g := drawNat a.2
      let al := max (a.1 % 2 ^ 12) (max 16 lat)
      let s := wr (wr g.2 (.tckG k) tck_ALIGN al) (.tckG k) tck_GUARD ((al + g.1) % 2 ^ 13)
      finishLong s (.tckG k) 0 0 0

/-- A follower's dies have all reported DONE with EMPTY (log entry 53). -/
def followerEmpty (s : State) (k : Nat) : Bool := (diesOf s k).all (fun d => (getDie s d).doneSent && dieEmpty s d && windowComplete s k d)

/-- The window tick that a marker's VALUE names to a follower: the next one, or 0 of a new window, whose first marker injects, once its
dies have completed theirs (log entry 57). -/
def markerTick (s : State) (k value : Nat) : Nat :=
  let v := fld value 0 20
  let next := rd s (.tckG k) tck_WINDOW_TICK + 1
  if v = next % 2 ^ 20 && !(v == 0 && value.testBit 20 && followerEmpty s k) then next else v

/-- MARKER_RELAY: a follower takes a marker and passes it to its receivers. -/
def execMarkerRelay (n : Nat) (s : State) : State :=
  match arriving s n with
  | none => s
  | some x =>
    let t := x.tok
    if t.kind ≠ 4 ∨ t.tag ≠ 0 then s
    else if t.dest.die < 8 ∧ t.dest.core ≠ 0x16B then badEndpoint s n x
    else if t.dest.die ≠ 8 ∨ t.dest.core < 0x168 ∨ 0x170 ≤ t.dest.core then s
    else
      let k := t.dest.core - 0x168
      let first := phase s k == 2
      let kn := if first then 0 else markerTick s k t.value
      let s0 := s
      let s := netTake s n
      if t.epoch ≠ epochOf s k then epochRefused s k
      else if roleNo s k ≠ 2 || !(phase s k == 2 || phase s k == 3 || phase s k == 4) then s
      else if kn = 0 && (ckPhase s k == 1 || ckPhase s k == 2) then s0
      else
        let s := if kn = 0 && !first then windowBoundary s k else s
        let s := boundaryTo s k kn (t.value.testBit 20)
        let hi := rd s (.tckG k) tck_TICK_HI + b2n (decide (t.sample < tickLo s k))
        let s := wr (wr s (.tckG k) tck_TICK_LO t.sample) (.tckG k) tck_TICK_HI (hi % 2 ^ 32)
        let src := genEnd k (moduleNo s)
        each (diesOf s k) (fun d s => netSend s (tickToken s k 0 src (here s d 0x16B) t.sample t.value) .nobody k) s

/-- STOP_COMPLETE: the window boundary is reached with a STOP pending. -/
def execStopComplete (k : Nat) (s : State) : State :=
  let ended := if roleNo s k = 2 then followerEmpty s k else windowOver s k || (getTick s k).bounded
  if slotUsed s k && ticking s k && stopPending s k && ended && ckPhase s k != 1 && ckPhase s k != 2 then
    let s := windowBoundary s k
    let s := wrFld (wrFld (setPhase (stopCount s k none) k 0) (.tckG k) tck_PHASE 3 1 0) (.tckG k) tck_PHASE 4 1 1
    let s := each (diesOf s k) (fun d s => wrFld s (.tckR d) tck_RX_STATE 8 1 0) (enableDies s k false)
    raise s (.tckG k) 8
  else s

end Sys2Proof.Machine
end

