-- ==== Sys2Proof/Machine/Record.lean ====
section
/-! DEFINITION. Machine/Record.lean: the checkpoint record and its directory (R345), page copies in the local and held areas
(R344, R346), the checkpoint engine's reads and writes by virtual address. -/
namespace Sys2Proof.Machine

/-! ## Accesses of the engine -/

/-- A page in transit that the engine meets takes its new place first. -/
def settleTransit (s : State) (k va n : Nat) : State := each (pagesIn va n) (fun v s => execPageSwitch k v s) s

/-- Reads a range for the engine: none on a translation fault, which is recorded. -/
def ckRead (s : State) (k va n : Nat) : State × Option (List Byte × List Nat) :=
  let s := settleTransit s k va n
  match judge s k (homeDie s k) .ckpt va n false with
  | (s, .fault _ _ _) => (s, none)
  | (s, _) => let r := vaReadOk s k (homeDie s k) .ckpt va n; (r.1, some (r.2.1, r.2.2))

/-- Writes a range for the engine: 0 done, 1 fault, 2 stalled on COW. -/
def ckWrite (s : State) (k va : Nat) (bs : List Byte) (bad : List Nat) : State × Nat :=
  let s := settleTransit s k va bs.length
  match judge s k (homeDie s k) .ckpt va bs.length true with
  | (s, .fault _ _ _) => (s, 1)
  | (s, .wait _ true) => (s, 2)
  | (s, _) => let h := hubBad s bs.length; (vaWriteOk h.1 k (homeDie s k) .ckpt true va bs (bad ++ h.2), 0)

/-! ## Directory entries -/

def dirFrom (b : List Byte) : CkPage :=
  { vpn := bytesAt b 0 4, ride := (bytesAt b 4 1).testBit 0, coded := (bytesAt b 4 1).testBit 1, poison := (bytesAt b 4 1).testBit 2,
    sectors := fld (bytesAt b 4 1) 4 4 + 1, tier := fld (bytesAt b 5 1) 0 2, stack := fld (bytesAt b 5 1) 2 3, crc := bytesAt b 8 8,
    sector := bytesAt b 16 4, made := true, buddy := 0 }

/-! ## The record -/

def recMagic (r : List Byte) : Bool := bytesAt r 0 4 == 0x4A38434B && bytesAt r 4 2 == 1
def recLocalDone (r : List Byte) : Bool := (bytesAt r 6 1).testBit 0
def recBuddyDone (r : List Byte) : Bool := (bytesAt r 6 1).testBit 1
def recNumber (r : List Byte) : Nat := bytesAt r 8 4
def recPages (r : List Byte) : Nat := bytesAt r 44 4

/-- A section of a kind: its bytes. -/
def recSection (r : List Byte) (kind : Nat) : List Byte :=
  match (List.range 12).find? (fun i => bytesAt r (64 + 16 * i) 2 == kind) with
  | some i => (r.drop (bytesAt r (64 + 16 * i + 8) 4)).take (bytesAt r (64 + 16 * i + 12) 4)
  | none => []

/-- Length of the record by its header. -/
def recLength (h : List Byte) : Nat :=
  max 256 (maxOf ((List.range 12).map (fun i =>
    if bytesAt h (64 + 16 * i) 2 = 0 then 0 else bytesAt h (64 + 16 * i + 8) 4 + bytesAt h (64 + 16 * i + 12) 4)))

/-- The directory. -/
def recDir (r : List Byte) : List CkPage := (List.range (recPages r)).map (fun i => dirFrom ((recSection r 1).drop (32 * i)))

/-- TMT.JOB_CFG of a job. -/
def jobCfg (s : State) (k j : Nat) : Nat :=
  let x := tget Job.none (getSlot s k).jobs j
  x.share % 65536 + 65536 * b2n (x.state != .absent) + 2 ^ 17 * b2n x.ctxValid

/-- The GROUPS section; a group whose member list cannot be read is left out. -/
def groupsSection (s : State) (k : Nat) : State × List Byte :=
  ((getSlot s k).groups.filter (fun e => inGroups s k e.1 && grpValid e.2)).foldl (fun q e =>
    match ckRead q.1 k (grpList e.2) (4 * grpN e.2) with
    | (s, some (l, _)) => (s, q.2 ++ toBytes 4 e.1 ++ e.2 ++ l)
    | (s, none) => (s, q.2)) (s, [])

def routesSection (s : State) (k : Nat) : List Byte :=
  (List.range 256).flatMap (fun i => let e := tget (0, 0, 0) (getSlot s k).exc i
    toBytes 4 e.1 ++ toBytes 4 e.2.1 ++ toBytes 4 e.2.2 ++ toBytes 4 0)

def timetableSection (s : State) (k : Nat) : List Byte :=
  toBytes 4 (rd s (.tmt k) tmt_FRAME_LEN) ++ toBytes 4 (rd s (.tmt k) tmt_IDLE_UNIT)
    ++ (List.range 256).flatMap (fun i => toBytes 8 (tget 0 (getSlot s k).tt i).toNat)
    ++ (List.range 64).flatMap (fun j => toBytes 4 (jobCfg s k j))

def countersSection (s : State) (k : Nat) : List Byte :=
  (diesOf s k).flatMap (fun d => (List.range 256).flatMap (fun c =>
    [wkc_VALUE_m, wkc_LIMIT_m, wkc_BASE_m, wkc_CFG_m].flatMap (fun o => toBytes 4 (rd s (wkcPage d c) (o + wkcOff c)))))

def tickSection (s : State) (k : Nat) : List Byte :=
  [hCTRL, tck_TICK_LEN, tck_STRETCH_LIMIT, tck_WINDOW, tck_DEPTH, tck_PEERS].flatMap (fun o => toBytes 4 (rd s (.tckG k) o))

/-- The section entries of sections in order, each at the next 64 B boundary, and their bytes. -/
def layRecord : Nat → List (Nat × List Byte) → List Byte × List Byte
  | _, [] => ([], [])
  | off, (kind, b) :: l =>
    let pad := (64 - b.length % 64) % 64
    let q := layRecord (off + b.length + pad) l
    (toBytes 4 kind ++ toBytes 4 0 ++ toBytes 4 off ++ toBytes 4 b.length ++ q.1, b ++ List.replicate pad 0 ++ q.2)

/-- The whole record of a slot's checkpoint at the snapshot point. -/
def makeRecord (s : State) (k : Nat) (pages : List CkPage) : State × List Byte :=
  let g := groupsSection s k
  let s := g.1
  let q := layRecord dirOff [(1, pages.flatMap dirBytes), (2, routesSection s k), (3, g.2), (4, timetableSection s k),
    (5, countersSection s k), (6, tickSection s k)]
  let d := homeDie s k
  let h := toBytes 4 0x4A38434B ++ toBytes 2 1 ++ toBytes 1 0 ++ toBytes 1 (epochOf s k) ++ toBytes 4 (getCk s k).number
    ++ toBytes 4 (moduleNo s) ++ toBytes 1 (layoutN s + 16 * k) ++ toBytes 1 ((getSlot s k).current.getD 0) ++ toBytes 2 0
    ++ toBytes 4 (rd s (.tckG k) tck_WINDOW_COUNT) ++ toBytes 8 (tickNo s k) ++ toBytes 4 (rd s (.ckp k) ckp_CURSOR)
    ++ toBytes 4 (rd s (.tke d) tke_SR_SEED_LO) ++ toBytes 4 (rd s (.tke d) tke_SR_SEED_HI) ++ toBytes 4 pages.length
    ++ List.replicate 16 0
  (s, h ++ q.1 ++ List.replicate (192 - q.1.length) 0 ++ q.2)

/-! ## The areas -/

/-- Physical address of held slot n, and the bytes that it holds. -/
def heldPart (s : State) (k n : Nat) : Nat × Nat :=
  let size := 65536 * (rd s (.ckp k) ckp_HOST_AREA_SIZE % 65536)
  (rd s (.ckp k) ckp_HOST_AREA_LO + 2 ^ 32 * (rd s (.ckp k) ckp_HOST_AREA_HI % 65536) + n * size, size)

/-- Where the copy of directory page i lies in a held slot: 16 sectors from the end of the slot downward (log entry 54). -/
def heldPage (s : State) (k n i : Nat) : Nat := (heldPart s k n).1 + (heldPart s k n).2 - 65536 * (i + 1)

/-- Whether n bytes at an offset of a held slot lie inside it. -/
def inHeld (s : State) (k n off len : Nat) : Bool :=
  decide (off + len ≤ (heldPart s k n).2) && ownPhys s k ((heldPart s k n).1 + off) len

/-- Reads a record at a physical address: none where it holds no sound one. -/
def readRecord (s : State) (a : Nat) : State × Option (List Byte) :=
  let h := physRead s a 256
  if !h.2.2.isEmpty || !recMagic h.2.1 then (h.1, none)
  else
    let r := physRead h.1 a (recLength h.2.1)
    (r.1, if r.2.2.isEmpty then some r.2.1 else none)

/-- The record of a local slot. -/
def localRecord (s : State) (k n : Nat) : State × Option (List Byte) := readRecord s (areaPart s k n (homeDie s k))

/-- The decoded bytes of a copy, and its bad words by index. -/
def copyPlain (p : CkPage) (bs : List Byte) (bad : List Nat) : List Byte × List Nat :=
  if p.coded then
    let plain := decodePage bs
    (plain, if bad.isEmpty && pageCrcOk bs plain then [] else List.range 8192)
  else (bs.take pageSize, bad)

/-- The decoded bytes of a copy that has come in segments, which carry no marks: every word of a POISON page is poisoned (R347, log
entry 54). -/
def copySent (p : CkPage) (bs : List Byte) (bad : List Nat) : List Byte × List Nat :=
  let q := copyPlain p bs bad
  (q.1, if p.poison then List.range 8192 else q.2)

/-- Reads the copy of a page of a local slot. -/
def localCopy (s : State) (k n : Nat) (p : CkPage) : State × List Byte × List Nat :=
  let a := areaPart s k n p.stack + 4096 * p.sector
  let r := physRead s a (4096 * p.sectors)
  let q := copyPlain p r.2.1 (r.2.2.map (· - a / 8))
  (r.1, q.1, q.2)

/-! ## The buddy (R346) -/

/-- The module whose copies a slot holds. -/
def hostFor (s : State) (k : Nat) : Option Nat :=
  let b := rd s (.ckp k) ckp_HOST_FOR
  if b.testBit 31 then some (b % 2 ^ 18) else none

/-- The engine rewrites part of the record at every destination: DEST 0 LOCAL, 1 BUDDY, 2 BOTH, 3 BOTH with its buddy lost. -/
def setRecord (s : State) (k off : Nat) (bs : List Byte) : State :=
  let x := getCk s k
  let s := setCk s k { x with record := x.record.take off ++ bs ++ x.record.drop (off + bs.length) }
  let s := if x.dest = 1 then s else physWrite s (areaPart s k x.slot (homeDie s k) + off) bs []
  if x.dest = 1 ∨ x.dest = 2 then toBuddy s k recChunk off bs else s

end Sys2Proof.Machine
end

