-- ==== Sys2Proof/Machine/Checkpoint.lean ====
section
/-! DEFINITION. Machine/Checkpoint.lean: the checkpoint engine (R338 to R351, R359): taking a checkpoint, the copies on a buddy,
RESTORE, VERIFY, EXPOSE. Each meaning answers a next state. -/
namespace Sys2Proof.Machine

/-! ## Copying (R341, R342) -/

/-- Whether a page of the set has been copied to every destination. -/
def ckPageDone (dest : Nat) (p : CkPage) : Bool :=
  if dest = 1 then p.buddy == 2 else if dest = 2 then p.made && p.buddy == 2 else p.made

/-- Whether the engine has read a page for its first copy: the local one, or with DEST BUDDY the one sent. -/
def ckPageRead (dest : Nat) (p : CkPage) : Bool := if dest = 1 then p.buddy != 0 else p.made

/-- Replaces page i of the set, and its directory entry in the record. -/
def setCkPage (s : State) (k i : Nat) (p : CkPage) (dir : Bool) : State :=
  let x := getCk s k
  let s := setCk s k { x with pages := lset x.pages i p }
  if dir then setRecord s k (dirOff + 32 * i) (dirBytes p) else s

/-- A page's copy is safe: COW cleared, and the writers that wait for it go on. -/
def ckSafe (s : State) (k vpn : Nat) : State :=
  let s := clearCow k vpn s
  let x := getSlot s k
  if cowWanted x vpn then
    let q := drawNat s
    let s := wrMax q.2 (.ckp k) ckp_COW_STALL_MAX (q.1 % 2 ^ 32)
    let x := getSlot s k
    pgtRetry (setSlot s k { x with cowNext := x.cowNext.filter (·.1 != vpn) }) k
  else pgtRetry s k

/-- The hold ends: PHASE COPYING, and the command writes its result. HOLD_LAST is measured (log entry 4). A generator that was
started during the hold starts its window now (R341, log entry 55). -/
def holdEnds (s : State) (k : Nat) : State :=
  let q := drawNat s
  let s := finishLong (setCkPhase (wr q.2 (.ckp k) ckp_HOLD_LAST (q.1 % 2 ^ 32)) k 3) (.ckp k) 0 0 0x20
  if phase s k = 2 then firstMarker s k else s

/-- Every page is copied: the record's flags, the slot's state, LAST (R342, R347). -/
def ckComplete (s : State) (k : Nat) : State :=
  let x := getCk s k
  let s := if x.dest = 1 then setRecord s k 6 (toBytes 1 2) else if x.dest = 2 then setRecord s k 6 (toBytes 1 3) else s
  let s := setCkPhase (setCkSlot s k x.slot (if x.dest = 3 then 3 else 2)) k 0
  let s := if x.dest = 3 then raise s (.ckp k) 2
    else
      let s := wrFld (wrFld s (.ckp k) ckp_STATE 4 1 x.slot) (.ckp k) ckp_STATE 5 1 1
      raise (bump s (.ckp k) ckp_COUNT 1) (.ckp k) 1
  let y := getCk s k
  setCk s k { y with pages := [], record := [] }

/-- What the copies made so far bring about. -/
def ckProgress (s : State) (k : Nat) : State :=
  let x := getCk s k
  let s := wr s (.ckp k) ckp_PAGES_DONE ((x.pages.filter (ckPageDone x.dest)).length)
  let s := if ckPhase s k = 2 && x.pages.all (fun p => p.tier != 0 || ckPageRead x.dest p) then holdEnds s k else s
  let s := if ckPhase s k = 3 && x.dest != 1 && x.pages.all (·.made) && !recLocalDone x.record then setRecord s k 6 (toBytes 1 1) else s
  if ckPhase s k = 3 && x.pages.all (ckPageDone x.dest) then ckComplete s k else s

/-- The next page of a list of candidates: one that a writer waits for, else the lowest. -/
def nextPage (s : State) (k : Nat) (ok : CkPage → Bool) : Option Nat :=
  let x := getCk s k
  match x.pages.findIdx? (fun p => ok p && cowWanted (getSlot s k) p.vpn) with
  | some i => some i
  | none => x.pages.findIdx? ok

/-- Whether CALIBRATE stalls a stack that a page's copy reads or writes, that of the record among them (R223). -/
def copyStalls (s : State) (k : Nat) (p : CkPage) : Bool :=
  stalled s (pteAddr (pteOf s k p.vpn)) || busy s (.mem p.stack) || busy s (.mem (homeDie s k))

/-- Whether CALIBRATE stalls a stack of a slot. -/
def slotStalls (s : State) (k : Nat) : Bool := (diesOf s k).any (fun d => busy s (.mem d))

/-- Makes one local copy. -/
def copyLocal (s : State) (k : Nat) : State :=
  match nextPage s k (fun p => !p.made && !copyStalls s k p) with
  | none => s
  | some i =>
    match (getCk s k).pages[i]? with
    | none => s
    | some p =>
      match copyPage (execPageSwitch k p.vpn s) k p.vpn with
      | none => ckFail s k 5
      | some (s, q) => ckSafe (setCkPage s k i { q with ride := p.ride, tier := p.tier, buddy := p.buddy } true) k p.vpn

/-- Sends one page's copy to the buddy, its directory entry first: the local copy, or with DEST BUDDY the page itself. -/
def copyBuddy (s : State) (k i : Nat) (p : CkPage) : State :=
  if (getCk s k).dest = 2 then
    let r := physRead s (areaPart s k (getCk s k).slot p.stack + 4096 * p.sector) (4096 * p.sectors)
    let h := hubRead r.1
    -- a copy with an uncorrectable word goes out as a POISON page (R347)
    let lost := h.2 || !r.2.2.isEmpty
    toBuddy (setCkPage h.1 k i { p with buddy := 1, poison := p.poison || lost } lost) k i 0 r.2.1
  else
    let r := sendForm (execPageSwitch k p.vpn s) k p.vpn
    toBuddy (setCkPage r.1 k i { r.2.2 with ride := p.ride, tier := p.tier, stack := p.stack } true) k i 0 r.2.1

/-- Sends copies to the buddy while fewer than 64 pages are unacknowledged: in the hold those of tier 0 that DEST BUDDY has not
captured. -/
def pumpBuddy : Nat → Nat → State → State
  | 0, _, s => s
  | fuel + 1, k, s =>
    let x := getCk s k
    if (x.dest ≠ 1 ∧ x.dest ≠ 2) ∨ 64 ≤ (x.pages.filter (·.buddy == 1)).length then s
    else
      match nextPage s k (fun p => p.buddy == 0 && !copyStalls s k p && (if x.dest = 1 then ckPhase s k == 3 || p.tier == 0 else p.made && ckPhase s k == 3)) with
      | none => s
      | some i => match x.pages[i]? with | some p => pumpBuddy fuel k (copyBuddy s k i p) | none => s

/-! ## The hold -/

/-- The pages of the checkpoint set in ascending virtual address, captured ones with their copy (R339, R340); a copy on the buddy
counts where the page still has the index that it was sent under (log entry 41). -/
def ckSet (s : State) (k : Nat) : List CkPage :=
  let x := getSlot s k
  let caps := liveCaps s k
  (setPtes x).zipIdx.map (fun (e, i) =>
    match caps.find? (fun p => p.vpn == e.1 && (x.ck.dest != 1 || p.sector == i)) with
    | some p => { p with ride := pteRide e.2, tier := pteTier e.2, sector := if x.ck.dest = 1 then 0 else p.sector }
    | none => { vpn := e.1, ride := pteRide e.2, coded := false, poison := false, sectors := 16, tier := pteTier e.2,
                stack := copyStack s k e.2, crc := 0, sector := 0, made := false, buddy := 0 })

/-- COW of an uncaptured page of tiers 1 and 2. -/
def protectPage (k dest : Nat) (p : CkPage) (s : State) : State :=
  if !ckPageRead dest p && p.tier != 0 then
    let e := pteOf s k p.vpn
    if pteCow e then s else setPte s k p.vpn (setFld e 2 1 1)
  else s

/-- Copies the uncaptured tier-0 pages of a list by index, while there is room. -/
def holdCopies (k : Nat) : List (CkPage × Nat) → State → Option State
  | [], s => some s
  | (p, i) :: l, s =>
    if p.made || p.tier != 0 then holdCopies k l s
    else
      match copyPage s k p.vpn with
      | none => none
      | some (s, q) => holdCopies k l (setCkPage s k i { q with ride := p.ride } true)

/-- The hold of R341. -/
def ckHold (s : State) (k : Nat) : State :=
  let x := getCk s k
  let pages := ckSet s k
  let r := makeRecord s k pages
  let s := r.1
  let full := x.dest ≠ 1 ∧ (areaSectors s k < cdiv r.2.length 4096 ∨
    (pages.any (fun p => p.made && p.stack == homeDie s k && decide (p.sector < cdiv r.2.length 4096))))
  if full then ckFail s k 5
  else
    let ride := pages.filter (ckPageRead x.dest)
    let s := setCk s k { getCk s k with pages := pages, record := r.2 }
    let s := setRecord (setCkPhase s k 2) k 0 r.2
    let s := wr (wr s (.ckp k) ckp_PAGES_TOTAL pages.length) (.ckp k) ckp_PAGES_RIDE ride.length
    let o := 16 * x.slot
    let s := wr (wr (wr s (.ckp k) (ckp_SLOT_n_WINDOW + o) (rd s (.tckG k) tck_WINDOW_COUNT)) (.ckp k) (ckp_SLOT_n_CURSOR + o)
      (rd s (.ckp k) ckp_CURSOR)) (.ckp k) (ckp_SLOT_n_NUMBER + o) x.number
    let s := wrFld s (.ckp k) (ckp_SLOT_n_STATE + o) 8 6 ((getSlot s k).current.getD 0)
    let s := each pages (protectPage k x.dest) (dropCaptures s k)
    let r := if x.dest = 1 then some s else holdCopies k pages.zipIdx s
    match r with
    | none => ckFail s k 5
    | some s => ckProgress (pumpBuddy 65 k s) k

/-- CHECKPOINT_HOLD: the snapshot point, a window boundary or a stopped partition; it waits while CALIBRATE stalls a stack (R223). -/
def execCheckpointHold (k : Nat) (s : State) : State :=
  if !slotUsed s k || ckPhase s k != 1 || slotStalls s k then s
  else if phase s k = 0 ∨ phase s k = 1 then ckHold s k
  else
    let ended := if roleNo s k = 2 then followerEmpty s k else windowOver s k || (getTick s k).bounded
    if ticking s k && ended then ckHold (windowBoundary s k) k else s

/-! ## Commands -/

/-- What the runs in progress have written so far has not passed the tap. -/
def uncover (s : State) (k : Nat) : State :=
  let x := getSlot s k
  setSlot s k { x with runs := x.runs.map (fun r => { r with cover := r.cover.map (fun e => (e.1, [(0, pageSize)])) }) }

/-- CKPT_BEGIN. On a partition that is STOPPED or LOADED the command itself is the snapshot point (R339). -/
def execCkptBegin (fn k tag : Nat) (s : State) : State :=
  hostCmd s fn (.ckp k) fun s =>
    let p : Page := .ckp k
    let ph := phase s k
    let dest := fld (rd s p hCTRL) 1 2
    let va := arg s p 0 + 2 ^ 32 * (arg s p 1 % 65536)
    let n := arg s p 2
    if !slotUsed s k || !(rd s p hCTRL).testBit 0 || ckPhase s k != 0 || !(ph == 0 || ph == 1 || ph == 3 || ph == 4) || dest == 3 then
      reject s p 1 tag
    else
      match (getSlot s k).current with
      | none => reject s p 2 tag
      | some j =>
        if dest != 0 && (buddyOf s k).isNone then reject s p 0x0B tag
        else if va % 64 ≠ 0 ∨ n = 0 ∨ 8192 < n then reject s p 6 tag
        else
          match ckRead s k va (4 * n) with
          | (s, none) => reject s p 6 tag
          | (s, some (bs, bad)) =>
            let l := (List.range n).map (fun i => bytesAt bs (4 * i) 4 % 2 ^ 19)
            if !bad.isEmpty || l.any (fun r => tfind (getSlot s k).regions r != some j) then reject s p 6 tag
            else
              let slot := 1 - b2n ((rd s p ckp_STATE).testBit 4)
              let s := setCk (startLong s p tag) k { CkSt.reset with dest := dest, slot := slot, number := rd s p ckp_COUNT + 1, regions := l }
              let s := setCkSlot (wrFld (setCkPhase (uncover s k) k 1) p ckp_STATE 3 1 slot) k slot 1
              if (ph = 0 ∨ ph = 1) ∧ slotStalls s k = false then ckHold s k else s

def execCkptCancel (fn k tag : Nat) (s : State) : State :=
  hostCmd s fn (.ckp k) fun s =>
    if ckPhase s k = 3 then done (ckFail s k 0) (.ckp k) tag else reject s (.ckp k) 1 tag

/-! ## RESTORE, VERIFY and EXPOSE (R349, R351, R359) -/

/-- Ends the command of the task with a reason and events beside CMD_DONE. -/
def ckEnd (s : State) (k reason evt : Nat) : State :=
  let s := setCk s k { getCk s k with task := none }
  finishLong (setCkPhase s k 0) (.ckp k) (if reason = 0 then 0 else 0x14) reason (0x20 + evt)

/-- The task goes on with a new state. -/
def setTask (s : State) (k : Nat) (t : CkTask) : State := setCk s k { getCk s k with task := some t }

/-- The local slot can be read (COMPLETE or LOCAL_ONLY). -/
def localUsable (s : State) (k n : Nat) : Bool := ckSlot s k n == 2 || ckSlot s k n == 3

/-- A request to a module. -/
def ckAsk (s : State) (k op run offset chunk dest : Nat) (data : List Byte) : State :=
  segSend s k dest .nobody (ckSeg s op run offset chunk dest data)

/-- SLOT of the command. -/
def taskSlot (t : CkTask) : Nat := t.flags % 2

/-- RUN of a task's requests: NUMBER of the record, and before it has come of the slot; a slot that shows no number of its own is
named by its place, which is the number's lowest bit (R346, log entry 54). -/
def taskRun (s : State) (k : Nat) (t : CkTask) : Nat :=
  if t.record.isEmpty then
    let n := rd s (.ckp k) (ckp_SLOT_n_NUMBER + 16 * taskSlot t)
    if n % 2 = taskSlot t then n % 65536 else taskSlot t
  else recNumber t.record % 65536

/-- Index in the directory of the page that a task treats. -/
def taskIndex (t : CkTask) : Nat := recPages t.record - t.todo.length

/-- The CRC of the page in place, if it can be read without error. -/
def liveCrc (s : State) (k vpn : Nat) : State × Option Nat :=
  match ckRead s k (vpn * pageSize) pageSize with
  | (s, some (bs, [])) => (s, some (crc64 bs))
  | (s, _) => (s, none)

/-- A page that VERIFY or RESTORE cannot resolve. -/
def lastPage (s : State) (k vpn : Nat) : State := wr s (.ckp k) ckp_LAST_PAGE vpn

/-- Work counters from a COUNTERS section. -/
def restoreCounters (s : State) (k : Nat) (b : List Byte) : State :=
  each (diesOf s k).zipIdx (fun e s => each (List.range 256) (fun c s =>
    each [(wkc_VALUE_m, 0), (wkc_LIMIT_m, 4), (wkc_BASE_m, 8), (wkc_CFG_m, 12)] (fun o s =>
      wr s (wkcPage e.1 c) (o.1 + wkcOff c) (bytesAt b (4096 * e.2 + 16 * c + o.2) 4)) s) s) s

/-- STATE of R349. -/
def restoreState (s : State) (k : Nat) (r : List Byte) : State :=
  let c := bytesAt r 32 4
  let m := wrapOf s k
  let s := wr (wr s (.ckp k) ckp_CURSOR c) (.ckp k) ckp_SETTLED ((c + m - 1) % max 1 m)
  let s := wr (setTickNo s k (bytesAt r 24 8)) (.tckG k) tck_WINDOW_COUNT (bytesAt r 20 4)
  let s := each (diesOf s k) (fun d s =>
    let x := getDie s d
    let s := setDie s d { x with retain := [] }
    wr (wr s (.tke d) tke_SR_SEED_LO (bytesAt r 36 4)) (.tke d) tke_SR_SEED_HI (bytesAt r 40 4)) s
  let t := getTick s k
  restoreCounters (setTick s k { t with inj := [], faultCount := [], rewindTo := none, rewound := [] }) k (recSection r 5)

/-- ROUTES of R349. -/
def restoreRoutes (s : State) (k : Nat) (b : List Byte) : State :=
  let x := getSlot s k
  setSlot s k { x with exc := iter 256 (fun i t =>
    tset (0, 0, 0) t i (bytesAt b (16 * i) 4, bytesAt b (16 * i + 4) 4, bytesAt b (16 * i + 8) 4)) [] }

/-- The groups of a GROUPS section. -/
def groupsIn : Nat → List Byte → List (Nat × List Byte × List Byte)
  | 0, _ => []
  | fuel + 1, b =>
    if b.length < 36 then []
    else
      let e := (b.drop 4).take 32
      let n := 4 * grpN e
      (bytesAt b 0 4 % 4096, e, (b.drop 36).take n) :: groupsIn fuel (b.drop (36 + n))

/-- GROUPS of R349: the entries, and their lists to LIST; the page of a list that cannot be written ends the command. -/
def restoreGroups (k : Nat) : List (Nat × List Byte × List Byte) → State → State × Option Nat
  | [], s => (s, none)
  | g :: l, s =>
    match ckWrite (setGroup s k g.1 g.2.1) k (grpList g.2.1) g.2.2 [] with
    | (s, 0) => restoreGroups k l s
    | (s, _) => (s, some (grpList g.2.1 / pageSize))

/-- TIMETABLE of R349. -/
def restoreTimetable (s : State) (k : Nat) (b : List Byte) : State :=
  let s := wr (wr s (.tmt k) tmt_FRAME_LEN (bytesAt b 0 4)) (.tmt k) tmt_IDLE_UNIT (bytesAt b 4 4)
  let x := getSlot s k
  let tt := iter 256 (fun i t => tset 0 t i (BitVec.ofNat 64 (bytesAt b (8 + 8 * i) 8))) []
  let jobs := iter 64 (fun j t => let y := tget Job.none t j; tset Job.none t j { y with share := bytesAt b (2056 + 4 * j) 2 }) x.jobs
  setSlot s k { x with tt := tt, jobs := jobs }

/-- RESTORE has written its pages: the other flags. -/
def restoreRest (s : State) (k : Nat) (t : CkTask) : State :=
  let r := t.record
  let s := if t.flags.testBit 9 then restoreState s k r else s
  let s := if t.flags.testBit 10 then restoreRoutes s k (recSection r 2) else s
  let g := if t.flags.testBit 11 then restoreGroups k (groupsIn 4096 (recSection r 3)) s else (s, none)
  match g with
  | (s, some v) => ckEnd (lastPage s k v) k 9 0
  | (s, none) => ckEnd (if t.flags.testBit 12 then restoreTimetable s k (recSection r 4) else s) k 0 0

/-- The record has come: what RESTORE and VERIFY check in it, and the pages to treat. -/
def recordCome (s : State) (k : Nat) (t : CkTask) (remote : Bool) : State :=
  let r := t.record
  if !recMagic r || (remote && !recBuddyDone r) then ckEnd s k 7 0
  else if t.op == 3 && !(bytesAt r 16 1 % 128 == layoutN s + 16 * k && bytesAt r 12 4 % 2 ^ 18 == moduleNo s) then ckEnd s k 8 0
  else setTask s k { t with want := 0, buf := [], todo := if t.op = 3 && !t.flags.testBit 8 then [] else recDir r }

/-- One step of RESTORE on its first page; true: more to do now. -/
def restorePage (s : State) (k : Nat) (t : CkTask) (p : CkPage) : State × Bool :=
  let i := taskIndex t
  let put := fun (s : State) (q : List Byte × List Nat) =>
    match ckWrite s k (p.vpn * pageSize) q.1 q.2 with
    | (s, 0) => (setTask s k { t with todo := t.todo.drop 1, buf := [], want := 0 }, true)
    | (s, 1) => (ckEnd (lastPage s k p.vpn) k 9 0, false)
    | (s, _) => (s, false)
  if !t.flags.testBit 1 then
    let r := localCopy s k (taskSlot t) p
    put r.1 (r.2.1, r.2.2)
  else if t.buf.length < 4096 * p.sectors then
    (ckAsk (setTask s k { t with want := 2 }) k 6 (taskRun s k t) t.buf.length i t.peer [], false)
  else put s (copySent p t.buf [])

/-- A page that VERIFY has treated: counted as bad or not. -/
def verified (s : State) (k : Nat) (t : CkTask) (p : CkPage) (ok : Bool) : State :=
  let s := bump s (.ckp k) ckp_VERIFY_PAGES 1
  let s := if t.put then bump s (.ckp k) ckp_VERIFY_FETCHED 1 else s
  let s := if ok then s else bump (lastPage s k p.vpn) (.ckp k) ckp_VERIFY_BAD 1
  setTask s k { t with todo := t.todo.drop 1, buf := [], want := 0, second := false, put := false }

/-- VERIFY replaces a page by bytes and asks for its CRC again: whether the page has been replaced, and the CRC; none where a writer
must wait. -/
def verifyPut (s : State) (k vpn : Nat) (q : List Byte × List Nat) : State × Option (Bool × Option Nat) :=
  match ckWrite s k (vpn * pageSize) q.1 q.2 with
  | (s, 0) => let r := liveCrc s k vpn; (r.1, some (true, r.2))
  | (s, 1) => (s, some (false, none))
  | (s, _) => (s, none)

/-- VERIFY of a RIDE page in REPLICA mode: against the reference, which replaces it. -/
def verifyRef (s : State) (k : Nat) (t : CkTask) (p : CkPage) : State × Bool :=
  if t.buf.length < 8 then (ckAsk (setTask s k { t with want := 3 }) k 2 (taskRun s k t) 0 0 t.peer (toBytes 4 p.vpn), false)
  else
    let ref := bytesAt t.buf 0 8
    if t.buf.length < 8 + pageSize then
      let r := liveCrc s k p.vpn
      if r.2 = some ref then (verified r.1 k t p true, true)
      else (ckAsk (setTask r.1 k { t with want := 4 }) k 4 (taskRun s k t) 0 (taskIndex t) t.peer (toBytes 4 p.vpn), false)
    else
      match verifyPut s k p.vpn (t.buf.drop 8, []) with
      | (s, some c) => (verified s k { t with put := t.put || c.1 } p (c.2 == some ref), true)
      | (s, none) => (s, false)

/-- VERIFY against the record once the page in place differs: the local copy, then the buddy's. -/
def verifyCopy (s : State) (k : Nat) (t : CkTask) (p : CkPage) : State × Bool :=
  let n := taskSlot t
  if !t.second then
    if localUsable s k n then
      let c := localCopy s k n p
      match verifyPut c.1 k p.vpn (c.2.1, c.2.2) with
      | (s, some c) =>
        let t := { t with put := t.put || c.1 }
        if c.2 = some p.crc then (verified s k t p true, true) else (setTask s k { t with second := true }, true)
      | (s, none) => (s, false)
    else (setTask s k { t with second := true }, true)
  else
    match buddyOf s k with
    | none => (verified s k t p false, true)
    | some m =>
      if !recBuddyDone t.record then (verified s k t p false, true)
      else if t.buf.length < 4096 * p.sectors then
        (ckAsk (setTask s k { t with want := 2 }) k 6 (taskRun s k t) t.buf.length (taskIndex t) m [], false)
      else
        match verifyPut s k p.vpn (copySent p t.buf []) with
        | (s, some c) => (verified s k { t with put := t.put || c.1 } p (c.2 == some p.crc), true)
        | (s, none) => (s, false)

/-- One step of VERIFY on its first page. A POISON page has no sound copy in the record: only a reference can replace it (R351). -/
def verifyPage (s : State) (k : Nat) (t : CkTask) (p : CkPage) : State × Bool :=
  if !t.flags.testBit 1 && p.ride then verifyRef s k t p
  else if p.poison then (verified s k t p false, true)
  else
    let r := liveCrc s k p.vpn
    if r.2 = some p.crc then (verified r.1 k t p true, true) else verifyCopy r.1 k t p

/-- One step of EXPOSE: `sector` of the pages to treat is their index in the held directory, CMD_ARG_4 and 5 the place of the
first page. -/
def exposePage (s : State) (k : Nat) (t : CkTask) (p : CkPage) : State × Bool :=
  let n := taskSlot t
  let a := heldPage s k n p.sector
  let r := physRead s a (4096 * p.sectors)
  let q := copySent p r.2.1 (r.2.2.map (· - a / 8))
  let dst := (arg s (.ckp k) 4 + 2 ^ 32 * (arg s (.ckp k) 5 % 65536)) / pageSize + (arg s (.ckp k) 3 - t.todo.length)
  match ckWrite r.1 k (dst * pageSize) q.1 q.2 with
  | (s, 0) => (setTask s k { t with todo := t.todo.drop 1 }, true)
  | (s, 1) => (ckEnd (lastPage s k dst) k 9 0, false)
  | (s, _) => (s, false)

/-- The task goes on until it ends or waits. -/
def ckPump : Nat → Nat → State → State
  | 0, _, s => s
  | fuel + 1, k, s =>
    match (getCk s k).task with
    | none => s
    | some t =>
      if t.want ≠ 0 || slotStalls s k then s
      else
        match t.todo with
        | [] =>
          if t.op = 3 then restoreRest s k t
          else if t.op = 4 then ckEnd s k (if rd s (.ckp k) ckp_VERIFY_BAD = 0 then 0 else 0x0A) 8
          else ckEnd s k 0 0
        | p :: _ =>
          let r := if t.op = 3 then restorePage s k t p else if t.op = 4 then verifyPage s k t p else exposePage s k t p
          if r.2 then ckPump fuel k r.1 else r.1

/-- Runs the task of a slot as far as it goes. -/
def ckRun (s : State) (k : Nat) : State :=
  match (getCk s k).task with
  | some t => ckPump (4 * t.todo.length + 4) k s
  | none => s

/-- Starts RESTORE or VERIFY with the record of the local slot, or of the buddy. -/
def ckStart (s : State) (k : Nat) (t : CkTask) (remote : Bool) : State :=
  if remote then
    match buddyOf s k with
    | none => ckEnd s k 7 0
    | some m => ckAsk (setTask s k { t with want := 1, peer := if t.op = 3 then m else t.peer }) k 6 (taskRun s k t) 0 recChunk m []
  else
    match localRecord s k (taskSlot t) with
    | (s, none) => ckEnd s k 7 0
    | (s, some r) => ckRun (recordCome s k { t with record := r } false) k

def execRestore (fn k tag : Nat) (s : State) : State :=
  hostCmd s fn (.ckp k) fun s =>
    let p : Page := .ckp k
    let a := arg s p 0
    if !slotUsed s k || phase s k != 1 || (rd s (.tmt k) hCTRL).testBit 0 || ckPhase s k != 0 then reject s p 1 tag
    else if !a.testBit 1 && !localUsable s k (a % 2) then reject s p 7 tag
    else ckStart (setCkPhase (startLong s p tag) k 4) k ⟨3, a, 0, 0, [], [], [], false, false⟩ (a.testBit 1)

def execVerify (fn k tag : Nat) (s : State) : State :=
  hostCmd s fn (.ckp k) fun s =>
    let p : Page := .ckp k
    let a := arg s p 0
    if !slotUsed s k || phase s k != 1 || ckPhase s k != 0 then reject s p 1 tag
    else if !localUsable s k (a % 2) && (buddyOf s k).isNone then reject s p 7 tag
    else
      let s := wr (wr (wr s p ckp_VERIFY_PAGES 0) p ckp_VERIFY_FETCHED 0) p ckp_VERIFY_BAD 0
      ckStart (setCkPhase (startLong s p tag) k 5) k ⟨4, a, arg s p 1 % 2 ^ 18, 0, [], [], [], false, false⟩ (!localUsable s k (a % 2))

/-- The pages of an EXPOSE: their directory entries, with the index in place of SECTOR; none where one is missing. -/
def exposeList (dir : List CkPage) (first n : Nat) : Option (List CkPage) :=
  (List.range n).mapM (fun i => (dir.findIdx? (fun p => p.vpn == first + i)).bind (fun j => (dir[j]?).map (fun p => { p with sector := j })))

def execExpose (fn k tag : Nat) (s : State) : State :=
  hostCmd s fn (.ckp k) fun s =>
    let p : Page := .ckp k
    let n := arg s p 0 % 2
    if !slotUsed s k || ckPhase s k != 0 then reject s p 1 tag
    else if (getSlot s k).current.isNone then reject s p 2 tag
    else if (hostFor s k).isNone || !inHeld s k n 0 256 then reject s p 7 tag
    else
      match readRecord s (heldPart s k n).1 with
      | (s, none) => reject s p 7 tag
      | (s, some r) =>
        let first := (arg s p 1 + 2 ^ 32 * (arg s p 2 % 65536)) / pageSize
        if !recBuddyDone r then reject s p 7 tag
        else
          match exposeList (recDir r) first (arg s p 3) with
          | none => reject s p 7 tag
          | some l => ckRun (setTask (setCkPhase (startLong s p tag) k 6) k ⟨5, n, 0, 0, [], r, l, false, false⟩) k

/-- COW_COPY: the background copier takes the next page; a task that a COW page stalled tries again. -/
def execCowCopy (k : Nat) (s : State) : State :=
  if !slotUsed s k then s
  else if ckPhase s k = 2 ∨ ckPhase s k = 3 then
    let s := if (getCk s k).dest = 1 then s else copyLocal s k
    if ckPhase s k = 2 ∨ ckPhase s k = 3 then ckProgress (pumpBuddy 65 k s) k else s
  else ckRun s k

/-! ## Segments of KIND CKPT (R346) -/

/-- A CKPT segment of an OP on a port. -/
def ckArrive (op : Nat) (f : Nat → List Byte → State → State) (p : Nat) (s : State) : State :=
  segArrive 3 (fun k b s0 s => if segOp b = op then f k b s else s0) p s

/-- A segment is refused. -/
def ckRefuse (s : State) (k : Nat) : State := raise (bump s (.ckp k) ckp_REFUSED 1) (.ckp k) 0x10

def execCkptCopy (p : Nat) (s : State) : State :=
  ckArrive 0 (fun k b s =>
    let n := segRun b % 2
    let i := segChunk b
    let d := segData b
    if hostFor s k ≠ some (segSrank b) then ckRefuse s k
    else if i = recChunk then
      if inHeld s k n (segOffset b) d.length then physWrite s ((heldPart s k n).1 + segOffset b) d [] else ckRefuse s k
    else
      let size := (heldPart s k n).2
      if size < 65536 * (i + 1) ∨ 65536 < segOffset b + d.length || !inHeld s k n (size - 65536 * (i + 1)) 65536 then ckRefuse s k
      else
        let e := physRead s ((heldPart s k n).1 + dirOff + 32 * i) 32
        let s := physWrite e.1 (heldPage s k n i + segOffset b) d []
        if segOffset b + d.length = 4096 * (dirFrom e.2.1).sectors then ckAsk s k 1 (segRun b) 0 i (segSrank b) [] else s) p s

def execCkptAck (p : Nat) (s : State) : State :=
  ckArrive 1 (fun k b s =>
    let x := getCk s k
    if ckPhase s k = 1 ∧ x.dest = 1 ∧ buddyOf s k = some (segSrank b) ∧ segRun b = x.number % 65536 then
      setCk s k { x with caps := x.caps.map (fun e => (e.1, if e.2.sector = segChunk b then { e.2 with buddy := 2 } else e.2)) }
    else if (ckPhase s k = 2 ∨ ckPhase s k = 3) ∧ (x.dest = 1 ∨ x.dest = 2) ∧ buddyOf s k = some (segSrank b) ∧ segRun b = x.number % 65536 then
      match x.pages[segChunk b]? with
      | none => s
      | some q =>
        let s := setCkPage s k (segChunk b) { q with buddy := 2 } false
        let s := if x.dest = 1 then ckSafe s k q.vpn else s
        ckProgress (pumpBuddy 65 k s) k
    else s) p s

/-- Whether this partition answers requests for live pages (R351). -/
def answersLive (s : State) (k : Nat) : Bool := (phase s k == 0 || phase s k == 1) && (getSlot s k).current.isSome

/-- The CRCs of a list of pages. -/
def crcList (k : Nat) : List Nat → State → State × Option (List Byte)
  | [], s => (s, some [])
  | v :: l, s =>
    match liveCrc s k v with
    | (s, none) => (s, none)
    | (s, some c) => match crcList k l s with | (s, some r) => (s, some (toBytes 8 c ++ r)) | (s, none) => (s, none)

/-- Answers with bytes, or with a segment of LENGTH 0 (log entry 54). -/
def ckAnswer (s : State) (k op : Nat) (b : List Byte) (r : Option (List Byte)) : State :=
  match r with
  | some d => if d.isEmpty then ckAsk s k op (segRun b) (segOffset b) (segChunk b) (segSrank b) []
      else ckSend s k op (segRun b) (segChunk b) (segSrank b) (segOffset b) d
  | none => ckAsk s k op (segRun b) (segOffset b) (segChunk b) (segSrank b) []

def execCrcReq (p : Nat) (s : State) : State :=
  ckArrive 2 (fun k b s =>
    if answersLive s k then
      let d := segData b
      let r := crcList k ((List.range (d.length / 4)).map (fun i => bytesAt d (4 * i) 4)) s
      ckAnswer r.1 k 3 b r.2
    else ckAnswer s k 3 b none) p s

def execPageReq (p : Nat) (s : State) : State :=
  ckArrive 4 (fun k b s =>
    if answersLive s k then
      match ckRead s k (bytesAt (segData b) 0 4 * pageSize) pageSize with
      | (s, some (bs, [])) => ckAnswer s k 5 b (some bs)
      | (s, _) => ckAnswer s k 5 b none
    else ckAnswer s k 5 b none) p s

def execHeldReq (p : Nat) (s : State) : State :=
  ckArrive 6 (fun k b s =>
    let n := segRun b % 2
    let i := segChunk b
    let size := (heldPart s k n).2
    let a := if i = recChunk then segOffset b else size - 65536 * (i + 1) + segOffset b
    let len := if i = recChunk then min 2048 (size - segOffset b) else min 2048 (65536 - segOffset b)
    if hostFor s k ≠ some (segSrank b) then ckAnswer (ckRefuse s k) k 7 b none
    else if len = 0 ∨ (i ≠ recChunk ∧ size < 65536 * (i + 1)) || !inHeld s k n a len then ckAnswer s k 7 b none
    else let r := physRead s ((heldPart s k n).1 + a) len; ckAnswer r.1 k 7 b (if r.2.2.isEmpty then some r.2.1 else none)) p s

/-- A response to the task of a slot: LENGTH 0 ends the command with PEER, other bytes are appended; `f` acts on the task. -/
def ckResponse (op want : Nat) (f : Nat → CkTask → State → State) (p : Nat) (s : State) : State :=
  ckArrive op (fun k b s =>
    match (getCk s k).task with
    | none => s
    | some t =>
      let from_ := if want < 3 then buddyOf s k else some t.peer
      if !(t.want == want || (want == 1 && t.want == 2)) || from_ != some (segSrank b) then s
      else if segLength b = 0 then ckEnd s k 0x0B (if t.op = 4 then 8 else 0)
      else f k { t with buf := t.buf ++ segData b } s) p s

def execCrcRsp (p : Nat) (s : State) : State := ckResponse 3 3 (fun k t s => ckRun (setTask s k { t with want := 0 }) k) p s

def execPageRsp (p : Nat) (s : State) : State :=
  ckResponse 5 4 (fun k t s =>
    if t.buf.length < 8 + pageSize then setTask s k t else ckRun (setTask s k { t with want := 0 }) k) p s

def execHeldRsp (p : Nat) (s : State) : State :=
  ckResponse 7 1 (fun k t s =>
    if t.want = 2 then ckRun (setTask s k { t with want := 0 }) k
    else
      let n := recLength t.buf
      if t.buf.length < 256 ∨ t.buf.length < n then
        match buddyOf s k with
        | some m => ckAsk (setTask s k t) k 6 (taskRun s k t) t.buf.length recChunk m []
        | none => ckEnd s k 0x0B 0
      else ckRun (recordCome s k { t with record := t.buf.take n } true) k) p s

/-! ## Loss of the buddy (R347) -/

/-- PEER_LOST names a module: what it means for the checkpoint of a slot. -/
def ckPeerLost (m k : Nat) (s : State) : State :=
  let x := getCk s k
  let s := match x.task with
    | some t => if t.want ≠ 0 && (if t.want < 3 then buddyOf s k else some t.peer) == some m then ckEnd s k 0x0B (if t.op = 4 then 8 else 0) else s
    | none => s
  if (ckPhase s k = 2 ∨ ckPhase s k = 3) ∧ buddyOf s k = some m then
    if x.dest = 1 then ckFail s k 0x0B
    else if x.dest = 2 then ckProgress (setCk s k { getCk s k with dest := 3 }) k
    else s
  else s

end Sys2Proof.Machine
end

