-- ==== Sys2Proof/Machine/Flidric.lean ====
section
/-! DEFINITION. Machine/Flidric.lean: the receiving side of a Flidric port, heartbeats, tokens that arrive from other modules,
training (R295, R299 to R307, R320 to R323). Each meaning answers a next state. -/
namespace Sys2Proof.Machine

/-! ## Flits (R299 to R301) -/

/-- The fields of a flit. -/
def flVc (b : List Byte) : Nat := fld (bytesAt b 0 1) 0 2
def flCls (b : List Byte) : Nat := fld (bytesAt b 0 1) 2 1
def flHb (b : List Byte) : Bool := (bytesAt b 0 1).testBit 3
def flNak (b : List Byte) : Bool := (bytesAt b 0 1).testBit 4
def flSeq (b : List Byte) : Nat := bytesAt b 1 2 % 4096
def flAck (b : List Byte) : Nat := bytesAt b 3 2 % 4096
def flCvc (b : List Byte) : Nat := bytesAt b 5 1 % 4
def flCredits (b : List Byte) : Nat := bytesAt b 5 1 / 4
def flFill (b : List Byte) : Nat := min (bytesAt b 6 1) flitRoom
def flHbId (b : List Byte) : Nat := bytesAt b 7 3 % 2 ^ 18
def flHbPort (b : List Byte) : Nat := fld (bytesAt b 7 3) 18 4
def flPayload (b : List Byte) : List Byte := (b.drop 10).take (flFill b)

/-- Whether the CRC covers the flit. -/
def flGood (b : List Byte) : Bool := b.length == 256 && bytesAt b 252 4 == crc32 (b.take 252)

/-- Whether a port is UP or in MAINT. -/
def portLive (s : State) (p : Nat) : Bool := portState s p == 2 || portState s p == 3

/-- The replay buffer without what an ACK covers. -/
def ackDrop (l : List TxFlit) (ack : Nat) : List TxFlit :=
  match l.findIdx? (·.seq == ack) with | some i => l.drop (i + 1) | none => l

/-- What every sound flit brings: ACK, NAK, credits and the heartbeat. -/
def flitControl (s : State) (p : Nat) (b : List Byte) : State :=
  let x := getPort s p
  let v := streamKey (flCvc b) (flCls b)
  let s := setPort s p { x with replay := ackDrop x.replay (flAck b), nakIn := x.nakIn || flNak b,
                                credit := tset (creditCap v) x.credit v (credits x v + flCredits b) }
  if flHb b then wr (wr s (.fld p) fld_PEER (flHbId b + 2 ^ 18 * flHbPort b)) (.fld p) fld_HB_AGE 0 else s

/-- Bytes that the token or segment at the head of a stream takes, once its header is in. -/
def unitSize (vc : Nat) (b : List Byte) : Nat :=
  if b.length < 32 then 32 else if vc = 2 then segSize (segLength b) else 32 + 32 * (bytesAt b 2 1 % 128)

/-- A segment that no unit takes: of a reserved KIND, or of KIND CKPT with a reserved OP. -/
def segVoid (b : List Byte) : Bool := decide (3 < segKind b) || (segKind b == 3 && decide (7 < segOp b))

/-- Takes the whole tokens and segments out of a stream (R300); the rest of one whose first part a reset has discarded goes too
(R319). -/
def takeUnits : Nat → Nat → Nat → State → State
  | 0, _, _, s => s
  | fuel + 1, p, key, s =>
    let x := getPort s p
    let b := tget [] x.rx key
    let n := unitSize (key / 2) b
    if b.length < 32 ∨ b.length < n then s
    else
      let y := { x with rx := tset [] x.rx key (b.drop n), void := tdel x.void key }
      match tfind x.void key with
      | some m => takeUnits fuel p key (setPort s p (rxFree y key (n - m)))
      | none =>
      if key / 2 = 2 && segVoid (b.take n) then takeUnits fuel p key (bump (setPort s p (rxFree y key n)) (.fld p) fld_DISCARDED 1)
      else takeUnits fuel p key (setPort s p { y with inbox := y.inbox ++ [(key / 2, key % 2, b.take n)] })

/-- A flit fails: NAK asks for the replay. A failure of the flit that is due counts, and the eighth in a row takes the port down
(R301). -/
def flitFails (s : State) (p : Nat) (counts : Bool) : State :=
  let x := getPort s p
  let n := x.bad + b2n counts
  let s := setPort s p { x with bad := n, skipping := true }
  if counts && decide (8 ≤ n) then linkDown s p else sendNone s p false true

/-- Whether a bad flit stands where the flit that is due would: the first one, or the one that replays it. A flit that carries
nothing has no place. -/
def countsBad (x : PortSt) (b : List Byte) : Bool := flVc b != 3 && (!x.skipping || flSeq b == x.expect)

/-- The codewords that the forward error correction of R298 has corrected, and those that it could not, since the last flit; how
many is open. A flit that is good has met none of the second sort. Time has passed since the last heartbeat. -/
def fecCount (s : State) (p : Nat) (good : Bool) : State :=
  let a := drawNat s
  let b := drawNat a.2
  let c := drawNat b.2
  let age := rd s (.fld p) fld_HB_AGE
  let s := bump (wr c.2 (.fld p) fld_HB_AGE (age + c.1 % max 1 (64 - age))) (.fld p) fld_FEC_CORR a.1
  if good then s else raise (bump s (.fld p) fld_FEC_UNCORR b.1) (.fld p) (8 * min b.1 1)

/-- With nothing else to send, ACK and credits go out in a flit of their own after 64 flits received (R301). -/
def ackIdle (s : State) (p : Nat) : State :=
  let x := getPort s p
  if 63 ≤ x.unanswered then sendNone s p false false else setPort s p { x with unanswered := x.unanswered + 1 }

/-- FLIT_RECEIVE: the 256 bytes of a flit come in on a port. -/
def execFlitReceive (p : Nat) (b : List Byte) (s : State) : State :=
  if !portLive s p then s
  else
    let s := fecCount s p (flGood b)
    let x := getPort s p
    if !flGood b then flitFails (bump s (.fld p) fld_CRC_ERR 1) p (countsBad x b)
    else if flVc b = 3 then hubLets (ackIdle (portFlush (flitControl (bump s (.fld p) fld_RX_FLITS 1) p b) p) p)
    -- in DIAGNOSTIC the ports carry no payload (R383)
    else if rd s .lcs lcs_STATE % 8 = 3 then s
    else if flSeq b ≠ x.expect then (if x.skipping then s else flitFails s p true)
    else
      let s := flitControl (bump s (.fld p) fld_RX_FLITS 1) p b
      let x := getPort s p
      let key := streamKey (flVc b) (flCls b)
      let s := setPort s p { x with expect := (x.expect + 1) % 4096, bad := 0, skipping := false,
                                    fills := tset [] x.fills key (tget [] x.fills key ++ [flFill b]),
                                    rx := tset [] x.rx key (tget [] x.rx key ++ flPayload b) }
      hubLets (ackIdle (portFlush (takeUnits 256 p key s) p) p)

/-- NAK_REPLAY: the sender replays from ACK + 1; in DIAGNOSTIC the ports carry no payload (R383). -/
def execNakReplay (p : Nat) (s : State) : State :=
  let x := getPort s p
  if portLive s p && x.nakIn && rd s .lcs lcs_STATE % 8 != 3 then
    let l := x.replay.map (fun f => flitBytes s p x f.vc f.cls f.seq f.credit false false f.payload)
    bump (bump (setPort s p { x with nakIn := false, wire := x.wire ++ l }) (.fld p) fld_REPLAYS 1) (.fld p) fld_TX_FLITS l.length
  else s

/-! ## Heartbeats (R302) -/

def execHeartbeatSend (p : Nat) (s : State) : State := if portLive s p then hubLets (sendNone s p true false) else s

/-- PEER_LOST names a module: groups, runs and checkpoints (R318, R347). -/
def peerLost (s : State) (m : Nat) : State :=
  each (List.range 8) (fun k s => ckPeerLost m k (collPeerLost s k m)) s

/-- HEARTBEAT_TIMEOUT: no heartbeat for 64 µs on an UP port. -/
def execHeartbeatTimeout (p : Nat) (s : State) : State :=
  if portState s p ≠ 2 then s
  else
    let peer := rd s (.fld p) fld_PEER % 2 ^ 18
    let s := linkDown (wr s (.fld p) fld_HB_AGE 64) p
    if (List.range 16).any (fun q => portState s q == 2 && rd s (.fld q) fld_PEER % 2 ^ 18 == peer) then s
    else peerLost (condition s (.fld p) 0x0F 2) peer

/-! ## Tokens from other modules (R296, R297, R307) -/

/-- Whether a token from another module may not enter a slot: it names no endpoint of it (R307). -/
def foreignToken (s : State) (k : Nat) (t : Token) : Bool :=
  decide ((t.dest.die < 8 ∧ slotOf s t.dest.die ≠ k) ∨ 8 < t.dest.die ∨ (t.dest.die = 8 ∧ t.dest.core ≠ 0x168 + k))

/-- Whether a whole token of a port can be taken now: it is discarded, passed on to another module, or its header can leave the hub for
its endpoint (R97, R142). -/
def tokenGoes (s : State) (p cls : Nat) (b : List Byte) : Bool :=
  let t := tokenFrom b
  match portSlot s p with
  | none => true
  | some k =>
    if t.dest.mod ≠ moduleNo s then hubPasses s ⟨t, .nobody, k⟩ (some (p, cls))
    else t.kind == 2 || decide (6 ≤ t.kind) || foreignToken s k t || canLeave s ⟨t, .nobody, k⟩

/-- The first whole token of a port that can be taken, no other of its stream before it (R300): its place in the inbox, CLASS and
bytes. -/
def firstToken (s : State) (p : Nat) : Option (Nat × Nat × List Byte) :=
  let l := (getPort s p).inbox
  (l.zipIdx.find? (fun e => e.1.1 != 2 && (l.take e.2).all (fun q => !(q.1 == e.1.1 && q.2.1 == e.1.2.1)) && tokenGoes s p e.1.2.1 e.1.2.2)).map
    (fun e => (e.2, e.1.2.1, e.1.2.2))

/-- FLIDRIC_TOKEN_ARRIVE: a whole token enters the slot that owns the port; one that finds no room stays in the port. -/
def execFlidricTokenArrive (p : Nat) (s : State) : State :=
  match firstToken s p with
  | none => s
  | some (i, cls, b) =>
    let s := inboxTake s p i
    let t := tokenFrom b
    match portSlot s p with
    | none => bump s (.fld p) fld_DISCARDED 1
    | some k =>
      if t.dest.mod ≠ moduleNo s then routeOut s k ⟨t, .nobody, k⟩ (some (p, cls))
      else if t.kind = 2 ∨ 6 ≤ t.kind then bump s (routePage k) fld_UNROUTABLE 1
      else if foreignToken s k t then bump s (routePage k) fld_FOREIGN_REFUSED 1
      else { s with net := s.net ++ [⟨t, .nobody, k⟩] }

/-! ## Training and maintenance (R304, R320, R322) -/

/-- LINK_RETRAIN: the port trains; TRAIN_DONE ends it. A port that must stay OFF, for want of ENABLE or of a NODE_CONFIG (R320,
R447), fails to train at once (log entry 80). -/
def execLinkRetrain (fn p tag : Nat) (s : State) : State :=
  hostCmd s fn (.fld p) fun s =>
    let st := portState s p
    if st = 0 ∨ st = 3 ∨ st = 4 then
      if (rd s (.fld p) hCTRL).testBit 0 && (st != 0 || s.board.node.isSome) then setPortState (startLong s (.fld p) tag) p 1
      else finishLong (startLong s (.fld p) tag) (.fld p) 0x0E 0 0
    else endCmd s (.fld p) 0x14 0 tag 0

/-- TRAIN_DONE: a training ends, well or not. A training of the module's reset belongs to no command. -/
def execTrainDone (p : Nat) (ok : Bool) (s : State) : State :=
  if portState s p ≠ 1 then s
  else
    let c := rd s (.fld p) hCTRL
    let s := bump s (.fld p) fld_TRAIN_COUNT 1
    let ok := ok && c.testBit 0
    let s := if ok then
        let s := wrFld (setPortState s p (if c.testBit 2 then 3 else 2)) (.fld p) fld_STATE 3 1 (b2n (c.testBit 1))
        wr (wr s (.fld p) fld_HB_AGE 0) (.fld p) fld_LANE_STATUS 0xFF
      else
        let q := drawNat s
        wr (condition (portDrop (setPortState q.2 p (if c.testBit 0 then 4 else 0)) p) (.fld p) 0x0E 1) (.fld p) fld_LANE_STATUS (q.1 % 256)
    let s := raise s (.fld p) 4
    let s := if busy s (.fld p) then finishLong s (.fld p) (if ok then 0 else 0x0E) 0 0 else s
    hubLets (portFlush s p)

/-- What a write of a port's CTRL does at once: MAINT set takes an UP port out of service, clear puts it back; ENABLE clear
turns it OFF with every flit that it holds (R303, R304, R320). -/
def portCtrl (s : State) (p : Nat) : State :=
  let c := rd s (.fld p) hCTRL
  if !c.testBit 0 then (if portState s p = 0 then s else setPortState (portDrop s p) p 0)
  else if portState s p = 0 then (if s.board.node.isSome then setPortState s p 1 else s)
  else if portState s p = 2 && c.testBit 2 then setPortState s p 3
  else if portState s p = 3 && !c.testBit 2 then portFlush (setPortState s p 2) p
  else s

/-- MAINT_SET: a host sets FLD.CTRL.MAINT. -/
def execMaintSet (fn p : Nat) (s : State) : State :=
  hostWrite s fn (.fld p) hCTRL fun s => portCtrl (wr s (.fld p) hCTRL (setFld (rd s (.fld p) hCTRL) 2 1 1)) p

end Sys2Proof.Machine
end

