-- ==== Sys2Proof/Machine/Image.lean ====
section
/-! DEFINITION. Machine/Image.lean: what the loader checks of a segment image (R16, R21, R40, R83, R116 to R125, R332), as lists of
findings, one for each object at fault. -/
namespace Sys2Proof.Machine

/-! ## Header and sections (R117) -/

/-- An object at fault: place of its section in the header (0 the header), image die (255 none), index, KIND, LIMIT, FOUND. -/
structure Finding where
  order : Nat
  index : Nat
  die : Nat
  kind : Nat
  limit : Nat
  found : Nat
  deriving DecidableEq, Repr

/-- A section entry: place, KIND, PLACEMENT field, OFFSET, SLEN. -/
structure SecEntry where
  order : Nat
  kind : Nat
  placement : Nat
  off : Nat
  len : Nat
  deriving DecidableEq, Repr

def hdrLength (h : List Byte) : Nat := bytesAt h 8 4
def hdrDies (h : List Byte) : Nat := bytesAt h 12 1
def hdrDepth (h : List Byte) : Nat := bytesAt h 13 1
def hdrPlacements (h : List Byte) : Nat := bytesAt h 14 1
def hdrMargin (h : List Byte) : Nat := bytesAt h 15 1
def hdrTickLen (h : List Byte) : Nat := bytesAt h 16 4
def hdrWindow (h : List Byte) : Nat := bytesAt h 20 4
def hdrModules (h : List Byte) : Nat := bytesAt h 36 1
def hdrAccMode (h : List Byte) : Nat := bytesAt h 37 1 % 4

/-- The used section entries. -/
def secEntries (h : List Byte) : List SecEntry :=
  ((List.range 12).map (fun i =>
    let o := 64 + 16 * i
    ⟨i + 1, bytesAt h o 2, bytesAt h (o + 2) 2, bytesAt h (o + 8) 4, bytesAt h (o + 12) 4⟩)).filter (·.kind != 0)

/-- The section of a kind that applies to a placement: its own, else that of placement 0. -/
def secFor (h : List Byte) (kind p : Nat) : Option SecEntry :=
  let l := (secEntries h).filter (fun e => e.kind == kind && e.len != 0)
  match l.find? (fun e => e.placement % 8 == p) with
  | some e => some e
  | none => l.find? (fun e => e.placement % 8 == 0)

/-- The place of the section of a kind, and the PLACEMENT of the records that apply. -/
def secOrder (h : List Byte) (kind p : Nat) : Nat := match secFor h kind p with | some e => e.order | none => 13
def secPlace (h : List Byte) (kind p : Nat) : Nat := match secFor h kind p with | some e => e.placement % 8 | none => 8

/-- The records that apply to a placement, with that placement in them. -/
def imageFor (h : List Byte) (im : Image) (p : Nat) : Image :=
  { progs := (im.progs.filter (·.placement == secPlace h 2 p)).map (fun r => { r with placement := p })
    tasks := (im.tasks.filter (·.placement == secPlace h 3 p)).map (fun r => { r with placement := p })
    bufs := (im.bufs.filter (·.placement == secPlace h 4 p)).map (fun r => { r with placement := p })
    streams := (im.streams.filter (·.placement == secPlace h 5 p)).map (fun r => { r with placement := p })
    gathers := (im.gathers.filter (·.placement == secPlace h 6 p)).map (fun r => { r with placement := p })
    terrs := (im.terrs.filter (·.placement == secPlace h 7 p)).map (fun r => { r with placement := p })
    ests := (im.ests.filter (·.placement == secPlace h 8 p)).map (fun r => { r with placement := p })
    classes := (im.classes.filter (·.placement == secPlace h 9 p)).map (fun r => { r with placement := p })
    counters := (im.counters.filter (·.placement == secPlace h 10 p)).map (fun r => { r with placement := p })
    gens := (im.gens.filter (·.placement == secPlace h 4 p)).map (fun r => { r with placement := p }) }

/-- Findings of the records of a section that fail a test, with the bound and the number found. -/
def badBy {α : Type} (order kind : Nat) (limit : α → Nat) (l : List α) (die found : α → Nat) (test : α → Bool) : List Finding :=
  (l.zipIdx.filter (fun e => test e.1)).map (fun e => ⟨order, e.2, die e.1, kind, limit e.1, found e.1⟩)

/-- The same with one bound. -/
def bad {α : Type} (order kind limit : Nat) (l : List α) (die found : α → Nat) (test : α → Bool) : List Finding :=
  badBy order kind (fun _ => limit) l die found test

/-- A finding in the header. -/
def badHeader (limit found : Nat) (b : Bool) : List Finding := if b then [⟨0, 0, 255, 0, limit, found⟩] else []

/-! ## The checks of a load -/

/-- What the loader works on: header, selected placement, the records that apply, the mask of each die. -/
structure Load where
  h : List Byte
  p : Nat
  im : Image
  masks : List Nat
  deriving DecidableEq, Repr

/-- Task descriptor fields that the checks read. -/
def tCore (t : TaskSec) : Nat := bytesAt t.desc 4 2 % 512
def tEntry (t : TaskSec) : Nat := bytesAt t.desc 6 2 % 4096
def tArgs (t : TaskSec) : Nat := bytesAt t.desc 8 4 % 2 ^ 22
def tSpec (t : TaskSec) : Nat := bytesAt t.desc 14 1 % 4
def tFmtc (t : TaskSec) : Nat := bytesAt t.desc 14 1 / 16
def tClass (t : TaskSec) : Nat := bytesAt t.desc 16 1 % 8
def tStage (t : TaskSec) : Nat := bytesAt t.desc 17 1 % 64
def tNsucc (t : TaskSec) : Nat := bytesAt t.desc 18 2
def tSucc (t : TaskSec) : Nat := bytesAt t.desc 24 6

/-- The values of a descriptor's reserved fields, in the order of its bytes; each is zero in a sound image. -/
def taskReserved (t : TaskSec) : List Nat :=
  let b := t.desc
  [bytesAt b 0 4, bytesAt b 4 2 / 512, bytesAt b 6 2 / 4096, bytesAt b 8 4 / 2 ^ 22, fld (bytesAt b 14 1) 2 2, bytesAt b 15 1 / 64,
    if 4 < tClass t then tClass t else 0, if tClass t = 2 then 0 else bytesAt b 16 1 / 8, bytesAt b 17 1 / 64,
    bytesAt b 20 4 / 2 ^ 22, if tNsucc t = 0 then tSucc t else 0, bytesAt b 30 1 / 16, bytesAt b 31 1, bytesAt b 36 4]

/-- Reserved bits of a successor entry. -/
def succReserved (e : W64) : List Nat :=
  let n := e.toNat
  [if 5 < fld n 0 3 then fld n 0 3 else 0, fld n 7 1, fld n 8 24, if fld n 0 3 = 5 then fld n 46 2 else 0]

def streamReserved (b : List Byte) : List Nat := [bytesAt b 6 4 / 2 ^ 31, fld (bytesAt b 13 1) 2 2, if dKind b = 3 then 3 else 0]

def gatherReserved (b : List Byte) : List Nat :=
  [bytesAt b 6 4 / 2 ^ 31, bytesAt b 10 3 / 2 ^ 23, bytesAt b 16 2 / 4096, if gGen b = 3 then 3 else 0, bytesAt b 26 1 / 16,
    fld (bytesAt b 27 3) 22 2, if dKind b = 3 then 3 else 0]

/-- The first reserved field that is not zero, or zero. -/
def firstSet (l : List Nat) : Nat := (l.find? (· != 0)).getD 0

/-- Whether a format code is 0xD or 0xE. -/
def fmtVoid (f : Nat) : Bool := f == 13 || f == 14

/-! ## Program words (R83, R122, R123) -/

/-- The words that may follow word i. -/
def wordNext (i w : Nat) : List Nat :=
  let op := opcodeOf w
  let t := (i : Int) + sext (fld w 0 16) 16
  let goal := if 0 ≤ t ∧ t < 4096 then [t.toNat] else []
  let next := if i + 1 < 4096 then [i + 1] else []
  if op = 0x09 then goal else if op = 0x0A ∨ op = 0x0B ∨ op = 0x0C then next ++ goal
  else if op = 0x0D ∨ op = 0x50 then [] else next

def wordAt (ws : List W64) (i : Nat) : Nat := ((ws[i]?).getD 0).toNat

/-- The reachable words from a list of entry points. -/
def reachFrom (ws : List W64) : Nat → List Nat → List Nat → List Nat
  | 0, _, seen => seen
  | _, [], seen => seen
  | fuel + 1, i :: todo, seen =>
    if seen.contains i then reachFrom ws fuel todo seen else reachFrom ws fuel (wordNext i (wordAt ws i) ++ todo) (i :: seen)

/-- A list of numbers with one put in its place. -/
def putInOrder (n : Nat) : List Nat → List Nat
  | [] => [n]
  | m :: l => if n ≤ m then n :: m :: l else m :: putInOrder n l

/-- The reachable words in rising order. -/
def reach (ws : List W64) (entries : List Nat) : List Nat :=
  (reachFrom ws 12288 (entries.filter (· < 4096)) []).foldr putInOrder []

/-- A word names format code 0xD or 0xE. -/
def wordFmtVoid (w : Nat) : Bool :=
  let op := opcodeOf w
  ((op == 0x20 || op == 0x21) && fmtVoid (fld w 46 4)) || (op == 0x17 && fmtVoid (fld w 41 4))

/-- The static fields of a word that are out of range (R122), each with its bound and the value found: Kv, N, LV, G, OFMT, HOLD, and
MODE against ACC_MODE. -/
def staticFaults (acc w : Nat) : List (Nat × Nat) :=
  let op := opcodeOf w
  let f := fld w 46 4
  let when := fun (b : Bool) (limit found : Nat) => if b then [(limit, found)] else []
  let kv := fun n => when ((fmtArray f || f == 15) && decide (kvMax f < n + 1)) (kvMax f) (n + 1)
  let mode := b2n (w.testBit 38)
  if op = 0x20 then kv (fld w 34 6)
  else if op = 0x21 then when (fld w 37 9 == 0 || decide (256 < fld w 37 9)) 256 (fld w 37 9) ++ kv (fld w 26 6)
  else if op = 0x22 then
    (if mode = 1 then when (fld w 36 2 == 3) 2 3 else when (decide (fld w 32 4 = 0 ∨ 12 < fld w 32 4)) 12 (fld w 32 4))
      ++ when (acc + mode == 1) acc mode
  else if op = 0x23 then
    when (fld w 31 2 == 3) 2 3 ++ when (w.testBit 30 && fld w 31 2 != 0) 0 (fld w 31 2) ++ when (!w.testBit 30 && w.testBit 24) 0 1
  else []

/-- A word with the fields that other checks judge made legal. -/
def wordMended (w : Nat) : Nat :=
  let op := opcodeOf w
  let f := if fmtVoid (fld w 46 4) then 2 else fld w 46 4
  if op = 0x20 then setFld (setFld w 46 4 f) 34 6 0
  else if op = 0x21 then
    let w := setFld (setFld w 46 4 f) 26 6 0
    if fld w 37 9 = 0 ∨ 256 < fld w 37 9 then setFld w 37 9 1 else w
  else if op = 0x22 then
    (if w.testBit 38 then (if fld w 36 2 = 3 then setFld w 36 2 0 else w)
      else if fld w 32 4 = 0 then setFld w 32 4 1 else if 12 < fld w 32 4 then setFld w 32 4 12 else w)
  else if op = 0x23 then
    let w := if w.testBit 30 ∨ fld w 31 2 = 3 then setFld w 31 2 0 else w
    if w.testBit 30 then w else setFld w 24 1 0
  else if op = 0x17 && fmtVoid (fld w 41 4) then setFld w 41 4 2
  else w

/-- The tasks of a program's core. -/
def progTasks (x : Load) (p : ProgSec) : List TaskSec := x.im.tasks.filter (fun t => t.die == p.die && tCore t == p.core)

/-- The words of a program that its entry points reach. -/
def progReach (x : Load) (p : ProgSec) : List Nat := reach p.words (p.entries ++ (progTasks x p).map tEntry)

/-- Programs with a reachable word that a test finds at fault, with the bound and the value that it gives for the first one. -/
def badWordsBy (x : Load) (entries : ProgSec → List Nat) (test : Nat → Nat → Option (Nat × Nat)) : List Finding :=
  x.im.progs.zipIdx.filterMap (fun e =>
    ((reach e.1.words (entries e.1)).findSome? (fun i => test i (wordAt e.1.words i))).map (fun r =>
      ⟨secOrder x.h 2 x.p, e.2, e.1.die, 2, r.1, r.2⟩))

/-- The same of a test without a bound; FOUND is the word's index. -/
def badWordsOf (x : Load) (entries : ProgSec → List Nat) (test : Nat → Bool) : List Finding :=
  badWordsBy x entries (fun i w => if test w then some (0, i) else none)

/-- The first void format code of a word. -/
def voidCode (w : Nat) : Option (Nat × Nat) :=
  if wordFmtVoid w then some (0, if opcodeOf w = 0x17 then fld w 41 4 else fld w 46 4) else none

def allEntries (x : Load) (p : ProgSec) : List Nat := p.entries ++ (progTasks x p).map tEntry
def narrowEntries (x : Load) (p : ProgSec) : List Nat := ((progTasks x p).filter (fun t => isNarrow (tSpec t))).map tEntry
def otherEntries (x : Load) (p : ProgSec) : List Nat := ((progTasks x p).filter (fun t => !isNarrow (tSpec t))).map tEntry

/-! ## What every path of a program fixes (R22, R40, R42, R64, R65; log entry 60) -/

/-- A group as the loader knows it: Nt, the chunk limit (0 none), chunks so far (none: not fixed). -/
structure FlowGroup where
  nt : Nat
  limit : Nat
  chunks : Option Nat
  deriving DecidableEq, Repr

/-- Before a word: latched format code, retained vectors, groups (outer none: not fixed; inner none: closed). -/
structure Flow where
  latch : Option Nat
  kept : Option Nat
  groups : List (Option (Option FlowGroup))
  deriving DecidableEq, Repr

def Flow.unknown : Flow := ⟨none, none, List.replicate 8 none⟩

def joinGroup (a b : Option (Option FlowGroup)) : Option (Option FlowGroup) :=
  if a = b then a
  else match a, b with
    | some (some x), some (some y) => if x.nt = y.nt ∧ x.limit = y.limit then some (some { x with chunks := none }) else none
    | _, _ => none

/-- Latched formats where two paths meet: fixed formats of one width class stay one of them (R22 compares classes). -/
def joinLatch (a b : Option Nat) : Option Nat :=
  if a = b then a
  else match a, b with
    | some x, some y => if x ≠ 15 ∧ y ≠ 15 ∧ fmtClass x = fmtClass y then some x else none
    | _, _ => none

def joinFlow (a b : Flow) : Flow :=
  ⟨joinLatch a.latch b.latch, if a.kept = b.kept then a.kept else none, List.zipWith joinGroup a.groups b.groups⟩

/-- START and CEILING of a NARROW task's class. -/
def narrowClass (x : Load) (t : TaskSec) : Nat × Nat :=
  match x.im.classes.reverse.find? (·.index == tFmtc t) with
  | some c => (clsStart c.a.toNat, clsCeiling c.a.toNat)
  | none => (0, 0)

/-- The ways into a program: each NARROW task by its entry with its class, everything else without one. -/
def flowStarts (x : Load) (p : ProgSec) : List (List (Nat × Nat) × List Nat) :=
  ((progTasks x p).filter (fun t => isNarrow (tSpec t))).map (fun t => ([narrowClass x t], [tEntry t]))
    ++ [([], p.entries ++ otherEntries x p)]

/-- Sub-passes of a TASK operand at CEILING (R42). -/
def ceilPasses (cl : List (Nat × Nat)) : Nat := maxOf (cl.map (fun c => if (ladder c.2).isSome then passes 15 c.2 else 1))

/-- The width classes that a TASK operand can reach. -/
def taskClasses (cl : List (Nat × Nat)) : List Nat :=
  cl.flatMap (fun c => match ladder c.1, ladder c.2 with
    | some a, some b => ([9, 8, 6, 2].filter (fun f => match ladder f with | some n => decide (a ≤ n ∧ n ≤ b) | none => false)).map fmtClass
    | _, _ => [])

/-- Findings of one word: 1 BASIN_LIMIT, 2 FEEDER_LIMIT, 3 LV_SHORT, 4 FMT_MISMATCH, with limit and number found; and the flow
after it. -/
def flowWord (cl : List (Nat × Nat)) (w : Nat) (s : Flow) : List (Nat × Nat × Nat) × Flow :=
  let op := opcodeOf w
  let g := fld w 53 3
  if op = 0x20 then ([], { s with latch := some (fld w 46 4) })
  else if op = 0x22 then
    let lv := if w.testBit 38 then 0 else 2 ^ fld w 32 4 - 1
    let gs := lset s.groups g (some (some ⟨fld w 45 8 + 1, lv, some 0⟩))
    let rows := sumOf (gs.map (fun e => match e with | some (some q) => q.nt | _ => 0))
    (if 256 < rows then [(1, 16384, 64 * rows)] else [], { s with groups := gs })
  else if op = 0x23 then ([], { s with groups := lset s.groups g (some none) })
  else if op = 0x21 then
    let g := fld w 34 3
    let f := fld w 46 4
    let p := if f = 15 then max 1 (ceilPasses cl) else 1
    let mis := match s.latch with
      | none => false
      | some l =>
        if l = 15 ∧ f = 15 then false
        else if l ≠ 15 ∧ f ≠ 15 then fmtClass l != fmtClass f
        else (taskClasses cl).any (fun c => c != fmtClass (if l = 15 then f else l))
    let need := fld w 37 9 * p
    let all := need + s.kept.getD 0
    let gr := match s.groups[g]? with | some (some (some q)) => some q | _ => none
    let n := match gr with | some q => q.chunks.map (· + p) | none => none
    let short := match gr, n with | some q, some n => decide (q.limit ≠ 0 ∧ q.limit < n) | _, _ => false
    let gs := match gr with | some q => lset s.groups g (some (some { q with chunks := n })) | none => s.groups
    let kept := if w.testBit 33 then (if w.testBit 32 then s.kept else some 0) else some (if w.testBit 32 then need else 0)
    ((if !w.testBit 33 && decide (256 < all) then [(2, 256, all)] else [])
        ++ (if short then [(3, (gr.map (·.limit)).getD 0, n.getD 0)] else []) ++ (if mis then [(4, 0, f)] else []),
      { s with kept := kept, groups := gs })
  else ([], s)

/-- Flows into the words after word i: a CALL's return point and a YIELD may see another task's work. -/
def flowNext (i w : Nat) (s : Flow) : List (Nat × Flow) :=
  let op := opcodeOf w
  (wordNext i w).map (fun j =>
    if op = 0x0C ∧ j = i + 1 then (j, Flow.unknown) else if op = 0x51 then (j, { s with latch := none, kept := none }) else (j, s))

/-- The flow before every reachable word. -/
def flowRun (cl : List (Nat × Nat)) (ws : List W64) : Nat → List (Nat × Flow) → Tab Flow → Tab Flow
  | 0, _, t => t
  | _, [], t => t
  | fuel + 1, (i, s) :: todo, t =>
    let n := match tfind t i with | some o => joinFlow o s | none => s
    if tfind t i = some n then flowRun cl ws fuel todo t
    else
      let w := wordAt ws i
      flowRun cl ws fuel (flowNext i w (flowWord cl w n).2 ++ todo) (tput t i n)

/-- Findings of a kind in every program, over every way into it. -/
def badFlow (x : Load) (what : Nat) : List Finding :=
  x.im.progs.zipIdx.flatMap (fun e => (flowStarts x e.1).flatMap (fun q =>
    let t := flowRun q.1 e.1.words 200000 (q.2.map (fun i => (i, Flow.unknown))) []
    (t.flatMap (fun r => (flowWord q.1 (wordAt e.1.words r.1) r.2).1)).filterMap (fun r =>
      if r.1 = what then some ⟨secOrder x.h 2 x.p, e.2, e.1.die, 2, r.2.1, r.2.2⟩ else none)))

/-! ## Buffers (R80, R122, R173) -/

/-- Whether a buffer lies in pages. -/
def paged (b : BufSec) : Bool := b.kind == 3 || b.kind == 5

/-- Bytes of data SRAM that a core buffer takes: a shadow region both halves. -/
def bufExtent (b : BufSec) : Nat := if b.kind = 1 then 2 * b.length else b.length

/-- Core buffers, with their index in the section. -/
def coreBufs (x : Load) : List (BufSec × Nat) := x.im.bufs.zipIdx.filter (fun e => !paged e.1)

/-- Whether a core range leaves data SRAM. -/
def outData (a n : Nat) : Bool := decide (a < 0x8000 ∨ 0x280000 < a + n)

/-- Whether a buffer breaks SRAM_OVERFLOW: out of data SRAM, over an earlier one of another alias group, in a frame of the
tier-0 pool, or a second DEFER region. -/
def bufOverflow (s : State) (k : Nat) (x : Load) (e : BufSec × Nat) : Bool :=
  let b := e.1
  let before := (coreBufs x).filter (fun q => decide (q.2 < e.2) && q.1.die == b.die && q.1.core == b.core)
  outData b.base (bufExtent b)
    || before.any (fun q => overlap (q.1.base, bufExtent q.1) (b.base, bufExtent b) && !(q.1.alias_ == b.alias_ && b.alias_ != 0))
    || (b.kind == 2 && before.any (·.1.kind == 2))
    || (match coreOf s (homeDie s k + b.die) b.core with
        | some key => (getSlot s k).pools.any (fun q => q.tier == 0 &&
            overlap (q.base * 4096, q.n * 4096) (coreAddr key b.base, max 1 (bufExtent b)))
        | none => false)

/-- Pages of the paged buffers. -/
def pagedPages (x : Load) : List Nat := ((x.im.bufs.filter paged).flatMap (fun b => pagesIn b.base b.length)).eraseDups

/-- Whether a range of device virtual addresses is mapped. -/
def allMapped (s : State) (k va n : Nat) : Bool := (pagesIn va n).all (fun v => pteValid (pteOf s k v))

/-- The physical address of a paged buffer's first page: in tier 0 of the site that carries its logical core (R13). -/
def bufPhys (s : State) (k : Nat) (b : BufSec) : Option Nat :=
  if b.phys / 2 ^ 46 = 0 then
    (coreOf s (homeDie s k + fld b.phys 43 3 % diesPer s) (fld b.phys 34 9)).map (fun key => coreAddr key (b.phys % 2 ^ 34))
  else some b.phys

/-- A paged buffer that the loader cannot place, or a home that is not mapped: a page outside the regions of the CURRENT job,
or a place outside the partition (log entry 61). -/
def bufUnplaced (s : State) (k : Nat) (b : BufSec) : Bool :=
  (paged b && (pagesIn b.base b.length).zipIdx.any (fun e =>
    jobOfVpn (getSlot s k) e.1 != (getSlot s k).current
      || (!pteValid (pteOf s k e.1) && !(match bufPhys s k b with
        | some a => decide (a % 4096 = 0) && ownPhys s k (a + pageSize * e.2) pageSize && !inTables s k (a + pageSize * e.2) pageSize
        | none => false))))
    || (match b.home with | some h => !allMapped s k h b.length | none => false)

/-- A range on a stack of the partition, aligned. -/
def ownTier1 (s : State) (k a n align : Nat) : Bool := a / 2 ^ 46 == 1 && a % align == 0 && ownPhys s k a n

/-- Bytes that whole TASK groups of the CEILING format of a class take (R40, R42). -/
def taskNeeds (x : Load) (q : TaskBuf) : Nat :=
  match x.im.classes.reverse.find? (·.index == q.cls) with
  | some c => cdiv q.count 64 * ((if q.elems then 8 * fmtBits (clsCeiling c.a.toNat) else 0) + (if q.scales then 2 else 0))
  | none => 0

/-- The core of a semaphore that a successor entry or a completion signals (R159, R227). -/
def succSem (e : W64) : Option Nat := if fld e.toNat 0 3 = 5 then some (fld e.toNat 32 9) else none
def doneSem (b : List Byte) : Option Nat := if dKind b = 2 then some (dTarget b % 512) else none

/-- Whether a task's successor list lies in a page that is neither mapped nor made by a buffer of the image (log entry 61). -/
def succUnplaced (s : State) (k : Nat) (im : Image) (t : TaskSec) : Bool :=
  (pagesIn (tSucc t) (8 * tNsucc t)).any (fun v =>
    !pteValid (pteOf s k v) && !im.bufs.any (fun b => paged b && (pagesIn b.base b.length).contains v))

/-- The pages of the image that the job's quota covers: pinned ones of tiers 1 and 2 (R205). -/
def pinnedPages (s : State) (k : Nat) (im : Image) : List Nat :=
  ((im.bufs.filter (·.kind == 5)).flatMap (fun b => (pagesIn b.base b.length).filter (fun v =>
    (if pteValid (pteOf s k v) then pteTier (pteOf s k v) else b.phys / 2 ^ 46) != 0))).eraseDups

/-- What a gather descriptor asks of the SRAM of its core: ranges, and addresses with the alignment that each has to have. -/
def gatherRanges (b : List Byte) : List (Nat × Nat) :=
  [(dNear b, gCount b * gRow b), (gIdx b, gCount b * gWidth b)] ++ (if gGen b = 0 then [] else [(gRec b, 4)])
def gatherAligns (b : List Byte) : List (Nat × Nat) := [(64, dNear b), (gWidth b, gIdx b), (4, gRec b)]

/-- The first address that lacks its alignment, as alignment and address. -/
def misaligned (l : List (Nat × Nat)) : Option (Nat × Nat) := l.find? (fun q => q.2 % q.1 != 0)

/-- Records of a section for which a test answers a bound and a value. -/
def badSome {α : Type} (order kind : Nat) (l : List α) (die : α → Nat) (test : α → Option (Nat × Nat)) : List Finding :=
  l.zipIdx.filterMap (fun e => (test e.1).map (fun r => ⟨order, e.2, die e.1, kind, r.1, r.2⟩))

/-- The bound that a buffer's place in core SRAM breaks: 64 B, and 1 KiB for a shadow, DEFER or hold area. -/
def bufAligns (b : BufSec) : List (Nat × Nat) :=
  match b.kind with
  | 0 => [(64, b.base)]
  | 1 | 2 => [(1024, b.base), (1024, b.length)]
  | 4 => [(1024, b.base)]
  | _ => []

/-! ## The list of checks -/

/-- The sample modulus of an image (R332). -/
def modulusOf (h : List Byte) : Nat :=
  let per := 2 * hdrDepth h + 2
  if bytesAt h 40 4 = 0 then per * (0xFFFFFFF0 / per) else bytesAt h 40 4

/-- The streams that successor entries arm, with their arms. -/
def armedStreams (x : Load) : List Nat :=
  x.im.tasks.flatMap (fun t => t.succ.filterMap (fun e =>
    if fld e.toNat 0 3 = 2 then (x.im.streams.find? (fun q => q.die == t.die && q.index == fld e.toNat 32 10)).map (fun q => sArms q.bytes)
    else none))

/-- The checks of the header and the sections, for the placement selected if one is, by the records that apply to it: sub-code and
findings. -/
def headChecks (s : State) (k len : Nat) (h : List Byte) (pl : Option Nat) (im : Image) : List (Nat × List Finding) :=
  let l := secEntries h
  let dup := fun (e : SecEntry) => l.any (fun q => decide (q.order < e.order) && overlap (q.off, q.len) (e.off, e.len))
  let req := [1, 2, 3, 4, 8].filter (fun n => match pl with
    | some q => (secFor h n q).isNone
    | none => !l.any (fun e => e.kind == n && e.len != 0))
  let p := fun (n : Nat) => (l.find? (·.kind == n)).map (·.order)
  let dieBad := fun (n : Nat) (ds : List Nat) => bad ((p n).getD 13) n (hdrDies h) ds id id (fun d => decide (hdrDies h ≤ d))
  [ (0x01, badHeader len (hdrLength h) (bytesAt h 0 4 != 0x4A385347 || bytesAt h 4 2 != 1 || hdrLength h != len || decide (len < 256)
      || hdrPlacements h == 0 || decide (5 < hdrPlacements h) || decide (64 < hdrDepth h))),
    (0x02, (l.filter (fun e => e.len != 0 && (e.off % 64 != 0 || decide (e.off < 256 ∨ hdrLength h < e.off + e.len) || dup e
        || (e.kind == 1 && decide (e.len < 45 * hdrDies h))))).map (fun e => ⟨e.order, 0, 255, e.kind, hdrLength h, e.off + e.len⟩)
      ++ req.map (fun n => ⟨13, 0, 255, n, 0, 0⟩)
      ++ dieBad 2 (im.progs.map (·.die)) ++ dieBad 3 (im.tasks.map (·.die)) ++ dieBad 4 ((im.bufs.filter (!paged ·)).map (·.die))
      ++ dieBad 5 (im.streams.map (·.die)) ++ dieBad 6 (im.gathers.map (·.die)) ++ dieBad 8 (im.ests.map (·.die))
      ++ dieBad 10 (im.counters.map (·.die))
      ++ bad ((p 3).getD 13) 3 0 im.tasks (·.die) (fun t => tSucc t % 2 ^ 32) (succUnplaced s k im)
      ++ bad ((p 4).getD 13) 4 0 im.bufs (fun b => b.die) (fun b => b.base % 2 ^ 32) (bufUnplaced s k)
      ++ bad ((p 4).getD 13) 4 0 im.gens (fun _ => 255) (fun g => g.table % 2 ^ 32) (fun g => !ownTier1 s k g.table (2 * g.pages) 64)),
    (0x03, badHeader (diesPer s) (hdrDies h) (hdrDies h != diesPer s) ++ badHeader 8 (hdrModules h) (hdrModules h == 0 || decide (8 < hdrModules h))),
    (0x04, (let r := firstSet ([bytesAt h 6 2 / 4, if 3 ≤ bytesAt h 37 1 then bytesAt h 37 1 else 0, bytesAt h 38 2]
                ++ (List.range 5).map (fun i => bytesAt h (44 + 4 * i) 4))
            badHeader 0 r (r != 0))
      ++ l.filterMap (fun e =>
          let r := firstSet [if 10 < e.kind then e.kind else 0, if 4 < e.placement then e.placement else 0,
            bytesAt h (64 + 16 * (e.order - 1) + 4) 4]
          if r = 0 then none else some ⟨e.order, 0, 255, e.kind, 0, r⟩)) ]

/-- Whether a placement mask fits: no core that it names is unmapped (R16, R118). -/
def maskFits (s : State) (k : Nat) (masks : List Nat) : Bool :=
  masks.zipIdx.all (fun e => (List.range 360).all (fun c => !e.1.testBit c || (siteOf s (homeDie s k + e.2) c).isSome))

/-- Whether a core of a die lies outside the placement. -/
def outside (x : Load) (die core : Nat) : Bool := decide (359 < core) || !((x.masks[die]?).getD 0).testBit core

/-- The length of the program of a task's core, 0 without one. -/
def progLen (x : Load) (t : TaskSec) : Nat :=
  match x.im.progs.find? (fun p => p.die == t.die && p.core == tCore t) with | some p => p.words.length | none => 0

/-- The checks of the records that apply, from RESERVED_SET on. -/
def bodyChecks (s : State) (k : Nat) (x : Load) : List (Nat × List Finding) :=
  let o := fun n => secOrder x.h n x.p
  let im := x.im
  let two := fun (l : List Nat) (n : Nat) => (List.range (hdrDies x.h)).filter (fun d => decide (n < (l.filter (· == d)).length))
  let d := hdrDepth x.h
  let j := ((getSlot s k).current).getD 0
  let total := (pinnedPages s k im).length
  let m := modulusOf x.h
  let mods := (2 * d + 2) :: armedStreams x
  let taskVoid := fun (t : TaskSec) => firstSet (taskReserved t ++ t.succ.flatMap succReserved ++ [if t.succ.length = tNsucc t then 0 else tNsucc t])
  [ (0x04, bad (o 3) 3 0 im.tasks (·.die) taskVoid (fun t => taskVoid t != 0)
      ++ bad (o 5) 5 0 im.streams (·.die) (fun q => firstSet (streamReserved q.bytes)) (fun q => firstSet (streamReserved q.bytes) != 0)
      ++ bad (o 6) 6 0 im.gathers (·.die) (fun q => firstSet (gatherReserved q.bytes)) (fun q => firstSet (gatherReserved q.bytes) != 0)
      ++ bad (o 9) 9 0 im.classes (fun _ => 255) (fun c => c.a.toNat) (fun c =>
          fmtVoid (clsStart c.a.toNat) || fmtVoid (clsCeiling c.a.toNat) || fw c.a 9 7 != 0)
      ++ badWordsBy x (allEntries x) (fun _ => voidCode)),
    (0x09, bad (o 2) 2 359 im.progs (·.die) (·.core) (fun p => outside x p.die p.core)
      ++ bad (o 3) 3 359 im.tasks (·.die) tCore (fun t => outside x t.die (tCore t))
      ++ bad (o 4) 4 359 im.bufs (·.die) (·.core) (fun b => !paged b && outside x b.die b.core)
      ++ bad (o 5) 5 359 im.streams (·.die) (fun q => dCore q.bytes) (fun q => outside x q.die (dCore q.bytes))
      ++ bad (o 6) 6 359 im.gathers (·.die) (fun q => dCore q.bytes) (fun q => outside x q.die (dCore q.bytes))
      ++ bad (o 8) 8 359 im.ests (·.die) (·.core) (fun e => outside x e.die e.core)
      ++ badSome (o 3) 3 im.tasks (·.die) (fun t => ((t.succ.filterMap succSem).find? (outside x t.die)).map (fun c => (359, c)))
      ++ badSome (o 5) 5 im.streams (·.die) (fun q => ((doneSem q.bytes).filter (outside x q.die)).map (fun c => (359, c)))
      ++ badSome (o 6) 6 im.gathers (·.die) (fun q => ((doneSem q.bytes).filter (outside x q.die)).map (fun c => (359, c)))),
    (0x10, bad (o 2) 2 4096 im.progs (·.die) (·.words.length) (fun p => decide (4096 < p.words.length))),
    (0x11, badBy (o 2) 2 (·.words.length) im.progs (·.die) (fun p => maxOf p.entries) (fun p => p.entries.any (fun e => decide (p.words.length ≤ e)))
      ++ badBy (o 3) 3 (progLen x) im.tasks (·.die) tEntry (fun t => decide (progLen x t ≤ tEntry t))),
    (0x12, badWordsOf x (allEntries x) (fun w => !wordLegal (wordMended w))),
    (0x13, badWordsOf x (narrowEntries x) (fun w => opcodeOf w == 0x40)),
    (0x14, badWordsBy x (allEntries x) (fun _ w => (staticFaults (hdrAccMode x.h) w).head?)
      ++ badWordsBy x (otherEntries x) (fun _ w => if namesTask w then some (0, 15) else none)
      ++ bad (o 5) 5 0 im.streams (·.die) (fun q => sAhead q.bytes) (fun q => sStore q.bytes && sAhead q.bytes != 0)
      ++ bad (o 4) 4 256 im.bufs (·.die) (fun b => b.length / 1024) (fun b => (b.kind == 1 || b.kind == 2)
          && (decide (b.length < 1024 ∨ 256 * 1024 < b.length ∨ 4 ≤ b.entry)))),
    (0x18, badSome (o 4) 4 im.bufs (·.die) (fun b => misaligned (bufAligns b))
      ++ bad (o 5) 5 64 im.streams (·.die) (fun q => dNear q.bytes) (fun q => dNear q.bytes % 64 != 0)
      ++ badSome (o 6) 6 im.gathers (·.die) (fun q => misaligned (gatherAligns q.bytes))
      ++ bad (o 3) 3 64 im.tasks (·.die) tArgs (fun t => tArgs t % 64 != 0)
      ++ badSome (o 7) 7 im.terrs (fun _ => 255) (fun t => misaligned [(64, t.base), (64, t.size)])),
    (0x19, bad (o 5) 5 1024 im.streams (·.die) (fun q => dFar q.bytes % 2 ^ 32) (fun q => dFar q.bytes % 1024 != 0)
      ++ badSome (o 6) 6 im.gathers (·.die) (fun q => misaligned [(64, dFar q.bytes % 2 ^ 32), (64, gStride q.bytes)])
      ++ bad (o 3) 3 8 im.tasks (·.die) (fun t => tSucc t % 2 ^ 32) (fun t => tSucc t % 8 != 0)),
    (0x1A, badSome (o 4) 4 im.bufs (·.die) (fun b => (misaligned ((if paged b then [(65536, b.base)] else [])
        ++ (match b.home with | some h => [(65536, h)] | none => []))).map (fun q => (q.1, q.2 % 2 ^ 32)))),
    (0x20, ((coreBufs x).filter (bufOverflow s k x)).map (fun e => ⟨o 4, e.2, e.1.die, 4, 0x278000, e.1.base + bufExtent e.1⟩)
      ++ bad (o 5) 5 0x278000 im.streams (·.die) (fun q => dNear q.bytes + sTotal q.bytes) (fun q => outData (dNear q.bytes) (sTotal q.bytes))
      ++ badSome (o 6) 6 im.gathers (·.die) (fun q => ((gatherRanges q.bytes).find? (fun r => outData r.1 r.2)).map (fun r => (0x278000, r.1 + r.2)))
      ++ bad (o 7) 7 0x278000 im.terrs (fun _ => 255) (fun t => t.base + t.size) (fun t => t.size != 0 && outData t.base t.size)),
    (0x21, badFlow x 1), (0x22, badFlow x 2), (0x23, badFlow x 3),
    (0x24, (two (im.tasks.map (·.die)) 8192).map (fun e => ⟨o 3, 8192, e, 3, 8192, (im.tasks.filter (·.die == e)).length⟩)),
    (0x25, (two (im.streams.map (·.die)) 1024).map (fun e => ⟨o 5, 1024, e, 5, 1024, (im.streams.filter (·.die == e)).length⟩)
      ++ (two (im.gathers.map (·.die)) 1024).map (fun e => ⟨o 6, 1024, e, 6, 1024, (im.gathers.filter (·.die == e)).length⟩)),
    (0x26, bad (o 10) 10 255 im.counters (·.die) (·.counter) (fun c => decide (255 < c.counter))),
    (0x27, if quotaOf s k j < total then [⟨o 4, 0, 255, 4, quotaOf s k j, total⟩] else []),
    (0x28, bad (o 9) 9 0 im.classes (fun _ => 255) (fun c => c.a.toNat) (fun c => decide (15 < c.index) ||
          (match ladder (clsStart c.a.toNat), ladder (clsCeiling c.a.toNat) with | some a, some b => decide (b < a) | _, _ => false))
      ++ bad (o 3) 3 0 im.tasks (·.die) tFmtc (fun t => isNarrow (tSpec t) &&
          (match im.classes.reverse.find? (·.index == tFmtc t) with
           | some c => (ladder (clsStart c.a.toNat)).isNone || (ladder (clsCeiling c.a.toNat)).isNone
           | none => true))),
    (0x29, badFlow x 4),
    (0x2A, badSome (o 4) 4 im.bufs (·.die) (fun b => match b.task with
      | some q => if b.length < taskNeeds x q then some (taskNeeds x q, b.length) else none
      | none => none)),
    (0x30, bad (o 2) 2 1 im.progs (·.die) (fun _ => 0) (fun p => p.extents.contains 0)),
    (0x31, badHeader 1 0 (hdrWindow x.h == 0 || d == 0) ++ (if im.progs.isEmpty then [⟨o 2, 0, 255, 2, 1, 0⟩] else [])
      ++ bad (o 7) 7 0 im.terrs (fun _ => 255) (·.stash) (fun t => t.size == 0 && t.stash != 0)),
    (0x38, badHeader (if hdrTickLen x.h < 4096 then 4096 else 0x100000) (hdrTickLen x.h) (decide (hdrTickLen x.h < 4096 ∨ 0x100000 < hdrTickLen x.h))),
    (0x39, badHeader (if hdrMargin x.h < 6 then 6 else 50) (hdrMargin x.h) (decide (hdrMargin x.h < 6 ∨ 50 < hdrMargin x.h))),
    (0x3A, bad (o 8) 8 (hdrTickLen x.h) im.ests (·.die) (fun e => e.cycles + cdiv (e.cycles * hdrMargin x.h) 100) (fun e =>
        decide (hdrTickLen x.h < e.cycles + cdiv (e.cycles * hdrMargin x.h) 100))),
    (0x3B, badBy (o 7) 7 (fun t => (2 * (d - t.stage) + 1) * t.stash) im.terrs (fun _ => 255) (·.size) (fun t => decide (d ≤ t.stage ∨ t.size < (2 * (d - t.stage) + 1) * t.stash))),
    (0x3C, badHeader 0xFFFFFFF0 m (decide (0xFFFFFFF0 < m) || mods.any (fun n => m % n != 0))) ]

/-- The finding with the lowest index in the image (R120). -/
def leastFinding (l : List Finding) : Option Finding :=
  l.foldl (fun b f => match b with
    | none => some f
    | some a => if f.order < a.order ∨ (f.order = a.order ∧ f.index < a.index) then some f else some a) none

/-- The failing check with the lowest sub-code. -/
def firstFailure (l : List (Nat × List Finding)) : Option (Nat × Finding) :=
  l.findSome? (fun c => (leastFinding c.2).map (fun f => (c.1, f)))

/-- The load report (R121). -/
def loadReport (sub placement epoch : Nat) (f : Finding) : List Byte :=
  toBytes 1 sub ++ toBytes 1 placement ++ toBytes 2 f.kind ++ toBytes 4 f.index ++ toBytes 1 f.die ++ toBytes 3 0
    ++ toBytes 4 f.limit ++ toBytes 4 f.found ++ toBytes 1 epoch ++ List.replicate 43 0

end Sys2Proof.Machine
end

