-- ==== Sys2Proof/Machine/Load.lean ====
section
/-! DEFINITION. Machine/Load.lean: LOAD (R119 to R126, R147 to R152, R207): the verdict, the laying down of an image, the start.
Each meaning answers a next state. -/
namespace Sys2Proof.Machine

/-! ## What a LOAD clears (R149) -/

/-- A core drops every token and queue entry that it holds. -/
def clearCore (k : Nat) (s : State) : State :=
  let c := getCore s k
  let ctxs := (match c.run with | some r => [r.ctx] | none => []) ++ c.away.map (·.ctx)
  let s := each ctxs (fun i s => coreDiscard s k i) s
  let c := getCore s k
  setCore s k { c with run := none, wait := .none, stall := 0, halted := false, queue := [], retained := none, sendq := [], sigs := [], releasing := [],
                       deferred := [], away := [], holds := [], busy := [], waits := [] }

/-- Every token and queue entry in a slot's own dies is discarded. -/
def clearSlot (s : State) (k : Nat) : State :=
  let mine := fun (e : End) => e.mod == moduleNo s && decide (e.die < 8) && slotOf s e.die == k
  let s := { s with net := s.net.filter (fun f => !(f.pslot == k || mine f.tok.dest || mine f.tok.src)) }
  each (diesOf s k) (fun d s => each (dieCores s d) (fun c s => faultBit (clearCore c s) (corPage c) false) s) s

/-! ## Laying an image down (R126, step 2) -/

/-- A page of a paged buffer: its entry is made new where the page is not mapped yet, PINNED for weights, terraces and program
stores; COW stays as it is. -/
def pinPage (k phys : Nat) (pin : Bool) (e : Nat × Nat) (s : State) : State :=
  let old := pteOf s k e.1
  if pteValid old then (if pin then setPte s k e.1 (setFld old 5 1 1) else s)
  else setPte s k e.1 (pteAt (1 + 2 + 8 + 32 * b2n pin) (phys / 4096 + 16 * e.2) 16 false)

/-- Pages of device virtual addresses that a LOAD writes. -/
def loadPages (im : Image) : List Nat :=
  (im.bufs.filter (fun b => paged b && (b.home.isSome || !b.contents.isEmpty))).flatMap (fun b => pagesIn b.base b.length)
    ++ im.tasks.flatMap (fun t => pagesIn (tSucc t) (8 * tNsucc t))

/-- The copier takes the pages under COW that a LOAD writes. -/
def loadCow (s : State) (k : Nat) (l : List Nat) : State :=
  each l (fun v s => if pteCow (pteOf s k v) && ckPhase s k == 3 then execCowCopy k (cowStall s k v 72 (v * pageSize)) else s) s

/-- Writes bytes at a device virtual address for the loader, which codes every page of tiers 1 and 2 that it writes (R199): a page that
is not mapped is passed over. -/
def loadWrite (s : State) (k va : Nat) (bs : List Byte) (bad : List Nat) : State :=
  let d := homeDie s k
  if bs.isEmpty || !allMapped s k va bs.length then s
  else vaWriteBy (fun vpn off part b s =>
      if part.length = pageSize then wholeWrite s k d vpn part b else mergeWrite s k d vpn off part b)
    (settleTransit s k va bs.length) k d .window va bs bad

/-- Reads a home. -/
def readHome (s : State) (k va n : Nat) : State × List Byte × List Nat :=
  vaReadOk (settleTransit s k va n) k (homeDie s k) .window va n

/-- The page table entries of a buffer. -/
def layPages (k : Nat) (b : BufSec) (s : State) : State :=
  if paged b then each (pagesIn b.base b.length).zipIdx (pinPage k ((bufPhys s k b).getD 0) (b.kind == 5)) s else s

/-- One buffer: contents or home. -/
def layBuffer (k : Nat) (b : BufSec) (s : State) : State :=
  let r := match b.home with
    | some h => readHome s k h b.length
    | none => (s, b.contents, [])
  if paged b then loadWrite r.1 k b.base r.2.1 (r.2.2.map (· - b.home.getD 0 / 8))
  else
    match coreOf s (homeDie s k + b.die) b.core with
    | some key => storePoisoned r.1 (coreAddr key b.base) r.2.1 (r.2.2.map (· - b.home.getD 0 / 8))
    | none => r.1

/-- The shadow table of a core from its regions. -/
def shadowsOf (l : List BufSec) : Tab Shadow :=
  l.foldl (fun t b => if b.kind = 1 ∨ b.kind = 2 then tput t b.entry ⟨b.base / 1024, b.length / 1024 - 1, b.kind, 0, 0, none⟩ else t) []

/-- A core of the placement: program, shadow table, terrace. -/
def layCore (s : State) (d : Nat) (im : Image) (n core : Nat) : State :=
  match coreOf s d core with
  | none => s
  | some key =>
    let s := match im.progs.find? (fun p => p.die == n && p.core == core) with
      | some p => store s (coreAddr key 0) (p.words.flatMap (fun w => toBytes 8 w.toNat))
      | none => s
    let c := getCore s key
    let stages := (im.tasks.filter (fun t => t.die == n && tCore t == core)).map tStage
    let terr := match im.terrs.find? (fun t => stages.contains t.stage) with
      | some t => ⟨t.base, t.size, t.stash, t.base, []⟩
      | none => Terrace.none
    setCore s key { c with shadows := shadowsOf (im.bufs.filter (fun b => b.die == n && b.core == core)), terr := terr,
                           highs := [], amaxSh := [] }

/-- The contexts of a die from its task graph. -/
def layTasks (s : State) (k d n : Nat) (im : Image) : State :=
  let l := im.tasks.filter (·.die == n)
  let ctxs := l.zipIdx.map (fun e => (e.2, ctxFrom (e.2 + 8192 * n) e.1.desc))
  let x := getDie s d
  let s := setDie s d { x with ctxs := ctxs, loaded := l.length, early := [], submits := [], retain := [], updates := [], started := false,
                               doneSent := false, missed := [], refresh := [] }
  each l (fun t s => loadWrite s k (tSucc t) (t.succ.flatMap (fun e => toBytes 8 e.toNat)) []) s

/-- Format classes, seed, descriptors, counters and generation registers of a die. -/
def layDie (s : State) (k d n : Nat) (im : Image) (seed : Nat) : State :=
  let s := each im.classes (fun c s => wr (wr s (.tke d) (tke_FMT_CLASS_n_A + 8 * c.index) c.a.toNat) (.tke d)
    (tke_FMT_CLASS_n_A + 8 * c.index + 4) c.b.toNat) s
  let s := wr (wr s (.tke d) tke_SR_SEED_LO (seed % 2 ^ 32)) (.tke d) tke_SR_SEED_HI (seed / 2 ^ 32 % 2 ^ 32)
  let s := layTasks s k d n im
  let desc := fun (l : List DescSec) => l.foldl (fun t q => if q.die = n then tput t q.index { SDesc.none with bytes := q.bytes } else t) []
  let x := getDie s d
  let s := setDie s d { x with streams := desc im.streams, gathers := desc im.gathers, firstOut := [] }
  let s := wrFld (wrFld s (.stm d) hCTRL 0 1 1) (.gch d) hCTRL 0 1 1
  let s := each (im.counters.filter (·.die == n)) (fun c s =>
    let o := wkcOff c.counter
    let p := wkcPage d c.counter
    wr (wr (wr (wr s p (wkc_VALUE_m + o) c.value.toNat) p (wkc_LIMIT_m + o) c.limit.toNat) p (wkc_BASE_m + o) c.base.toNat) p
      (wkc_CFG_m + o) c.cfg.toNat) s
  let s := match im.gens.head? with
    | some g =>
      let s := wr (wr (wr s (.gch d) gch_GEN_VA_LO (g.va % 2 ^ 32)) (.gch d) gch_GEN_VA_HI (g.va / 2 ^ 32 % 65536)) (.gch d) gch_GEN_PAGES (g.pages % 2 ^ 24)
      wr (wr s (.gch d) gch_GEN_TBL_LO (g.table % 2 ^ 32)) (.gch d) gch_GEN_TBL_HI (g.table / 2 ^ 32 % 65536)
    | none => s
  endGatherEpoch d (each (List.range 360) (fun c s => layCore s d im n c) s)

/-- Step 2 of R126. -/
def layDown (s : State) (k : Nat) (x : Load) (seed : Nat) : State :=
  let h := x.h
  let s := enableDies (setEpoch s k (epochOf s k + 1)) k false
  let s := each x.im.bufs (layPages k) (clearSlot s k)
  let s := each (diesOf s k) (fun d s => layDie s k d (imageDie s d) x.im seed) s
  let s := each x.im.bufs (layBuffer k) s
  let s := each x.im.gens (fun g s => physWrite s g.table ((List.range g.pages).flatMap (fun i => toBytes 2 (g.values.getD i 0))) []) s
  let static := !(diesPer s ≤ 2 && hdrModules h == 1)
  let s := wrFld s (homePgt s k) hCTRL 1 1 (b2n static)
  let s := wr s (.ckp k) ckp_SAMPLE_WRAP (modulusOf h)
  let s := wr (wr (wr s (.tckG k) tck_TICK_LEN (hdrTickLen h)) (.tckG k) tck_WINDOW (hdrWindow h)) (.tckG k) tck_DEPTH (hdrDepth h)
  let s := wr (wr (wr (setTickNo s k 0) (.tckG k) tck_WINDOW_COUNT 0) (.tckG k) tck_WINDOW_TICK 0) (.tckG k) tck_PHASE 1
  let s := faultBit (setTick s k TickSt.reset) (.tckG k) false
  let s := each (diesOf s k) (fun d s => wrFld s (.tckR d) tck_RX_STATE 8 2 0) s
  let y := getSlot s k
  setSlot s k { y with image := some (x.im, x.p), laying := true }

/-! ## The command (R119 to R121) -/

/-- The lowest placement that fits. -/
def choosePlacement (s : State) (k : Nat) (h : List Byte) (maskOf : Nat → List Nat) : Option Nat :=
  (List.range (hdrPlacements h)).find? (fun p => maskFits s k (maskOf p))

/-- The verdict on an image: the first failure, or what to lay down; and the placement selected (255 none, and for a header that does
not hold, log entry 61). -/
def judgeImage (s : State) (k len : Nat) (h : List Byte) (maskOf : Nat → List Nat) (im : Image) : Except (Nat × Finding × Nat) Load :=
  let p := choosePlacement s k h maskOf
  match firstFailure (headChecks s k len h p (match p with | some p => imageFor h im p | none => im)) with
  | some f => .error (f.1, f.2, if f.1 = 1 then 255 else p.getD 255)
  | none =>
    let x : Load := ⟨h, p.getD 0, imageFor h im (p.getD 0), maskOf (p.getD 0)⟩
    let body := bodyChecks s k x
    match p with
    | none =>
      match firstFailure (body.filter (·.1 == 4)) with
      | some f => .error (f.1, f.2, 255)
      | none => .error (8, ⟨secOrder h 1 0, 0, 255, 1, hdrPlacements h, 0⟩, 255)
    | some p => match firstFailure body with | some f => .error (f.1, f.2, p) | none => .ok x

/-- Where the PROGRAMS section of an image that lies at an address stands, kept for the words that R368 rewrites. -/
def keepPrograms (s : State) (k base : Nat) (x : Load) : State :=
  match secFor x.h 2 x.p with
  | some e => setSlot s k { getSlot s k with progs := (base + e.off, e.len) }
  | none => s

/-- A LOAD begins: until its end a CORE_SWAP waits (R118). -/
def loadBegins (s : State) (k tag : Nat) : State := setSlot (startLong s (.tmt k) tag) k { getSlot s k with loading := true }

/-- The loader ends: the report, the result. -/
def loadEnds (s : State) (k rep sub placement : Nat) (f : Finding) : State :=
  let s := physWrite s rep (loadReport sub placement (epochOf s k) f) []
  finishLong s (.tmt k) (if sub = 0 then 0 else 0x0C) sub 0x20

def execLoad (fn k : Nat) (im : Image) (tag : Nat) (s0 : State) : State :=
  hostCmd s0 fn (.tmt k) fun s =>
    let p : Page := .tmt k
    let base := arg s p 0 + 2 ^ 32 * (arg s p 1 % 65536)
    let rep := arg s p 4 + 2 ^ 32 * (arg s p 5 % 65536)
    let len := arg s p 2
    let ph := phase s k
    if !slotUsed s k || (getSlot s k).current.isNone then reject s p 2 tag
    else if decide (rd s .lcs lcs_STATE % 8 < 2) then reject s p 4 tag
    else if ph == 2 || ph == 3 || ph == 4 || ph == 6 || wipeIncomplete s k || !ownTier1 s k base (max len 256) pageSize
        || !ownTier1 s k rep 64 64 then reject s p 4 tag
    else
      let hr := physRead s base 256
      let s := hr.1
      let h := hr.2.1
      let maskOf := fun p => match secFor h 1 p with
        | some e => (List.range (hdrDies h)).map (fun d => ofBytes (memRead s (base + e.off + 45 * d) 45))
        | none => List.replicate (hdrDies h) 0
      let ok := Finding.mk 0 0 255 0 0 0
      match judgeImage s0 k len h maskOf im with
      | .error (sub, f, pl) =>
        loadEnds (loadBegins (if sub = 1 then s else stackUnits s (base + 256) (len - 256) false) k tag) k rep sub pl f
      | .ok x =>
        -- the rest of the image is read (R222)
        let s := stackUnits s (base + 256) (len - 256) false
        if (arg s p 3).testBit 0 then loadEnds (loadBegins s k tag) k rep 0 x.p ok
        else
          let s := loadCow s k (loadPages x.im)
          -- a page that the copier still owes: the writes count as stalled and the LOAD is given again (R342)
          if (loadPages x.im).any (fun v => pteCow (pteOf s k v)) then loadCow s0 k (loadPages x.im)
          else
            let seed := if (bytesAt h 6 1).testBit 0 then arg s p 6 + 2 ^ 32 * arg s p 7 else bytesAt h 24 8
            let hold := (arg s p 3).testBit 1 || (bytesAt h 6 1).testBit 1
            let s := keepPrograms (layDown (loadBegins s k tag) k x seed) k base x
            let s := if hold then s else startSlot s k
            loadEnds s k rep 0 x.p ok

end Sys2Proof.Machine
end

