-- ==== Sys2Proof/Machine/Wipe.lean ====
section
/-! DEFINITION. Machine/Wipe.lean: spares (R377, R379), wipes (R380 to R382), the partition reset that WIPE, LAYOUT, a function
level reset and a life-cycle change share, WIPE and WIPE_COMPLETE. Each meaning answers a next state. -/
namespace Sys2Proof.Machine

/-! ## Spares (R375 to R379) -/

/-- Spares of a macro: 4 rows, 8 columns. -/
def spares (kind : Nat) : Nat := if kind = 1 then 4 else 8

/-- Spares of a kind that a macro has used, in the factory and in the field. -/
def sparesUsed (s : State) (r : Repair) : Nat :=
  (s.fuses.spares.filter (· == (r.kind, r.die, r.site, r.mac))).length + (s.repairs.filter (fun q => !q.pending && q.kind == r.kind && q.die == r.die && q.site == r.site && q.mac == r.mac)).length

/-- The macros of die d (8: the hub) beside its sites that the fuse map or the log in effect names, as kind and macro. -/
def dieMacros (s : State) (d : Nat) : List (Nat × Nat) :=
  (s.fuses.spares.filter (fun e => e.2.1 == d && e.2.2.1 == 0x1FF)).map (fun e => (e.1, e.2.2.2))
    ++ (s.repairs.filter (fun r => !r.pending && decide (r.kind < 3) && r.die == d && r.site == 0x1FF)).map (fun r => (r.kind, r.mac))

/-- FUS.EXHAUSTED as the fuse map and the log give it: the dies, and as bit 8 the hub, with a macro whose spares are used up (R388). -/
def exhausted (s : State) : Nat :=
  sumOf ((List.range 9).map (fun d => 2 ^ d * b2n ((dieMacros s d).any (fun e =>
    decide (spares e.1 ≤ sparesUsed s ⟨e.1, d, 0x1FF, e.2, 0, 0, 0, false⟩)))))

/-- Whether an entry can be met. -/
def spareLeft (s : State) (r : Repair) : Bool :=
  if r.kind = 5 then Config.repairLeft r.die r.hword else decide (sparesUsed s r < spares r.kind)

/-- Whether an entry replaces the cell that makes a word fail: its row, its column, or its row of the stack (R375, R377). -/
def mends (r : Repair) (e : Nat × Byte) : Bool :=
  let a := 8 * e.1
  let l := fld a 0 22
  if r.kind = 5 then fld a 46 2 == 1 && fld a 43 3 == r.die && fld a 0 35 / 8 == r.hword
  else fld a 46 2 == 0 && fld a 43 3 == r.die && fld a 34 9 == r.site && l / 65536 == r.mac
    && (if r.kind = 1 then macroRow l == r.index
        else match syndBit e.2 with | some n => macroCol l n == r.index | none => false)

/-- A pending entry takes effect, or finds no spare: the site's retirement is logged, or EXHAUSTED is raised. -/
def applyRepair (r : Repair) (s : State) : State :=
  if spareLeft s r then
    bump { s with hard := s.hard.filter (fun e => !mends r e), repairs := s.repairs.map (fun q => if q = r then { q with pending := false } else q) } .fus fus_APPLIED 1
  else if r.kind = 5 then s
  else if r.site = 0x1FF then raise s .fus 2
  else addRepair s 3 r.die r.site 0 0 0

/-- The pending entries that a wipe covers take effect in log order. -/
def applyRepairs (s : State) (covers : Repair → Bool) : State :=
  each (s.repairs.filter (fun r => r.pending && covers r)) applyRepair s

/-- An entry of a site's macros; of a die's macros, sites and stack included. -/
def ofSite (d site : Nat) (r : Repair) : Bool := (r.kind == 1 || r.kind == 2) && r.die == d && r.site == site
def ofDie (d : Nat) (r : Repair) : Bool := (r.kind == 1 || r.kind == 2 || r.kind == 5) && r.die == d

/-- Whether a site has a SITE_RETIRE entry, or a pending entry that no spare can meet (R379). -/
def serviceable (s : State) (d site : Nat) : Bool :=
  s.repairs.all (fun r => !(r.die == d && r.site == site && (r.kind == 3 || (r.pending && ofSite d site r && !spareLeft s r))))

/-! ## What a wipe clears (R380) -/

/-- Bytes of a site's SRAM, program store included (R192). -/
def siteBytes : Nat := 2621440

/-- One site: its memory and its core. -/
def wipeSite (key : Nat) (s : State) : State :=
  let s := applyRepairs s (ofSite (key / 384) (key % 384))
  setCore (refail (coreAddr key 0) siteBytes (memClear s (coreAddr key 0) siteBytes)) key Core.reset

/-- A die: every site, every engine, and the stack with its table areas. -/
def wipeDie (d : Nat) (s : State) : State :=
  let s := applyRepairs s (ofDie d)
  let s := memClear (memClear s (d <<< 43) (2 ^ 43)) (hbmAddr d 0) (2 ^ 43)
  let s := refail (hbmAddr d 0) (2 ^ 43) (refail (d <<< 43) (2 ^ 43) s)
  { s with cores := tkeep (fun c => c / 384 != d) s.cores, dies := tdel s.dies d }

/-- The WIP pages, dies first, then the hub. -/
def wipPage (w : Nat) : Page := if w < 8 then .wip w else .wipH

/-- The WIP page w is busy from the start of a wipe that covers the pages of a list: 1 SRAM, 2 HBM, 3 SITE. -/
def startWipe (mode : Nat) (scope : List Nat) (w : Nat) (s : State) : State :=
  let s := wrFld (startLong s (wipPage w) 0) (wipPage w) wip_STATE 0 2 mode
  { s with wipes := tput s.wipes w (scope, false) }

/-- The pages that the wipe of page w covers (R382). -/
def wipeScope (s : State) (w : Nat) : List Nat := match tfind s.wipes w with | some e => e.1 | none => [w]

/-- Whether another part of the wipe of page w has failed. -/
def wipeFailed (s : State) (w : Nat) : Bool := match tfind s.wipes w with | some e => e.2 | none => false

/-- The wipe of page w ends. -/
def endWipe (w : Nat) (s : State) : State :=
  { s with cmds := tdel s.cmds (pageBase (wipPage w)), wipes := tdel s.wipes w }

/-- A wipe of page w is complete: counted, its time kept, DONE (R390). -/
def wipeCounted (w us : Nat) (s : State) : State :=
  let p := wipPage w
  raise (wr (bump s p wip_COUNT 1) p wip_LAST_US us) p 1

/-- One whose time is the machine's (log entry 4). -/
def wipeTimed (w : Nat) (s : State) : State := let q := drawNat s; wipeCounted w (q.1 % 2 ^ 32) q.2

/-- The wipe of page w ends without completing: every die that it covered is INCOMPLETE, and stays so when its own part ends
(R382). -/
def wipeBroken (w : Nat) (s : State) : State :=
  let scope := w :: wipeScope s w
  let s := condition (wrFld (endWipe w s) (wipPage w) wip_STATE 0 2 0) (wipPage w) 0x16 2
  let s := { s with wipes := s.wipes.map (fun e => if scope.contains e.1 then (e.1, e.2.1, true) else e) }
  each scope (fun v s => wrFld s (wipPage v) wip_STATE 3 1 1) s

/-- A POWER_FAULT or a reset meets the wipes in progress. -/
def breakWipes (s : State) : State := each (List.range 9) (fun w s => if busy s (wipPage w) then wipeBroken w s else s) s

/-! ## WIPE_SITE ends (R379, R389) -/

/-- A site is retired at once: SITE_STATE, no reserve, the events. -/
def retireSite (s : State) (d site : Nat) : State :=
  let t := tractOf site
  let s := wrFld (wr s (.trc d t) trc_RESERVE 0) (.trc d t) trc_SITE_STATE (localOf site) 1 1
  raise (condition s (.trc d t) 0x17 2) .fus 4

/-- Registers for which `p` holds take their reset values; the error logs of their pages start anew. -/
def dropRegs (s : State) (p : Page → Nat → Bool) : State :=
  { s with regs := tkeep (fun o => match pageOf o with | some q => !p q (o % 0x1000) | none => true) s.regs,
           logN := tkeep (fun o => match pageOf o with | some q => !p q 0x800 | none => true) s.logN }

/-- A core reset (R442): the site's core, and the registers of its page but its AMAX slots (R47). -/
def coreReset (key : Nat) (s : State) : State :=
  dropRegs (setCore s key Core.reset) (fun p o => p == corPage key && !(decide (cor_AMAX_n ≤ o) && decide (o < cor_AMAX_n + 64)))

/-- The site wipe of a die does its work; the FUS page still holds its arguments. -/
def siteWipe (s : State) : State :=
  let d := arg s .fus 0 % 8
  let site := fld (arg s .fus 0) 8 9
  let s := coreReset (384 * d + site) (wipeSite (384 * d + site) s)
  let s := if serviceable s d site then s else retireSite s d site
  finishLong s .fus 0 0 0

/-- The site wipe that runs on page w ends. -/
def siteWipeEnds (w : Nat) (s : State) : State := wrFld (siteWipe (endWipe w s)) (wipPage w) wip_STATE 0 2 0

/-! ## Partition reset (R256, R380, R442) -/

/-- The pages whose registers a partition reset covers. -/
def resetPage (s : State) (k : Nat) (p : Page) : Bool :=
  match p with
  | .tckG i | .clv i | .ckp i | .tmt i | .kld i => i == k
  | .fld i => i == 16 + k
  | .tke d | .stm d | .gch d | .mem d | .pgt d | .wkc d _ | .tckR d | .smp d | .scb d | .wip d | .thm d | .trc d _ | .cor d _ =>
    slotOf s d == k
  | _ => false

/-- The registers of those pages that it keeps (R14, R149, R222, R324, R390, R461). -/
def keptReg (p : Page) (o : Nat) : Bool :=
  match p with
  | .tckG _ => o == tck_EPOCH
  | .wip _ => o == wip_STATE || o == wip_COUNT || o == wip_LAST_US
  | .mem _ => o == mem_STACK_INFO || o == mem_SECTORS || o == mem_TEMP
  | .trc _ _ => decide (0x100 ≤ o ∧ o < 0x150)
  | .fld _ => o == fld_MODULE || o == fld_TORUS
  | .kld _ => decide (o < 0x180)
  | _ => false

/-- Commands of the pages for which `p` holds are abandoned. -/
def dropCmds (s : State) (p : Page → Bool) : State :=
  { s with cmds := tkeep (fun o => match pageOf o with | some q => !p q | none => true) s.cmds }

/-- What a port of the slot holds of it is discarded (R319): what waits to leave or to be acknowledged, what came whole, and what came
of tokens and segments in part, whose rest is discarded as it comes. -/
def clearPort (p : Nat) (s : State) : State :=
  let x := getPort s p
  let y := x.inbox.foldl (fun y e => rxFree y (streamKey e.1 e.2.1) e.2.2.length) x
  let part := x.rx.filter (fun e => !e.2.isEmpty)
  let y := part.foldl (fun y e => { rxFree y e.1 (e.2.length - tget 0 x.void e.1) with void := tput y.void e.1 e.2.length }) y
  setPort s p { y with queue := [], replay := [], inbox := [] }

/-- A partition reset but for its wipe: registers, tables, engines, cores, tokens. The operations of the slot's pages, ports included,
are abandoned (R403, R411); a LOAD that it meets leaves the partition UNLOADED (R126). -/
def resetSlot (s : State) (k : Nat) : State :=
  let e := epochOf s k
  let ph := if (getSlot s k).laying then 6 else 0
  let ds := diesOf s k
  let mine := fun (x : End) => x.mod == moduleNo s && decide (x.die < 8) && ds.contains x.die
  let s := { s with net := s.net.filter (fun f => !(f.pslot == k || mine f.tok.dest || mine f.tok.src)) }
  let s := each ((List.range 16).filter (fun p => portSlot s p == some k)) clearPort s
  let s := dropCmds s (fun q => resetPage s k q || (match q with | .fld p => portSlot s p == some k | _ => false))
  let s := dropRegs s (fun p o => resetPage s k p && !keptReg p o)
  let s := setPhase (setEpoch (setSlot s k SlotSt.reset) k e) k ph
  each ds wipeDie (wr s .thmH (thm_EXT_PCT_s + 4 * k) 0)

/-- A partition reset with its wipe, a part of the wipe of the pages in `scope`; a site wipe of the partition completes first
(R385), and a wipe that it meets is broken: the dies that it covered are INCOMPLETE until a new one ends (R382). The dies are READY
again once they are wiped (R390). -/
def resetWith (scope : List Nat) (k : Nat) (s : State) : State :=
  let wiping := fun (site : Bool) d => busy s (.wip d) && (rd s (.wip d) wip_STATE % 4 == 3) == site
  let met := (diesOf s k).filter (wiping false)
  let s1 := resetSlot (each ((diesOf s k).filter (wiping true)) (fun d s => wipeTimed d (siteWipeEnds d s)) s) k
  each (diesOf s k) (fun d s => wrFld (startWipe 2 scope d s) (.wip d) wip_STATE 2 1 0) (each met wipeBroken s1)

/-- A partition reset (R256). -/
def partitionReset (k : Nat) (s : State) : State := resetWith (diesOf s k) k s

/-- HUB.STATE.READY follows the wipes, the self-test and the saddles (R420, R444). -/
def hubReady (s : State) : State :=
  let ok := (rd s .wipH wip_STATE).testBit 2 && rd s .hub hub_STATE / 2 % 4 == 1
    && (List.range 12).all (fun k => !(rd s .hub (hub_SADDLE_k_STATE + 16 * k)).testBit 7)
  let was := (rd s .hub hub_STATE).testBit 0
  let s := wrFld s .hub hub_STATE 0 1 (b2n ok)
  if ok && !was then raise s .hub 4 else s

/-- The slots of the layout. -/
def usedSlots (s : State) : List Nat := List.range (layoutN s)

/-- The module wipe: every partition is reset, the hub buffers are wiped, and neither the WIP pages nor the module are READY until the
wipes end (R381, R420). -/
def moduleWipe (s : State) : State :=
  let s := each (usedSlots s) (resetWith (List.range 9)) { s with hubErr := [] }
  let s := startWipe 1 (List.range 9) 8 s
  hubReady (each (List.range 9) (fun w s => wrFld s (wipPage w) wip_STATE 2 1 0) s)

/-! ## WIPE (R279) -/

def execWipe (fn k tag : Nat) (s : State) : State :=
  hostCmd s fn (.tmt k) fun s =>
    if slotUsed s k then startLong (partitionReset k s) (.tmt k) tag else reject s (.tmt k) 0 tag

/-! ## WIPE_COMPLETE (R381, R382, R390) -/

/-- Whether no wipe of a slot's dies runs. -/
def slotWiped (s : State) (k : Nat) : Bool := (diesOf s k).all (fun d => !busy s (.wip d))

/-- Whether no wipe runs. -/
def allWiped (s : State) : Bool := (List.range 9).all (fun w => !busy s (wipPage w))

/-- A long operation that has not done its work. -/
def unfinished (s : State) (p : Page) : Bool := match tfind s.cmds (pageBase p) with | some c => c.long && !c.ready | none => false

/-- The WIPE of a slot, if its page runs one: not a save, a restore or a timetable switch. -/
def runsWipe (s : State) (k : Nat) : Bool :=
  unfinished s (.tmt k) && (getSlot s k).saving.isNone && !(rd s (.tmt k) tmt_STATE).testBit 16

/-- A life-cycle change takes effect (R383, R384): the state, the toggle bits, CHANGES, AUTH cleared. -/
def lifeCycle (s : State) : State :=
  let target := rd s .lcs (lcs_AUTH_n + 16) % 8
  let st := rd s .lcs lcs_STATE
  let left := if target = 3 then fld st 8 5 - 1 else fld st 8 5
  let s := wr s .lcs lcs_STATE (target + 256 * left)
  let s := wr s .lcs lcs_CHANGES ((rd s .lcs lcs_CHANGES + 1) % 256)
  let s := each (List.range 32) (fun n s => wr s .lcs (lcs_AUTH_n + 4 * n) 0) s
  -- the field-repair log is kept until a RETIRED transition (R378)
  finishLong (if target = 4 then { s with repairs := [] } else s) .lcs 0 0 1

/-- A result code of an operation whose wipe covered some pages: WIPE_INCOMPLETE where one of them is not wiped whole. -/
def wipeCode (s : State) (l : List Nat) : Nat := if l.any (fun w => (rd s (wipPage w) wip_STATE).testBit 3) then 0x16 else 0

/-- The operations that waited for the wipe of page w end: WIPE of the slot, LAYOUT, LC_CHANGE. -/
def wipeEnds (s : State) (w : Nat) : State :=
  let k := slotOf s w
  let s := if w < 8 && runsWipe s k && slotWiped s k then finishLong s (.tmt k) (wipeCode s (diesOf s k)) 0 0x20 else s
  if allWiped s then
    let s := if unfinished s (.tmt 8) then finishLong s (.tmt 8) (wipeCode s (List.range 9)) 0 0 else s
    if unfinished s .lcs then lifeCycle s else s
  else s

/-- A wipe of the memories of a page counts as a pass over them; the pass in progress ends (R374). -/
def wipePass (w : Nat) (hbm : Bool) (s : State) : State :=
  let q : Page := if w < 8 then .scb w else .scbH
  let s := bump (wr { s with passes := s.passes + 1 } q scb_SRAM_POS 0) q scb_SRAM_PASSES 1
  if hbm && decide (w < 8) then bump (wr s q scb_HBM_POS 0) q scb_HBM_PASSES 1 else s

/-- WIPE_COMPLETE: the wipe of WIP page w (8: the hub) ends after `us` µs, or is broken by a write failure of the stack. -/
def execWipeComplete (w us : Nat) (ok : Bool) (s : State) : State :=
  let p := wipPage w
  if !busy s p then s
  else if rd s p wip_STATE % 4 = 3 then
    wipeCounted w us (siteWipeEnds w s)
  else if ok then
    let failed := wipeFailed s w
    let s := wr (endWipe w s) p wip_STATE ((if w < 8 then 4 else 0) + 8 * b2n failed)
    let s := wipePass w true (wipeCounted w us s)
    let whole := !busy s .wipH && !(rd s .wipH wip_STATE).testBit 3 && (List.range 8).all (fun d => (rd s (.wip d) wip_STATE).testBit 2)
    hubReady (wipeEnds (if whole then wrFld s .wipH wip_STATE 2 1 1 else s) w)
  else hubReady (wipeEnds (wipeBroken w s) w)

end Sys2Proof.Machine
end

