-- ==== Sys2Proof/Machine/Partition.lean ====
section
/-! DEFINITION. Machine/Partition.lean: halts by command, jobs, saves and restores, the timetable, layouts, CORE_SWAP and the
sampler (R251 to R284, R15, R352, R353, R451). Each meaning answers a next state. -/
namespace Sys2Proof.Machine

def getJob (s : State) (k j : Nat) : Job := tget Job.none (getSlot s k).jobs j
def setJob (s : State) (k j : Nat) (x : Job) : State := setSlot s k { getSlot s k with jobs := tset Job.none (getSlot s k).jobs j x }

/-! ## HALT and RESUME (R258, R259) -/

/-- HALT. -/
def execHalt (fn k tag : Nat) (s : State) : State :=
  hostCmd s fn (.tmt k) fun s =>
    if activePhase (phase s k) then done (haltSlot (sendPause s k 3) k 0 1 true 0) (.tmt k) tag
    else reject s (.tmt k) 4 tag

/-- The phase that a halted partition goes on in: ARMED before its first marker, RUN in a tick that took a sample in, else
DRAIN. -/
def resumePhase (s : State) (k : Nat) : Nat :=
  let inj := (getTick s k).inj
  if inj.isEmpty then 2 else if (tfind inj (rd s (.tckG k) tck_WINDOW_TICK)).isSome then 3 else 4

/-- RESUME. -/
def execResume (fn k tag : Nat) (s : State) : State :=
  hostCmd s fn (.tmt k) fun s =>
    let info := rd s (.tmt k) tmt_HALT_INFO
    if phase s k = 5 ∧ info.testBit 10 = true then
      let s := if info % 256 = 1 then setTick s k { getTick s k with noLimit := true } else s
      let s := pauseDies (setPhase s k (resumePhase s k)) k false
      let s := faultBit s (.tckG k) false
      let s := each (diesOf s k) (fun d s => each (dieCores s d) (fun c s => faultBit s (corPage c) false) s) s
      done (catchUpCurrent (sendPause s k 4) k) (.tmt k) tag
    else reject s (.tmt k) 4 tag

/-! ## Shares (R264) -/

/-- The job that takes a FREE entry. -/
def freePick (s : State) (k : Nat) : Option Nat :=
  ((List.range 64).filter (fun j => eligible s k j && (getJob s k j).share != 0)).foldl (fun b j =>
    match b with
    | none => some j
    | some i => if (getJob s k j).pass < (getJob s k i).pass then some j else some i) none

/-- Job j has run a FREE entry that charged `freeAcct`. -/
def passUpdate (s : State) (k j : Nat) : State :=
  let x := getSlot s k
  let y := getJob s k j
  let jobs := if y.share = 0 then x.jobs
    else tput x.jobs j { y with pass := (y.pass + x.freeAcct / 1024 * 65536 / y.share) % 2 ^ 64 }
  let reg := jobs.filter (fun e => e.2.state != .absent)
  let m := match reg.map (fun e => e.2.pass) with | [] => 0 | a :: l => l.foldl min a
  setSlot s k { x with jobs := if 2 ^ 48 ≤ m then jobs.map (fun e => (e.1, if e.2.state = .absent then e.2 else { e.2 with pass := e.2.pass - m })) else jobs }

/-! ## JOB_CFG (R278) -/

/-- A host write of TMT.JOB_CFG: the selected job is registered, changed, or made ABSENT. -/
def jobRegister (k value : Nat) (s : State) : State :=
  if !slotUsed s k then s else
  let j := rd s (.tmt k) tmt_JOB_SEL % 64
  let x := getJob s k j
  let tt := (rd s (.tmt k) hCTRL).testBit 0
  if value.testBit 16 then
    let y : Job := if x.state = .absent then { x with state := .empty, acct := 0, pass := 0, share := 0 } else x
    let s1 := setJob s k j { y with share := value % 65536, ctxValid := value.testBit 17 }
    if y.share = 0 ∧ value % 65536 ≠ 0 then catchUp s1 k j else s1
  else
    let gone : Job := { x with state := .absent, share := value % 65536, ctxValid := value.testBit 17, saved := none }
    match x.state with
    | .current => s
    | .saved | .lost => if tt then s else setJob s k j gone
    | _ => setJob s k j gone

/-- JOB_REGISTER. -/
def execJobRegister (fn k value : Nat) (s : State) : State := hostWrite s fn (.tmt k) tmt_JOB_CFG (jobRegister k value)

/-! ## Saving a job (R267 to R270) -/

/-- The service cores of a slot: logical key die × 512 + number, and core key. -/
def serviceCores (s : State) (k : Nat) : List (Nat × Nat) :=
  (diesOf s k).flatMap (fun d => (List.range 360).filterMap (fun l => (coreOf s d l).map (fun c => (512 * d + l, c))))

/-- Registers of a die, or of the hub, that a save keeps (R268). -/
def dieRegs (d : Nat) : List Nat :=
  [pageBase (.tke d) + hCTRL, pageBase (.tke d) + tke_SR_SEED_LO, pageBase (.tke d) + tke_SR_SEED_HI]
    ++ (List.range 32).map (fun i => pageBase (.tke d) + tke_FMT_CLASS_n_A + 4 * i)
    ++ [pageBase (.stm d) + hCTRL, pageBase (.stm d) + stm_RA_TAG_LIMIT, pageBase (.gch d) + hCTRL]
    ++ [gch_RA_WAYS, gch_GEN_VA_LO, gch_GEN_VA_HI, gch_GEN_PAGES, gch_GEN_TBL_LO, gch_GEN_TBL_HI].map (pageBase (.gch d) + ·)
    ++ (List.range 6).map (fun i => pageBase (.tckR d) + tck_RX_STATE + 4 * i)
    ++ (List.range 4).flatMap (fun i => (List.range 256).map (fun m => pageBase (.wkc d i) + wkc_VALUE_m + 4 * m))
def hubRegs (k : Nat) : List Nat :=
  ((List.range 22).map (fun i => pageBase (.tckG k) + 0x100 + 4 * i)).filter (· != pageBase (.tckG k) + tck_THERM_EXT)
/-- The cause of a halt goes with a job that is saved HALTED, so that RESUME knows it after the restore (R259, log entry 27). -/
def haltRegs (s : State) (k : Nat) : List Nat := if phase s k = 5 then [pageBase (.tmt k) + tmt_HALT_INFO] else []
/-- AMAX slots of a core page (R268). -/
def amaxRegs (key : Nat) : List Nat := (List.range 16).map (fun i => pageBase (corPage key) + cor_AMAX_n + 4 * i)

/-- Offsets and words of registers that are not at their reset values. -/
def regSave (s : State) (l : List Nat) : Tab W32 := (l.filter (fun o => (tfind s.regs o).isSome)).map (fun o => (o, tget 0 s.regs o))

/-- Registers take their reset values; a saved table puts its words back. -/
def regClear (l : List Nat) (s : State) : State := { s with regs := tkeep (fun o => !l.contains o) s.regs }
def regPut (t : Tab W32) (s : State) : State := each t (fun e s => setRegAt s e.1 e.2.toNat) s

/-- Corrections are made and uncorrectable words counted in a core's SRAM. -/
def checkSite (key : Nat) (s : State) : State := (checkRead s (coreAddr key 0) siteBytes).1

/-- Listed bytes of a range by offset. -/
def cellsIn (s : State) (a n : Nat) : List (Nat × Byte) :=
  (s.mem.filter (fun e => decide (a ≤ e.1 ∧ e.1 < a + n))).map (fun e => (e.1 - a, e.2))

/-- Frames of a site's SRAM that hold a byte not zero or an uncorrectable word. -/
def framesOf (s : State) (key : Nat) : List Nat :=
  List.eraseDups ((cellsIn s (coreAddr key 0) siteBytes).map (·.1 / 65536) ++ (ueWords s (coreAddr key 0) siteBytes).map (· / 8192))

/-- The frames of a die that a save writes, in its order: by logical core (log entry 27). -/
def liveFrames (s : State) (d : Nat) : List (Nat × Nat) :=
  (List.range 360).flatMap (fun l => match coreOf s d l with
    | some key => (framesOf s key).map (fun f => (512 * d + l, f))
    | none => [])

/-- A copy of whole words, of which the listed ones, by index, are stored poisoned. -/
def copyRange (src dest n : Nat) (bad : List Nat) (s : State) : State :=
  let l := cellsIn s src n
  let s := each l (fun e s => wrByte s (dest + e.1) e.2) (memClear s dest n)
  refail dest n (each bad (fun w s => setSynd s (dest / 8 + w) 3) s)

/-- What the job of a slot leaves on the module but for the bytes of its live frames. -/
def savedOf (s : State) (k : Nat) : Saved :=
  let cs := serviceCores s k
  { cores := cs.map (fun e => (e.1, getCore s e.2)),
    frames := (diesOf s k).flatMap (liveFrames s),
    dies := (diesOf s k).map (fun d => (d, { getDie s d with lines := [], hist := [], busyCnt := [], succs := [] })),
    regs := regSave s (hubRegs k ++ haltRegs s k) ++ (diesOf s k).flatMap (fun d => regSave s (dieRegs d))
      ++ cs.flatMap (fun e => (regSave s (amaxRegs e.2)).map (fun r => (e.1 * 64 + (r.1 - pageBase (corPage e.2) - cor_AMAX_n) + 2 ^ 27, r.2))),
    toks := s.net.filter (·.pslot == k), tick := getTick s k, phase := phase s k, epoch := epochOf s k,
    image := (getSlot s k).image, progs := (getSlot s k).progs, badRecord := false }

/-- The engines of a die empty but for what belongs to the die itself. -/
def clearEngines (d : Nat) (s : State) : State :=
  let x := getDie s d
  setDie s d { DieSt.reset with hist := x.hist, busyCnt := x.busyCnt, calTemp := x.calTemp, calWait := x.calWait }

/-- A die SRAM wipe of the partition's service sites, with the job's registers and tick at reset (R268, R271). -/
def wipeJob (s : State) (k : Nat) : State :=
  let cs := serviceCores s k
  let s := each cs (fun e s => regClear (amaxRegs e.2) (wipeSite e.2 s)) s
  let s := each (diesOf s k) (fun d s =>
    let s := wipePass d false (wipeTimed d s)
    endGatherEpoch d (clearEngines d (regClear (dieRegs d) s))) s
  let e := epochOf s k
  let s := setEpoch (regClear (hubRegs k) s) k e
  setTick { s with net := s.net.filter (·.pslot != k) } k TickSt.reset

/-- Units of 64 KiB that a save writes on a die with F live frames: the die record, 57,600 KiB of core records, the frames. -/
def ctxUnits (frames : Nat) : Nat := 64 + 900 + frames

/-- The part of a job's context area on a die's stack, in bytes from its start, and the place of its i-th live frame (R270, log
entry 27). -/
def ctxArea (x : Job) (d : Nat) : Nat := hbmAddr d (65536 * x.ctxOff)
def frameArea (x : Job) (d i : Nat) : Nat := ctxArea x d + 65536 * (ctxUnits 0 + i)

/-- The save of a die's part: written whole over the words of its area, its live frames as raw bytes, counted as writes of its stack;
the largest part is CTX_LAST. A frame written with zeros only is live as well, so F lies between the frames listed and 360 × 40
(log entry 62). -/
def saveDie (k : Nat) (x : Job) (d : Nat) (s : State) : State :=
  let q := drawNat s
  let l := liveFrames s d
  let u := ctxUnits (l.length + q.1 % (14400 - min l.length 14400 + 1))
  let a := ctxArea x d
  let s := { q.2 with synd := tkeep (fun w => !(decide (a / 8 ≤ w) && decide (w < (a + 65536 * u) / 8))) q.2.synd }
  let s := each l.zipIdx (fun e s => match coreOf s d (e.1.1 % 512) with
    | some key =>
      let src := coreAddr key (65536 * e.1.2)
      copyRange src (frameArea x d e.2) 65536 (ueWords s src 65536) s
    | none => s) (refail a (65536 * u) s)
  wrMax (stackUnits s a (65536 * u) true) (.tmt k) tmt_CTX_LAST u

/-- The save of the CURRENT job j: it becomes SAVED, no job is CURRENT, the dies are wiped. -/
def saveJob (s : State) (k j : Nat) : State :=
  let s := each (serviceCores s k) (fun e s => checkSite e.2 s) s
  let v := savedOf s k
  let s := each (diesOf s k) (saveDie k (getJob s k j)) (wr s (.tmt k) tmt_CTX_LAST 0)
  let s := setJob s k j { getJob s k j with state := .saved, saved := some v }
  let s := wipeJob s k
  setSlot s k { getSlot s k with current := none, saving := none, image := none, progs := (0, 0) }

/-! ## Restoring a job (R271, R272) -/

/-- Saved registers back in their places, AMAX slots by logical core. -/
def putReg (s : State) (e : Nat × W32) : State :=
  if e.1 < 2 ^ 27 then setRegAt s e.1 e.2.toNat
  else
    let l := (e.1 - 2 ^ 27) / 64
    match coreOf s (l / 512) (l % 512) with
    | some key => setRegAt s (pageBase (corPage key) + cor_AMAX_n + (e.1 - 2 ^ 27) % 64) e.2.toNat
    | none => s

/-- Logical cores of a saved job that have no site. -/
def lostCore (s : State) (v : Saved) : Bool := v.cores.any (fun e => (coreOf s (e.1 / 512) (e.1 % 512)).isNone)

/-- A shadowed arm starts (R242). -/
def wakeDesc (x : SDesc) : SDesc :=
  match x.shadow with
  | some q => if x.state = 0 then { x with state := 1, arm := some (newArm q), shadow := none } else x
  | none => x

/-- The state of a saved job on the wiped dies. -/
def putSaved (s : State) (k : Nat) (v : Saved) : State :=
  let s := each v.cores (fun e s => match coreOf s (e.1 / 512) (e.1 % 512) with | some key => setCore s key e.2 | none => s) s
  let s := each v.dies (fun e s =>
    let x := getDie s e.1
    let w := fun (t : Tab SDesc) => t.map (fun q => (q.1, wakeDesc q.2))
    setDie s e.1 { e.2 with hist := x.hist, busyCnt := x.busyCnt, calTemp := x.calTemp, calWait := x.calWait,
                            streams := w e.2.streams, gathers := w e.2.gathers }) s
  let s := v.regs.foldl putReg s
  let s := setEpoch s k v.epoch
  setTick { s with net := s.net ++ v.toks } k v.tick

/-- The die record and the core records of a job are read through the check of their words: true where one is uncorrectable
(R272). -/
def readRecords (s : State) (k : Nat) (x : Job) : State × Bool :=
  (diesOf s k).foldl (fun q d =>
    let r := checkRead (stackUnits q.1 (ctxArea x d) (65536 * ctxUnits 0) false) (ctxArea x d) (65536 * ctxUnits 0)
    (r.1, q.2 || r.2)) (s, false)

/-- The live frames of a job are read from its context area to the sites that carry its cores now (R271): a word that is uncorrectable
there is one in the SRAM too (R272). -/
def putFrames (s : State) (k : Nat) (x : Job) (l : List (Nat × Nat)) : State :=
  each (diesOf s k) (fun d s =>
    each (l.filter (fun e => e.1 / 512 == d)).zipIdx (fun e s =>
      let a := frameArea x d e.2
      let q := checkRead (stackUnits s a 65536 false) a 65536
      match coreOf s d (e.1.1 % 512) with
      | some key => copyRange a (coreAddr key (65536 * e.1.2)) 65536 (ueWords q.1 a 65536) q.1
      | none => q.1) s) s

/-- A job whose records are damaged is LOST, which is a window-level fault (R272, R329). -/
def loseJob (s : State) (k j : Nat) : State :=
  windowFault (raise (setJob s k j { getJob s k j with state := .lost }) (.tmt k) 0x10) k 0x08 0

/-- A restore of job j, SAVED or EMPTY: true where the job is lost. -/
def restoreJob (s : State) (k j : Nat) : State × Bool :=
  let s := wipeJob s k
  let y := getJob s k j
  match y.saved with
  | some v =>
    let q := readRecords s k y
    let s := q.1
    if v.badRecord || q.2 then (loseJob s k j, true)
    else
      let s := putSaved (putFrames (setJob s k j { y with state := .current, saved := none }) k y v.frames) k v
      let s := setSlot s k { getSlot s k with current := some j, image := v.image, progs := v.progs }
      let s := if v.phase = 5 then pauseDies s k true else sendPause (pauseDies s k false) k 4
      (collRestart s k, false)
  | none =>
    let s := setEpoch (setJob s k j { y with state := .current }) k 0
    (setSlot s k { getSlot s k with current := some j }, false)

/-! ## CTX_SAVE, CTX_RESTORE (R279) -/

/-- A save begins: the checkpoint that is ARMED ends, the dies pause. -/
def beginSave (s : State) (k j : Nat) (tt : Bool) : State :=
  let s := ckpArmedEnds s k 3
  let s := if activePhase (phase s k) then sendPause s k 3 else s
  let s := setSlot s k { getSlot s k with saving := some (j, tt) }
  pauseDies s k true

/-- Whether a job's context area lies on the stack (R270): units of 64 KiB. -/
def areaInside (s : State) (k : Nat) (x : Job) : Bool := decide ((x.ctxOff + rd s (.tmt k) tmt_CTX_NEED) * 65536 ≤ 5859375 * 4096)

def ttRun (s : State) (k : Nat) : Bool := (rd s (.tmt k) hCTRL).testBit 0

def execCtxSave (fn k tag : Nat) (s : State) : State :=
  hostCmd s fn (.tmt k) fun s =>
    if !slotUsed s k then reject s (.tmt k) 0 tag
    else if ttRun s k then reject s (.tmt k) 1 tag
    else
      match (getSlot s k).current with
      | none => reject s (.tmt k) 2 tag
      | some j =>
        let x := getJob s k j
        if !x.ctxValid then reject s (.tmt k) 3 tag
        else if phase s k = 6 then reject s (.tmt k) 4 tag
        else if !areaInside s k x then reject s (.tmt k) 6 tag
        else beginSave (startLong s (.tmt k) tag) k j false

def execCtxRestore (fn k tag : Nat) (s : State) : State :=
  hostCmd s fn (.tmt k) fun s =>
    let j := arg s (.tmt k) 0 % 64
    let y := getJob s k j
    if !slotUsed s k then reject s (.tmt k) 0 tag
    else if ttRun s k then reject s (.tmt k) 1 tag
    else if (getSlot s k).current.isSome || !(y.state == .saved || y.state == .empty) then reject s (.tmt k) 2 tag
    else if wipeIncomplete s k || phase s k == 6 then reject s (.tmt k) 4 tag
    else if (match y.saved with | some v => lostCore s v | none => false) then reject s (.tmt k) 5 tag
    else
      let r := restoreJob (startLong s (.tmt k) tag) k j
      finishLong r.1 (.tmt k) (if r.2 then 8 else 0) 0 0x20

/-! ## The timetable (R262, R263) -/

/-- Fields of a timetable entry. -/
def ttEntry (s : State) (k i : Nat) : Nat := (tget 0 (getSlot s k).tt i).toNat
def ttJob (e : Nat) : Nat := fld e 0 6
def ttKind (e : Nat) : Nat := fld e 6 2
def ttFallback (e : Nat) : Bool := e.testBit 8
def ttDuration (e : Nat) : Nat := fld e 32 24

/-- Validity (R262). -/
def ttValid (s : State) (k e : Nat) : Bool :=
  ttKind e != 3 && fld e 9 23 == 0 && fld e 56 8 == 0 && ttDuration e != 0
    && (if ttKind e = 0 then (getJob s k (ttJob e)).state != .absent else ttJob e == 0)

/-- The major frame's length and the current entry. -/
def frameLen (s : State) (k : Nat) : Nat := rd s (.tmt k) tmt_FRAME_LEN
def curEntry (s : State) (k : Nat) : Nat := fld (rd s (.tmt k) tmt_STATE) 8 8

/-- The job that an entry is given to, and whether it runs as FREE. -/
def ttPick (s : State) (k e : Nat) : Option Nat × Bool :=
  let free := match freePick s k with | some j => (some j, true) | none => (none, false)
  match ttKind e with
  | 0 => if eligible s k (ttJob e) then (some (ttJob e), false) else if ttFallback e then free else (none, false)
  | 1 => free
  | _ => (none, false)

/-- The page's own operation is over: not a command, so no CMD_RESULT (R409). -/
def dropLong (s : State) (p : Page) : State := { s with cmds := tdel s.cmds (pageBase p) }

/-- The switch is complete: its time is measured (log entry 4). -/
def switchEnds (s : State) (k : Nat) : State :=
  let q := drawNat s
  let p : Page := .tmt k
  let s := wrFld (dropLong q.2 p) p tmt_STATE 16 1 0
  let s := wrMax (wr (bump s p tmt_SWITCH_COUNT 1) p tmt_SWITCH_LAST (q.1 % 2 ^ 32)) p tmt_SWITCH_MAX (q.1 % 2 ^ 32)
  raise (setSlot s k { getSlot s k with switchTo := none }) p 2

/-- The restore half of a switch: to a job, or to no job for an IDLE entry. A job that cannot be restored leaves the entry
idle (log entry 63). -/
def switchIn (s : State) (k : Nat) : State :=
  match (getSlot s k).switchTo with
  | none => switchEnds s k
  | some j =>
    if (match (getJob s k j).saved with | some v => lostCore s v | none => false) || wipeIncomplete s k then switchEnds s k
    else switchEnds (restoreJob s k j).1 k

/-- An entry begins: its job is picked, and the unit switches where the job is not CURRENT. A CURRENT job without a context
area cannot be switched out, and the walk waits (log entry 63). -/
def startEntry (s : State) (k i : Nat) : State :=
  let e := ttEntry s k i
  let q := ttPick s k e
  let s := wr (wrFld s (.tmt k) tmt_STATE 8 8 i) (.tmt k) tmt_ENTRY_LEFT (ttDuration e)
  let x := getSlot s k
  let s := setSlot s k { x with freeEntry := q.2, freeAcct := 0, entryFresh := true, switchTo := q.1 }
  if x.current = q.1 then setSlot s k { getSlot s k with switchTo := none }
  else
    match x.current with
    | some j =>
      let y := getJob s k j
      if !y.ctxValid || !areaInside s k y || phase s k == 6 then setSlot s k { getSlot s k with walkWaits := true, switchTo := none }
      else beginSave (startLong (wrFld s (.tmt k) tmt_STATE 16 1 1) (.tmt k) 0) k j true
    | none => switchIn s k

/-- The walk goes on to the next entry, or ends where TT_RUN has been cleared. A complete frame is measured (log entry 4). -/
def nextEntry (s : State) (k : Nat) : State :=
  if !ttRun s k then wrFld s (.tmt k) tmt_STATE 17 1 0
  else
    let i := curEntry s k + 1
    if i < frameLen s k then startEntry s k i
    else
      let q := drawNat s
      let s := wrMax (wr q.2 (.tmt k) tmt_FRAME_LAST (q.1 % 2 ^ 32)) (.tmt k) tmt_FRAME_MAX (q.1 % 2 ^ 32)
      startEntry (raise s (.tmt k) 4) k 0

/-- TT_RUN is set by a host write of CTRL. -/
def ttRunSet (k : Nat) (s : State) : State :=
  if !slotUsed s k then s else
  if ttRun s k then s
  else if (List.range (frameLen s k)).all (fun i => ttValid s k (ttEntry s k i)) then
    let s := wrFld s (.tmt k) hCTRL 0 1 1
    if (rd s (.tmt k) tmt_STATE).testBit 17 then s else startEntry (wrFld s (.tmt k) tmt_STATE 17 1 1) k 0
  else raise s (.tmt k) 8

/-- TT_RUN_SET. -/
def execTtRunSet (fn k : Nat) (s : State) : State := hostWrite s fn (.tmt k) hCTRL (ttRunSet k)

/-- TT_RUN is cleared: at the end of the current entry, or at once while the walk waits. -/
def ttRunClear (k : Nat) (s : State) : State :=
  if !slotUsed s k then s else
  let s := wrFld s (.tmt k) hCTRL 0 1 0
  if (getSlot s k).walkWaits then wrFld (setSlot s k { getSlot s k with walkWaits := false }) (.tmt k) tmt_STATE 17 1 0 else s

/-- TT_RUN_CLEAR. -/
def execTtRunClear (fn k : Nat) (s : State) : State := hostWrite s fn (.tmt k) hCTRL (ttRunClear k)

/-- Whether the walk is on and not switching or waiting. -/
def walking (s : State) (k : Nat) : Bool := entryRuns s k && !(getSlot s k).walkWaits

/-- The rewind of R146 at the boundary before a save: injection, then the dies (R273). -/
def rewindNow (s : State) (k : Nat) : State :=
  if (getTick s k).rewindTo.isNone then s
  else
    let s := rewindInjection s k
    let t := getTick s k
    let s := each (diesOf s k) (rewindDie (fun n => t.rewound.contains n)) s
    setTick s k { getTick s k with rewound := [] }

/-- TIMETABLE_ENTRY_END: at the boundary after the entry's last tick, or once its job is no longer eligible. A STOP or a
CORE_SWAP of the same boundary comes first (R273). -/
def execTimetableEntryEnd (k : Nat) (s0 : State) : State :=
  let s := execStopComplete k s0
  match (getSlot s k).current with
  | none => if walking s k && !ttRun s k then nextEntry s k else s0
  | some j =>
    let ended := entryOver s k && (missing s k).isEmpty
    let lost := !eligible s k j
    if !walking s k || !(ended || lost) || (ended && windowOver s k && swapWaits s k) then s0
    else
      let s := if (getSlot s k).freeEntry then passUpdate s k j else s
      let s := setSlot s k { getSlot s k with freeEntry := false }
      if phase s k == 5 && rd s (.tmt k) tmt_HALT_INFO % 256 == 0x11 then setSlot s k { getSlot s k with walkWaits := true }
      else nextEntry (if ended then wr (rewindNow s k) (.tmt k) tmt_ENTRY_LEFT 0 else s) k

/-- IDLE_ENTRY_EXPIRY: DURATION × IDLE_UNIT cycles have passed with no job CURRENT. -/
def execIdleEntryExpiry (k : Nat) (s : State) : State :=
  if walking s k && (getSlot s k).current.isNone then nextEntry (wr s (.tmt k) tmt_ENTRY_LEFT 0) k else s

/-- Whether CLAIMs, commits or discards of a slot are still on their way: a save lets them complete (R95, R179, R267). -/
def tokensDue (s : State) (k : Nat) : Bool :=
  s.net.any (fun f => f.pslot == k && (f.tok.kind == 6 || (f.tok.kind == 2 && (f.tok.tag == 4 || f.tok.tag == 6))))

/-- SAVE_BEGIN: every memory tag is free, every collective run has ended, and the cores have stopped (R267); for a timetable switch
the restore follows. -/
def execSaveBegin (k : Nat) (s : State) : State :=
  match (getSlot s k).saving with
  | none => s
  | some (j, tt) =>
    let free := (diesOf s k).all (fun d => let x := getDie s d; (x.streams ++ x.gathers).all (fun e => e.2.state != 1))
    if !free || !(getSlot s k).runs.isEmpty || !(getSlot s k).transit.isEmpty || tokensDue s k then s
    else
      let s := saveJob s k j
      if tt then switchIn s k else finishLong s (.tmt k) 0 0 0x20

/-- PREEMPT_TIMEOUT: a core of the partition has not stopped; the save is abandoned. -/
def execPreemptTimeout (key : Nat) (s : State) : State :=
  let d := key / 384
  let k := slotOf s d
  match (getSlot s k).saving with
  | none => s
  | some (_, tt) =>
    let s := setSlot s k { getSlot s k with saving := none, switchTo := none }
    let s := haltSlot s k 0x11 0 false (imageDie s d)
    let s := condition s (.tmt k) 0x11 0x10
    if tt then
      setSlot (wrFld (dropLong s (.tmt k)) (.tmt k) tmt_STATE 16 1 0) k { getSlot s k with walkWaits := true }
    else finishLong s (.tmt k) 0x11 0 0x20

/-! ## Layouts (R255, R281) -/

/-- Whether a slot lets the layout change. -/
def slotIdle (s : State) (k : Nat) : Bool :=
  phase s k == 0 && !ttRun s k && (getSlot s k).image.isNone
    && (List.range 64).all (fun j =>
      let x := getJob s k j
      !(x.state == .saved || x.state == .current) || (j == 0 && (match x.saved with | some v => v.image.isNone | none => true)))

/-- The masks of slots 0 to n − 1 do not overlap. -/
def masksApart (m : List Nat) : Bool :=
  (List.range m.length).all (fun i => (List.range i).all (fun j => (m.getD i 0 &&& m.getD j 0) == 0))

def execLayout (fn tag : Nat) (s : State) : State :=
  hostCmd s fn (.tmt 8) fun s =>
    let n := arg s (.tmt 8) 0 % 16
    let custom := (arg s (.tmt 8) 0).testBit 4
    let masks := (List.range n).map (fun i => rd s (.tmt 8) (tmt_PORT_MASK_s + 4 * i) % 65536)
    if !(n == 1 || n == 2 || n == 4 || n == 8) || !(usedSlots s).all (slotIdle s) || (custom && !masksApart masks) then
      reject s (.tmt 8) 0 tag
    else
      let s := moduleWipe (startLong s (.tmt 8) tag)
      { wr s (.tmt 8) tmt_LAYOUT n with masks := if custom then masks else [] }

/-! ## CORE_SWAP (R15, R352, R353, R379, R451) -/

def slotSite (s : State) (d t n : Nat) : Option Nat :=
  let m := rd s (.trc d t) (trc_MAP_n + 4 * n)
  if m.testBit 8 then some (m % 16) else none

/-- The site of a place in a tract. -/
def siteAt (t ls : Nat) : Nat := (t / 6 * 4 + ls / 4) * 24 + (t % 6 * 4 + ls % 4)

def reserveOf (s : State) (d t : Nat) : Option Nat :=
  let r := rd s (.trc d t) trc_RESERVE
  if r.testBit 8 then some (r % 16) else none

def execCoreSwap (fn d t tag : Nat) (s : State) : State :=
  hostCmd s fn (.trc d t) fun s =>
    let n := arg s (.trc d t) 0 % 16
    let k := slotOf s d
    if 14 < n || (slotSite s d t n).isNone then reject s (.trc d t) 2 tag
    else if phase s k = 5 then reject s (.trc d t) 3 tag
    else if (reserveOf s d t).isNone && activePhase (phase s k) then reject s (.trc d t) 4 tag
    else startLong s (.trc d t) tag

/-- The core record and the SRAM of a site go to another one; words that read uncorrectable are poisoned there. -/
def copySite (s : State) (old new : Nat) : State :=
  let s := checkSite old s
  let regs := regSave s (amaxRegs old)
  let s := copyRange (coreAddr old 0) (coreAddr new 0) siteBytes (ueWords s (coreAddr old 0) siteBytes) (setCore s new (getCore s old))
  each regs (fun e s => setRegAt s (pageBase (corPage new) + (e.1 - pageBase (corPage old))) e.2.toNat) s

/-- Physical sectors of a site as a range. -/
def siteSectors (key : Nat) : Nat × Nat := (coreAddr key 0 / 4096, siteBytes / 4096)

/-- A sector of the vacated site at the same place on the new one. -/
def moveSector (old new sec : Nat) : Nat :=
  if (siteSectors old).1 ≤ sec ∧ sec < (siteSectors old).1 + (siteSectors old).2 then sec - (siteSectors old).1 + (siteSectors new).1 else sec

/-- The tier-0 entries that name the vacated site name the new one, and so do the pools (log entry 64); with no new site the
entries of pool pages are cleared. -/
def moveFrames (s : State) (k old : Nat) (new : Option Nat) : State :=
  let x := getSlot s k
  let on := fun sec => decide ((siteSectors old).1 ≤ sec ∧ sec < (siteSectors old).1 + (siteSectors old).2)
  let fix := fun (e : Nat) =>
    match new with
    | some n => if pteTier e = 0 ∧ on (pteSector e) = true then pteAt e (moveSector old n (pteSector e)) (pteSectors e) (pteCoded e) else e
    | none => if pteTier e = 0 ∧ on (pteSector e) = true ∧ inPool x (pteRange e) = true then 0 else e
  let pools := match new with
    | some n => x.pools.map (fun q => { q with base := moveSector old n q.base })
    | none => x.pools.filter (fun q => !(q.tier == 0 && on q.base))
  let ptes := (x.ptes.map (fun e => (e.1, fix e.2))).filter (fun e => e.2 != 0)
  let stale := fun (v : Nat) => let e := tget 0 x.ptes v; pteTier e == 0 && on (pteSector e)
  let transit := x.transit.map (fun q => { q with entry := fix q.entry })
  setSlot s k { x with ptes := ptes, pools := pools, transit := transit, tlb := x.tlb.filter (fun e => !stale e.2) }

/-- The swap takes effect. -/
def swapNow (s : State) (d t : Nat) : State :=
  let p : Page := .trc d t
  let a := arg s p 0
  let n := a % 16
  let k := slotOf s d
  match slotSite s d t n with
  | none => finishLong s p 0x14 2 0
  | some ls =>
    let site := siteAt t ls
    let old := 384 * d + site
    let s := bump s p trc_SWAP_COUNT 1
    match reserveOf s d t with
    | some rs =>
      let new := 384 * d + siteAt t rs
      let s := wipeTimed d (coreReset new (wipeSite new s))
      let s := if activePhase (phase s k) then copySite s old new else s
      let s := coreReset old (moveFrames s k old (some new))
      let s := wr s p (trc_MAP_n + 4 * n) (0x100 + rs)
      let retire := a.testBit 8
      if !retire && serviceable s d site then finishLong (wr s p trc_RESERVE (0x100 + ls)) p 0 0 1
      else
        let s := if retire then addRepair s 3 d site 0 0 0 else s
        finishLong (retireSite s d site) p 0x17 0 1
    | none =>
      let s := coreReset old (moveFrames s k old none)
      let s := if a.testBit 8 then addRepair s 3 d site 0 0 0 else s
      finishLong (retireSite (wr s p (trc_MAP_n + 4 * n) 0) d site) p 0x17 1 1

/-- CORE_SWAP_APPLY: at once on a partition that does not tick, else at a window boundary; a halt ends the command. -/
def execCoreSwapApply (d t : Nat) (s : State) : State :=
  let p : Page := .trc d t
  let k := slotOf s d
  if !unfinished s p || (getSlot s k).loading then s
  else if phase s k = 5 then finishLong s p 0x14 3 0
  else if !activePhase (phase s k) then swapNow s d t
  else
    let ended := if roleNo s k = 2 then followerEmpty s k else windowOver s k || (getTick s k).bounded
    if ticking s k && ended then swapNow (windowBoundary s k) d t else s

/-! ## The sampler (R274 to R276, R282 to R284) -/

/-- The shift of a kind. -/
def smpShift (s : State) (d kind : Nat) : Nat :=
  let x := rd s (.smp d) smp_SHIFT
  if kind = 0 then fld x 0 4 else if kind = 5 then fld x 8 4 else fld x 4 4

/-- The bin of a depth (R275): bin 0 for 0, bin b for (b − 1) × 2^s < depth ≤ b × 2^s, bin 15 beyond. -/
def smpBin (shift depth : Nat) : Nat := min 15 (cdiv depth (2 ^ shift))

/-- Depths of the FEEDER and STAGE queues of a core (R274). -/
def feederDepth (c : Core) : Nat := min 256 (feederUsed c)
def stageDepth (c : Core) : Nat :=
  (c.holds.filter (fun e => !e.2.data.isEmpty || e.2.ctrl.isSome || e.2.record.isSome)).length

/-- Adds 1 to a saturating count; true where it reaches its limit. -/
def count32 (t : Tab Nat) (i : Nat) : Tab Nat × Bool :=
  let n := min (tget 0 t i + 1) 0xFFFFFFFF
  (tput t i n, n == 0xFFFFFFFF)

/-- One histogram sample. -/
def sampleQueue (d l kind depth : Nat) (s : State) : State :=
  let x := getDie s d
  let q := count32 x.hist ((l * 6 + kind) * 16 + smpBin (smpShift s d kind) depth)
  let s := setDie s d { x with hist := q.1 }
  if q.2 then raise s (.smp d) 1 else s

/-- Whether a task is RUNNING on a core. -/
def taskRuns (s : State) (key : Nat) : Bool :=
  let c := getCore s key
  match c.run with
  | some r => !c.halted && (getCtx s (key / 384) r.ctx).state == .running
  | none => false

/-- One core's sample; `o` are the flits in the buffers of the mesh, `late` those that stand beside them in its links. -/
def sampleCore (d l : Nat) (o : Flits) (late : Nat → Nat) (s : State) : State :=
  match coreOf s d l with
  | none => s
  | some key =>
    let c := getCore s key
    let s := sampleQueue d l 0 (feederDepth c) s
    let s := each (List.range 4) (fun i s => sampleQueue d l (i + 1) (linkDepth o d (key % 384) i + late i) s) s
    let s := sampleQueue d l 5 (stageDepth c) s
    if !taskRuns s key then s
    else
      let x := getDie s d
      let q := count32 x.busyCnt l
      let s := setDie s d { x with busyCnt := q.1 }
      if q.2 then raise s (.smp d) 1 else s

/-- SAMPLER_SAMPLE. The mesh buffers' depths are those that the tokens in flight fill, and the flits that time holds back in them,
which the command brings (log entry 65). -/
def execSamplerSample (d : Nat) (links : List Nat) (s : State) : State :=
  let k := slotOf s d
  let ctrl := rd s (.smp d) hCTRL
  if !ctrl.testBit 0 || (ctrl.testBit 1 && !((phase s k == 3 || phase s k == 4) && (getSlot s k).saving.isNone)) then s
  else
    let s := each (List.range 360) (fun l => sampleCore d l (flow s s.net []).2 (fun i => links.getD (4 * l + i) 0)) s
    let s := bump s (.smp d) smp_SAMPLES 1
    if rd s (.smp d) smp_SAMPLES = 0xFFFFFFFF then raise s (.smp d) 1 else s

/-- CLEAR. -/
def execClear (fn d tag : Nat) (s : State) : State :=
  hostCmd s fn (.smp d) fun s =>
    let x := getDie s d
    done (wr (setDie s d { x with hist := [], busyCnt := [] }) (.smp d) smp_SAMPLES 0) (.smp d) tag

end Sys2Proof.Machine
end

