-- ==== Sys2Proof/Machine/Protect.lean ====
section
/-! DEFINITION. Machine/Protect.lean: the field-repair log and the remap tables (R14, R376 to R379, R388, R389), scrubbing
(R373, R374, R386, R387), life cycle (R383, R384, R391, R392), resends of the mesh (R363). Each meaning answers a next
state. -/
namespace Sys2Proof.Machine

/-! ## Remap tables (R14, R290, R291, R376) -/

/-- The controller reads both copies of the log: an entry whose CHECK fails in one is taken from the other, and one that fails in
both is ignored; the copies are then alike again. -/
def readLog (s : State) : State :=
  let lost := fun i => s.fuses.badCopy.contains (i, 0) && s.fuses.badCopy.contains (i, 1)
  { s with repairs := ((s.repairs.zipIdx).filter (fun e => !lost e.2)).map (·.1), fuses := { s.fuses with badCopy := [] } }

/-- Whether a site is retired: by the factory fuse map, by the log, or within the box of routers out of service. -/
def siteRetired (s : State) (bs : List Box) (d site : Nat) : Bool :=
  s.fuses.sites.contains (d * 384 + site) || s.repairs.any (fun r => r.kind == 3 && r.die == d && r.site == site)
    || outAt bs (spotOfSite site).1 (spotOfSite site).2

/-- REMAP_BUILD: the table of one tract. A die whose boxes fail the check of R291 offers no core. -/
def buildTract (bs : List Box) (d t : Nat) (s : State) : State :=
  let p : Page := .trc d t
  let retired := (List.range 16).filter (fun ls => siteRetired s bs d (siteAt t ls))
  let good := if boxesHold bs then (List.range 16).filter (fun ls => !retired.contains ls) else []
  let s := each (List.range 15) (fun n s => wr s p (trc_MAP_n + 4 * n) (match good[n]? with | some ls => 0x100 + ls | none => 0)) s
  let s := wr s p trc_RESERVE (match good[15]? with | some ls => 0x100 + ls | none => 0)
  wr s p trc_SITE_STATE (sumOf (retired.map (2 ^ ·)))

/-- Every table; the SITE_RETIRE and ROUTER_OUT entries of the log are then in effect. -/
def buildRemap (s : State) : State :=
  let s := readLog s
  let s := { s with repairs := s.repairs.map (fun r => if r.kind = 3 ∨ r.kind = 4 then { r with pending := false } else r) }
  each (List.range 8) (fun d s => each (List.range 24) (buildTract (boxes s d) d) s) s

/-! ## LOG_ADD, WIPE_SITE (R376, R389) -/

/-- Whether the entry fields of LOG_ADD are out of range or reserved bits are set. -/
def badEntry (a0 a1 a2 : Nat) : Bool :=
  let kind := fld a0 0 4
  let site := fld a0 16 9
  let mac := fld a1 0 8
  let index := fld a1 16 11
  kind == 0 || decide (5 < kind) || fld a0 4 4 != 0 || fld a0 11 5 != 0 || fld a0 25 7 != 0 || fld a1 8 8 != 0 || fld a1 27 5 != 0
    || (decide (384 ≤ site) && site != 0x1FF)
    || (if kind ≤ 2 then
          decide ((if site = 0x1FF then 216 else 40) ≤ mac) || decide ((if kind = 1 then 512 else 1152) ≤ index) || a2 != 0
        else
          mac != 0 || (if kind = 5 then site != 0x1FF || decide (3000000000 ≤ a2) || decide (1152 ≤ index) else site == 0x1FF || index != 0 || a2 != 0))

/-- LOG_ADD. -/
def execLogAdd (fn tag : Nat) (s : State) : State :=
  hostCmd s fn .fus fun s =>
    let a0 := arg s .fus 0
    let a1 := arg s .fus 1
    let a2 := arg s .fus 2
    let kind := fld a0 0 4
    let d := fld a0 8 3
    let site := fld a0 16 9
    let same := s.repairs.any (fun r => r.kind == kind && r.die == d && r.site == site && r.mac == fld a1 0 8 && r.index == fld a1 16 11 && r.hword == a2)
    if badEntry a0 a1 a2 then reject s .fus 2 tag
    else if !same && decide (4096 ≤ s.repairs.length) then reject (raise s .fus 1) .fus 1 tag
    else done (addRepair s kind d site (fld a1 0 8) (fld a1 16 11) a2) .fus tag

/-- WIPE_SITE of a reserve site; a wipe of its die that already runs covers it. -/
def execWipeSite (fn tag : Nat) (s : State) : State :=
  hostCmd s fn .fus fun s =>
    let d := arg s .fus 0 % 8
    let site := fld (arg s .fus 0) 8 9
    if 384 ≤ site then reject s .fus 2 tag
    else if roleOf s d site ≠ 1 then reject s .fus 3 tag
    else if busy s (.wip d) then siteWipe (startLong s .fus tag)
    else startWipe 3 [d] d (startLong s .fus tag)

/-! ## Scrubbing (R373, R374) -/

/-- Reads one word in a pass: the scrubber's counts beside those of the memory. -/
def scrubWord (p : Page) (e : Nat × Byte) (s : State) : State :=
  let r := readBad true e (s, false)
  if r.2 then raise (bump r.1 p scb_UE_FOUND 1) p 2 else bump r.1 p scb_CE_FOUND 1

/-- The words with an error of a die's sites that are not retired, or of its stack. -/
def scrubWords (s : State) (d : Nat) (hbm : Bool) : List (Nat × Byte) :=
  s.synd.filter (fun e =>
    let a := 8 * e.1
    fld a 43 3 == d && (if hbm then fld a 46 2 == 1 else fld a 46 2 == 0 && roleOf s d (fld a 34 9) != 2))

/-- The scrubber's counts of an SCB page (R387). -/
def scrubFound (p : Page) (ce ue : Nat) (s : State) : State :=
  let s := bump (bump s p scb_CE_FOUND ce) p scb_UE_FOUND ue
  if ue = 0 then s else raise s p 2

/-- A pass over the damaged words of a structure: the state, and the marks that stay. -/
def scrubTab (w p : Page) (source base : Nat) (l : Tab Byte) (s : State) : State × Tab Byte :=
  let q := readMarks p source base true (fun _ => true) l s
  (scrubFound w (l.length - q.2.1.length) q.2.1.length q.1, q.2.1)

/-- A pass over a die's task contexts. -/
def scrubCtx (d : Nat) (e : Nat × Ctx) (s : State) : State :=
  let a := scrubTab (.scb d) (.tke d) 4 (ctxBytes / 8 * e.1) e.2.badDesc s
  let b := scrubTab (.scb d) (.tke d) 4 (ctxBytes / 8 * e.1 + 8) e.2.badRun a.1
  setCtx b.1 d e.1 { e.2 with badDesc := a.2, badRun := b.2 }

/-- A pass over a line of a die's gather cache. -/
def scrubLine (d : Nat) (m : GLine) (s : State) : State :=
  let q := scrubTab (.scb d) (.gch d) 3 (32 * (16 * lineSet m.va + m.way)) m.bad s
  let x := getDie q.1 d
  setDie q.1 d { x with lines := x.lines.map (fun e => if e.va = m.va ∧ e.ra = m.ra then { e with bad := q.2 } else e) }

/-- The words with an error of a die's task contexts and gather cache. -/
def scrubMarks (d : Nat) (s : State) : State :=
  let x := getDie s d
  let s := each (x.ctxs.filter (fun e => !e.2.badRun.isEmpty || !e.2.badDesc.isEmpty)) (scrubCtx d) s
  each (x.lines.filter (fun m => !m.bad.isEmpty)) (scrubLine d) s

/-- Damaged entries of the page tables that lie on a die's stack, read as words of the stack (R363, R373). -/
def scrubTables (d : Nat) (s : State) : State :=
  let one := fun (k copy key : Nat) (e : Byte) (s : State) =>
    if e = 0 then (s, e)
    else
      let q := scrubTab (.scb d) (.mem d) 2 (entryWord s k copy key % 2 ^ 32) [(0, e)] s
      (q.1, if q.2.isEmpty then 0 else e)
  each ((usedSlots s).filter (fun k => decide (tableStack s k = d))) (fun k s =>
    each (getSlot s k).badPte (fun e s =>
      let a := one k 0 e.1 e.2.1 s
      let b := one k 1 e.1 e.2.2 a.1
      let x := getSlot b.1 k
      setSlot b.1 k { x with badPte := tset (0, 0) x.badPte e.1 (a.2, b.2) }) s) s

/-- A pass over the hub buffers. -/
def scrubHub (s : State) : State :=
  let q := scrubTab .scbH .hub 7 0 s.hubErr s
  { q.1 with hubErr := q.2 }

/-- SCRUB_PASS of SCB page w (8: the hub), over SRAM or HBM. -/
def execScrubPass (w : Nat) (hbm : Bool) (s : State) : State :=
  let p : Page := if w < 8 then .scb w else .scbH
  let held := w < 8 && ((getSlot s (slotOf s w)).saving.isSome || busy s (.wip w))
  -- the dies of a RETIRED module are unpowered (R383)
  let off := w < 8 && rd s .lcs lcs_STATE % 8 == 4
  if !(rd s p hCTRL).testBit 0 || held || off || (8 ≤ w && hbm) then s
  else
    let s := { s with passes := s.passes + 1 }
    let s := if w < 8 then each (scrubWords s w hbm) (scrubWord p) s else scrubHub s
    let s := if 8 ≤ w then s else if hbm then scrubTables w s else scrubMarks w s
    let s := bump (wr s p (if hbm then scb_HBM_POS else scb_SRAM_POS) 0) p (if hbm then scb_HBM_PASSES else scb_SRAM_PASSES) 1
    raise s p 1

/-- MESH_FLIT_RESEND: a receiver at a site finds a bad CRC-16 and has the flit resent. -/
def execMeshFlitResend (key : Nat) (s : State) : State := bump s (.trc (key / 384) (tractOf (key % 384))) hCE 1

/-! ## LC_CHANGE (R384, R392) -/

/-- The bytes of LCS.AUTH. -/
def authBytes (s : State) : List Byte := (List.range 32).flatMap (fun n => toBytes 4 (rd s .lcs (lcs_AUTH_n + 4 * n)))

/-- Whether a transition is permitted. -/
def lcPermitted (st target : Nat) : Bool :=
  (st == 0 && target == 1) || (st == 1 && target == 2) || (st == 2 && target == 3) || (st == 3 && target == 2) || (target == 4 && decide (st < 4))

/-- The reason of a refusal, if any. -/
def lcReason (s : State) : Option Nat :=
  let b := authBytes s
  let st := rd s .lcs lcs_STATE
  let target := bytesAt b 16 1 % 8
  if !lcPermitted (st % 8) target then some 1
  else if bytesAt b 0 8 ≠ rd s .lcs lcs_ID_LO + 2 ^ 32 * rd s .lcs lcs_ID_HI then some 2
  else if bytesAt b 8 8 ≠ (Config.nonce s.board.nonce).toNat then some 3
  else if !Config.signatureOk (b.take 32) (b.drop 32) then some 4
  else if target = 3 ∧ fld st 8 5 = 0 then some 5
  else none

/-- Wipes in progress end before a life-cycle change proceeds (R385). -/
def drainWipes (s : State) : State :=
  each (List.range 9) (fun w s => if busy s (wipPage w) then (let q := drawNat s; execWipeComplete w (q.1 % 2 ^ 32) true q.2) else s) s

/-- A partition halts for a life-cycle change. -/
def lcHalt (k : Nat) (s : State) : State := if activePhase (phase s k) then haltSlot s k 0 0 false 0 else s

/-- LC_CHANGE: checked; an accepted change halts every partition, wipes the module and takes effect when the wipe has ended. -/
def execLcChange (fn tag : Nat) (s : State) : State :=
  hostCmd s fn .lcs fun s =>
    let r := lcReason s
    let s := newNonce s
    match r with
    | some reason => endCmd s .lcs 0x14 reason tag 2
    | none =>
      let s := startLong (drainWipes s) .lcs tag
      moduleWipe (each (usedSlots s) lcHalt s)

end Sys2Proof.Machine
end

