-- ==== Sys2Proof/Machine/Power.lean ====
section
/-! DEFINITION. Machine/Power.lean: power, clocks, thermal control, resets and bring-up, the Koldo controller and SMBus (R424 to
R461, R14, R291, R295, R296, R395). Each meaning answers a next state. -/
namespace Sys2Proof.Machine

/-! ## Outputs (R438, R439, R441) -/

/-- A bit of KLD.FW_STATE, and the active area. -/
def fwBit (s : State) (n : Nat) : Bool := (rd s (.kld 8) kld_FW_STATE).testBit n
def fwActive (s : State) : Nat := rd s (.kld 8) kld_FW_STATE % 2

/-- Outputs are released while the module is unpowered or in module reset (R438). -/
def released (s : State) : Bool := !s.board.input || s.board.modReset

/-- PWR_GOODn is low while every main rail is in regulation, MOD_RESETn low or not: R443 has the board wait for it before it releases
MOD_RESETn (log entry 37). -/
def pwrGoodLow (s : State) : Bool := s.board.input && s.board.rails

/-- FAULTn, THERMTRIPn and ALERTn are low. -/
def faultLow (s : State) : Bool := !released s && (s.board.powerFault || s.board.trip || !(fwBit s 1 || fwBit s 2))
def thermtripLow (s : State) : Bool := !released s && s.board.trip
def alertLow (s : State) : Bool := !released s && s.board.alert != 0

/-- The controller drives the SPI contacts. -/
def spiDriven (s : State) : Bool := !released s

/-! ## What a reset of the whole module keeps (R388, R391, R421, R442, R447, R455, R457, R459, R461) -/

/-- What takes the module's state away: a module reset or cold power-on, a PCIe conventional reset, the loss of the main rails. -/
inductive ResetKind where
  | module | pcie | rails
  deriving DecidableEq, Repr

/-- Registers that it keeps: fuses and boot state, latches, the counts that the log rebuilds, and the marks of interrupted wipes. A PCIe
conventional reset leaves the HUB page and the standby island, but for what a partition reset resets there; the loss of the rails leaves
the standby island. -/
def bootReg (r : ResetKind) (p : Page) (o : Nat) : Bool :=
  match p with
  | .lcs => r == .rails || o == lcs_STATE || o == lcs_CHANGES || o == lcs_ID_LO || o == lcs_ID_HI
  | .fus => r == .rails
  | .hub => r == .pcie
  | .wip _ | .wipH => o == wip_STATE
  | .pwr => r != .module || o == pwr_FAULT_INFO
  | .thmH => r == .rails || (r == .pcie && !(decide (thm_EXT_PCT_s ≤ o) && decide (o < thm_EXT_PCT_s + 32))) || o == thm_TRIP_LATCH
  | .kld i =>
    r == .rails || (r == .pcie && !(decide (0x180 ≤ o) && decide (o < 0x190)))
      || (i == 8 && (o == kld_FW_STATE || o == kld_FW_VER_A || o == kld_FW_VER_B || o == kld_NODE_CFG || decide (0x10C ≤ o ∧ o < 0x12C)))
  | _ => false

/-- An FW_STAGE in progress leaves the inactive area invalid (R454). -/
def dropStage (s : State) : State :=
  match tfind s.cmds (pageBase (.kld 8)) with
  | some c =>
    if c.evt.testBit 0 then
      let v := rd s (.kld 8) kld_FW_STATE
      wr s (.kld 8) kld_FW_STATE (setFld (setFld v (if v.testBit 0 then 1 else 2) 1 0) 3 1 0)
    else s
  | none => s

/-- Everything that power and reset take away: memories, cores, engines, tables, ports, functions, registers, operations; HUB.STATE.READY
goes with the wiped memories (R381). The NONCE is a new one but where the island keeps it, and PWR.FAULT_INFO goes with the last latch
(R391, R455). -/
def clearModule (r : ResetKind) (s : State) : State :=
  let s := breakWipes (dropStage s)
  let s := if r = .rails then s else newNonce s
  let s := dropRegs s (fun p o => !bootReg r p o)
  let s := if r != .module || s.board.powerFault || s.board.trip then s else wr s .pwr pwr_FAULT_INFO 0
  let s := each (List.range 9) (fun w s => wr s (wipPage w) wip_STATE (8 * b2n ((rd s (wipPage w) wip_STATE).testBit 3))) s
  let s := wrFld s .hub hub_STATE 0 1 0
  { s with cores := [], dies := [], slots := [], mem := [], synd := [], net := [], ports := [], funcs := [], vfs := 8, vfOn := true,
           cmds := [], masks := [], corr := [], hubErr := [], wipes := [],
           board := { s.board with fwNext := if r = .module then none else s.board.fwNext } }

/-! ## Bring-up (R14, R290, R291, R295, R296, R442, R444) -/

/-- HUB.SADDLE_k_STATE for a number of failing lane groups: the spare replaces one, a second degrades, a third fails it. -/
def saddleWord (n : Nat) : Nat := if n = 0 then 16 else if n = 1 then 16 + 32 else if n = 2 then 15 + 32 + 64 else 32 + 128

/-- SADDLE_CALIBRATION: the numbers of failing lane groups of the saddles in order (log entry 66). -/
def calibrateSaddles (fails : List Nat) (s : State) : State :=
  each (List.range 12) (fun k s =>
    let v := saddleWord (fails.getD k 0)
    let o := hub_SADDLE_k_STATE + 16 * k
    if rd s .hub o = v then s else raise (wr s .hub o v) .hub 2) s

/-- The controller writes the module's number and torus from NODE_CONFIG, and the enabled ports train; without one they stay
OFF. -/
def startPorts (s : State) : State :=
  match s.board.node with
  | none => s
  | some v =>
    let s := wr s (.fld 16) fld_MODULE (s.board.slotId % 8 + 8 * (v % 2 ^ 15))
    let s := wr s (.fld 16) fld_TORUS (fld v 15 5 + 2 ^ 8 * fld v 20 5 + 2 ^ 16 * fld v 25 5)
    each (List.range 16) (fun p s => if (rd s (.fld p) hCTRL).testBit 0 then setPortState s p 1 else s) s

/-- The hub leaves reset: fuses and log applied, remap tables built, saddles calibrated, the module wipe begun, ports training. -/
def bringUp (fails : List Nat) (s : State) : State :=
  if hubUp s then startPorts (moduleWipe (calibrateSaddles fails (buildRemap s))) else s

/-! ## Power (R425, R428, R429, R431) -/

/-- Rails off: every state of the hub and the dies is lost. -/
def railsOff (s : State) : State :=
  let s := clearModule .rails s
  { s with board := { s.board with rails := false } }

/-- POWER_FAULT with a cause and a rail; a THERMTRIP that is latched stays the recorded cause (R454). -/
def powerFault (cause rail : Nat) (s : State) : State :=
  let s := if s.board.trip then s else wr s .pwr pwr_FAULT_INFO (cause + 16 * (rail % 16))
  let cut := (usedSlots s).filter (fun k => (getSlot s k).laying)
  let t := railsOff { s with board := { s.board with powerFault := true, alert := s.board.alert ||| 2 } }
  -- a LOAD that it interrupts leaves its partition UNLOADED, with the new epoch (R126)
  last (each cut (fun k t => setPhase (setEpoch t k (epochOf s k)) k 6) t) .pwr 0x13

def execInputUndervoltage (s : State) : State := if s.board.input then powerFault 1 0 s else s
def execInputOvervoltage (s : State) : State := if s.board.input then powerFault 2 0 s else s
def execRailOutOfRegulation (rail : Nat) (s : State) : State := if s.board.rails || s.board.trip then powerFault 3 rail s else s
def execInputOvercurrent (s : State) : State := if s.board.input then powerFault 4 0 s else s
def execConverterOvertemperature (s : State) : State := if s.board.input then powerFault 5 0 s else s

/-- THERMTRIP: a junction (die 0 to 7, 8 the hub) at 115 °C; latched in hardware, also where a POWER_FAULT came first (R454). -/
def execThermtrip (d : Nat) (s : State) : State :=
  if !s.board.rails && !s.board.powerFault then s
  else
    let s := wr (wr s .thmH thm_TRIP_LATCH (1 + 2 * d)) .pwr pwr_FAULT_INFO 6
    railsOff { s with board := { s.board with trip := true, alert := s.board.alert ||| 4 } }

/-- FAULT_LATCH_CLEAR: PWR_EN has been low for 100 ms; the THERMTRIP latch waits for every junction to be below 100 °C. -/
def execFaultLatchClear (cool : Bool) (s : State) : State :=
  if s.board.pwrEn then s
  else
    let s := if s.board.trip && cool then wr s .thmH thm_TRIP_LATCH 0 else s
    { s with board := { s.board with powerFault := false, trip := s.board.trip && !cool } }

/-- VOLTAGE_EXCURSION: below 60 V (false) or above 80 V (true), the module running on. -/
def execVoltageExcursion (high : Bool) (s : State) : State :=
  if !s.board.input then s
  else if high then raise (bump s .pwr pwr_OV_EVENTS 1) .pwr 2 else raise (bump s .pwr pwr_UV_EVENTS 1) .pwr 1

/-- The controller's other measurements of power: input voltage and current and the power of each VDD_CORE, which no operand gives (log
entry 4). -/
def measurePower (s : State) : State :=
  let put := fun o (s : State) => let q := drawNat s; wr q.2 .pwr o (q.1 % 65536)
  each (List.range 8) (fun d => put (pwr_CORE_POWER_d + 4 * d)) (put pwr_IIN (put pwr_VIN s))

/-- POWER_ALARM: a 1 ms average of the input power, W. -/
def execPowerAlarm (pin : Nat) (s : State) : State :=
  if !s.board.input then s
  else
    let s := measurePower s
    let s := wrMax (wr s .pwr pwr_PIN (pin % 65536)) .pwr pwr_PIN_MAX (pin % 65536)
    if rd s .pwr pwr_PIN_ALARM ≤ pin % 65536 then raise s .pwr 4 else s

/-- COLD_POWER_ON: the input rises through 55 V with PWR_EN, MOD_RESETn and PERSTn low (R443); the controller boots. -/
def execColdPowerOn (slotId : Nat) (s : State) : State :=
  let b : Board := { Board.up with pwrEn := false, modReset := true, perst := true, rails := false, slotId := slotId % 8, flash := s.board.flash }
  let s := clearModule .module { s with board := b }
  wr (wr (wr s .pwr pwr_FAULT_INFO 0) .thmH thm_TRIP_LATCH 0) (.kld 8) kld_NODE_CFG 0

/-- PWR_EN_ASSERT: the rails start from an input of at least 59 V (10 mV units) with no latch set; the rising PWR_EN is a module
reset. -/
def execPwrEnAssert (vin : Nat) (fails : List Nat) (s : State) : State :=
  let b := { s.board with pwrEn := true }
  if s.board.input && decide (5900 ≤ vin) && !s.board.powerFault && !s.board.trip then
    let s := clearModule .module { s with board := { b with rails := true } }
    bringUp fails (wr s .pwr pwr_VIN (vin % 65536))
  else { s with board := b }

/-- PWR_EN_DEASSERT. -/
def execPwrEnDeassert (s : State) : State := railsOff { s with board := { s.board with pwrEn := false } }

/-- STANDBY_RAIL_LOSS: the input is lost, and with it the standby island's state. -/
def execStandbyRailLoss (s : State) : State :=
  let s := railsOff s
  let s := dropRegs s (fun p o => match p with
    | .pwr | .thmH | .fus => true
    | .lcs => !bootReg .module p o
    | .kld _ => !bootReg .module p o || o == kld_NODE_CFG
    | _ => false)
  { s with board := { s.board with input := false, powerFault := false, trip := false, alert := 0, node := none, hot := [], fwNext := none, fwOld := none } }

/-! ## Resets (R395, R441, R442, R444) -/

/-- MOD_RESET_ASSERT: hub and dies are held in reset. -/
def execModResetAssert (s : State) : State := clearModule .module { s with board := { s.board with modReset := true } }

/-- MODULE_RESET: MOD_RESETn is released; SLOT_ID is sampled, the controller restarts, and the module comes up once PERSTn is
released as well. What the assertion has reset already and the controller has written since stays. -/
def execModuleReset (slotId : Nat) (fails : List Nat) (s : State) : State :=
  let b := { s.board with modReset := false, slotId := slotId % 8, fwNext := none }
  bringUp fails (clearModule (if s.board.modReset then .pcie else .module) { s with board := b })

/-- PCIE_CONVENTIONAL_RESET: PERSTn asserted and held (true), or a hot reset or link-down reset, which ends at once. -/
def execPcieConventionalReset (held : Bool) (fails : List Nat) (s : State) : State :=
  bringUp fails (clearModule .pcie { s with board := { s.board with perst := s.board.perst || held } })

/-- PERST_RELEASE. -/
def execPerstRelease (fails : List Nat) (s : State) : State :=
  if s.board.perst then bringUp fails { s with board := { s.board with perst := false } } else s

/-- SELF_TEST_COMPLETE, with the sites that fail as die × 384 + site. -/
def execSelfTestComplete (bad : List Nat) (s : State) : State :=
  if !hubUp s then s
  else
    let s := wrFld (wrFld s .hub hub_STATE 1 1 1) .hub hub_STATE 2 1 (b2n (!bad.isEmpty))
    hubReady (each bad (fun k s => addRepair s 3 (k / 384) (k % 384) 0 0 0) s)

/-! ## Thermal control (R431, R432, R450) -/

/-- A temperature as the 8 bits of its register, signed. -/
def degC (t : Int) : Nat := (t % 256).toNat

/-- The temperature that such a register holds. -/
def ofDegC (v : Nat) : Int := if v < 128 then v else (v : Int) - 256

/-- The tract temperatures of a die. -/
def tractTemps (temps : List Int) (d : Nat) : List Int := (List.range 24).map (fun t => temps.getD (24 * d + t) 0)
def hottest (l : List Int) : Int := match l with | [] => 0 | a :: l => l.foldl max a

/-- The registers of a die's THM page. -/
def dieTherm (temps : List Int) (d : Nat) (s : State) : State :=
  let l := tractTemps temps d
  let m := hottest l
  let p : Page := .thm d
  let s := each l.zipIdx (fun e s => wr s p (thm_TRACT_t + 4 * e.2) (degC e.1)) s
  let s := wr (wr s p thm_DIE_MAX (degC m)) p thm_DIE_HOT_TRACT ((l.findIdx? (· == m)).getD 0)
  let s := if ofDegC (rd s p thm_DIE_PEAK) < m then wr s p thm_DIE_PEAK (degC m) else s
  if (rd s .thmH thm_THROTTLE_C : Int) ≤ m then raise s p 1 else s

/-- THERMAL_LIMIT for a die or the hub that crosses 105 °C. -/
def thermalLimit (w : Nat) (t : Int) (s : State) : State :=
  let was := s.board.hot.contains w
  if 105 ≤ t then
    if was then s
    else
      let s := condition (bump s .thmH thm_LIMIT_COUNT 1) .thmH 0x12 2
      let s := if w < 8 then raise s (.kld (slotOf s w)) 2 else s
      { s with board := { s.board with hot := w :: s.board.hot, alert := s.board.alert ||| 1 } }
  else { s with board := { s.board with hot := s.board.hot.filter (· != w) } }

/-- The percentage of a slot after one step. -/
def pctStep (s : State) (tj th : Int) (pct : Nat) : Nat :=
  let thr : Int := rd s .thmH thm_THROTTLE_C
  let hbm : Int := rd s .thmH thm_HBM_THROTTLE_C
  let hyst : Int := rd s .thmH thm_HYST_C
  let step := rd s .thmH thm_STEP_PCT
  if 105 ≤ tj ∨ 95 ≤ th then 100
  else if (rd s .thmH hCTRL).testBit 0 = true ∧ (thr ≤ tj ∨ hbm ≤ th) then min 100 (pct + step)
  else if tj ≤ thr - hyst ∧ th ≤ hbm - hyst then pct - step
  else pct

/-- One slot's step: percentage, extension, and the slot's view on its KLD page. -/
def slotTherm (temps : List Int) (k : Nat) (s : State) : State :=
  let ds := diesOf s k
  let tj := hottest (ds.flatMap (tractTemps temps))
  let th := hottest (ds.map (fun d => (rd s (.mem d) mem_TEMP % 256 : Nat)))
  let pct := rd s .thmH (thm_EXT_PCT_s + 4 * k)
  let new := pctStep s tj th pct
  let p : Page := .kld k
  let s := wr (wr s .thmH (thm_EXT_PCT_s + 4 * k) new) p kld_SLOT_EXT_PCT new
  let s := wr (wr s p kld_SLOT_TEMP (degC tj)) p kld_SLOT_HBM_TEMP (degC th)
  let s := wr s p kld_SLOT_POWER (sumOf (ds.map (fun d => rd s .pwr (pwr_CORE_POWER_d + 4 * d) % 65536)))
  let s := if pct = 0 ∧ new ≠ 0 then raise (raise s .thmH 1) p 1 else s
  wr s (.tckG k) tck_THERM_EXT (min 1048576 (cdiv (rd s (.tckG k) tck_TICK_LEN % 2 ^ 21 * new) 100))

/-- AUTO_CALIBRATE (R450): a stack that moved 10 °C, not within a second of the last time, and not of a FAULT partition that
ticks. -/
def autoCal (d : Nat) (s : State) : State :=
  let x := getDie s d
  let t : Int := rd s (.mem d) mem_TEMP % 256
  let k := slotOf s d
  let moved := decide (10 ≤ t - x.calTemp ∨ t - x.calTemp ≤ -10)
  let calm := !policyFault s k || !(phase s k == 3 || phase s k == 4)
  if (rd s .thmH hCTRL).testBit 1 && moved && x.calWait == 0 && calm && !busy s (.mem d) then
    let s := calibrate (startLong s (.mem d) 0) d
    setDie s d { getDie s d with calWait := 100 }
  else setDie s d { x with calWait := x.calWait - 1 }

/-- THERMAL_STEP: the sensors of the tracts (24 of each die), the hub, inlet and outlet, signed °C. -/
def execThermalStep (temps : List Int) (hub inlet outlet : Int) (s : State) : State :=
  if !s.board.rails then s
  else
    let s := each (List.range 8) (dieTherm temps) s
    let s := wr (wr s .thmH thm_HUB_TEMP (degC hub)) .thmH thm_COOLANT (degC inlet + 256 * degC outlet)
    let s := wr s .thmH thm_MODULE_MAX (degC (hottest (hub :: (List.range 8).flatMap (tractTemps temps))))
    let s := each (List.range 8) (fun d s => thermalLimit d (hottest (tractTemps temps d)) s) s
    let s := thermalLimit 8 hub s
    let s := if 45 < inlet then raise { s with board := { s.board with alert := s.board.alert ||| 0x10 } } .thmH 4 else s
    let s := each (usedSlots s) (slotTherm temps) s
    if hubUp s then each (List.range 8) autoCal s else s

/-! ## Clocks (R434) -/

/-- A write of PWR.CORE_MHZ takes effect only while every slot in use is stopped and no page is busy. -/
def coreMhz (value : Nat) (s : State) : State :=
  let v := value % 2048
  if (usedSlots s).all (quiet s) && s.cmds.all (fun e => !e.2.long) && decide (600 ≤ v ∧ v ≤ 1000) && v % 25 == 0 then wr s .pwr pwr_CORE_MHZ v
  else s

/-- CORE_MHZ_WRITE. -/
def execCoreMhzWrite (fn value : Nat) (s : State) : State := hostWrite s fn .pwr pwr_CORE_MHZ (coreMhz value)

/-! ## Firmware (R441, R448, R449, R460): the commands of KLD page 8, which the host and the SMBus may give -/

/-- The largest image: 64 MiB − 68 KiB. -/
def fwMax : Nat := 2 ^ 26 - 69632

/-- FW_STAGE; `flashOk` is whether the flash write and its read-back succeed. A malformed header is refused before anything is written,
and an image that does not verify leaves the area invalid (log entry 67). -/
def fwStage (tag : Nat) (flashOk : Bool) (s : State) : State :=
  let p : Page := .kld 8
  let a := arg s p 0 + 2 ^ 32 * (arg s p 1 % 65536)
  let n := arg s p 2
  let tier := a / 2 ^ 46
  if n = 0 ∨ fwMax < n ∨ a % 4096 ≠ 0 ∨ ¬(tier = 1 ∨ tier = 2) then reject s p 2 tag
  else
    let r := physRead s a n
    if !Config.firmwareFormed r.2.1 then reject r.1 p 2 tag
    else
      let area := 1 - fwActive s
      let s := startLong r.1 p tag
      let version := Config.firmwareVersion r.2.1
      let s := { s with board := { s.board with flash := tput s.board.flash area ⟨version, false, n, Config.firmwareSign r.2.1, r.2.1⟩ } }
      let s := wr s p kld_STAGE_DONE (cdiv n 65536 % 65536)
      let v := rd s p kld_FW_STATE
      let bad := wr s p kld_FW_STATE (setFld (setFld v (1 + area) 1 0) 3 1 0)
      if !flashOk then finishLong bad p 0x14 5 8
      else if !Config.firmwareOk r.2.1 || !r.2.2.isEmpty then finishLong bad p 0x14 1 8
      else
        let s := wr s p (if area = 0 then kld_FW_VER_A else kld_FW_VER_B) version.toNat
        finishLong (wr s p kld_FW_STATE (setFld (setFld v (1 + area) 1 1) 3 1 1)) p 0 0 9

def execFwStage (fn tag : Nat) (flashOk : Bool) (s : State) : State := hostCmd s fn (.kld 8) (fwStage tag flashOk)

/-- FW_ACTIVATE. -/
def fwActivate (tag : Nat) (s : State) : State :=
  let area := arg s (.kld 8) 0 % 2
  if fwBit s (1 + area) then done { s with board := { s.board with fwNext := some area } } (.kld 8) tag else reject s (.kld 8) 4 tag

def execFwActivate (fn tag : Nat) (s : State) : State := hostCmd s fn (.kld 8) (fwActivate tag)

/-- An area becomes the active one: FW_STATE and the ACTIVE flags of the headers. -/
def fwStart (area : Nat) (s : State) : State :=
  let b := { s.board with flash := s.board.flash.map (fun e => (e.1, { e.2 with active := e.1 == area })) }
  wrFld { s with board := b } (.kld 8) kld_FW_STATE 0 1 area

/-- FW_SWITCH: at an idle point the controller restarts on the area that FW_ACTIVATE named. -/
def execFwSwitch (s : State) : State :=
  match s.board.fwNext with
  | none => s
  | some area =>
    if busy s .lcs || busy s .fus || (List.range 9).any (fun i => busy s (.kld i)) then s
    else
      let old := fwActive s
      let s := wrFld (fwStart area s) (.kld 8) kld_FW_STATE 3 1 0
      raise { s with board := { s.board with fwNext := none, fwOld := some old } } (.kld 8) 2

/-- FW_REVERT: the new firmware did not advance its heartbeat within 1 s. -/
def execFwRevert (s : State) : State :=
  match s.board.fwOld with
  | none => s
  | some old =>
    let s := wrFld (fwStart old s) (.kld 8) kld_FW_STATE 4 1 1
    raise { s with board := { s.board with fwOld := none, alert := s.board.alert ||| 8 } } (.kld 8) 4

/-- SEQ_UPDATE: the dies' partitions must be paused; the new versions are the flash's (log entry 67). -/
def seqUpdate (tag : Nat) (s : State) : State :=
  let p : Page := .kld 8
  let ds := (List.range 8).filter (fun d => (arg s p 0).testBit d)
  if ds.any (fun d => activePhase (phase s (slotOf s d))) then reject s p 3 tag
  else finishLong (each ds (fun d s => let w := drawWord s; wr w.2 p (kld_SEQ_VER_d + 4 * d) w.1.toNat) (startLong s p tag)) p 0 0 8

def execSeqUpdate (fn tag : Nat) (s : State) : State := hostCmd s fn (.kld 8) (seqUpdate tag)

end Sys2Proof.Machine
end

