-- ==== Sys2Proof/Machine/Host.lean ====
section
/-! DEFINITION. Machine/Host.lean: what the host does through the register window, the memory window and the configuration
space of each function, and the SMBus commands (R1 to R8, R393 to R423, R446, R447, with the access conditions of every
block's registers). Each meaning answers a next state. -/
namespace Sys2Proof.Machine

/-! ## What a page reads (R401 to R404, and the registers that other state shows) -/

/-- Block type codes (R412). -/
def pageType : Page → Nat
  | .hub => 1 | .kld _ => 2 | .pcx _ => 3 | .fld _ => 4 | .clv _ => 5 | .ckp _ => 6 | .tmt _ => 7 | .tckG _ => 8
  | .tckR _ => 0x18 | .smp _ => 9 | .lcs => 0xA | .fus => 0xB | .wipH => 0xC | .wip _ => 0xC | .pwr => 0xD | .thmH => 0xE
  | .thm _ => 0xE | .tke _ => 0xF | .stm _ => 0x10 | .gch _ => 0x11 | .mem _ => 0x12 | .pgt _ => 0x13 | .wkc _ _ => 0x14
  | .trc _ _ => 0x15 | .cor _ _ => 0x16 | .scb _ => 0x17 | .scbH => 0x17

/-- INSTANCE of a page (R402). -/
def pageInst : Page → Nat
  | .kld i | .pcx i | .fld i | .clv i | .ckp i | .tmt i | .tckG i => i
  | .wkc _ i => i
  | _ => 0

/-- The die of a die-region page. -/
def pageDie : Page → Option Nat
  | .tke d | .stm d | .gch d | .mem d | .pgt d | .wkc d _ | .tckR d | .smp d | .scb d | .wip d | .thm d | .trc d _
  | .cor d _ => some d
  | _ => none

/-- The opcodes that a page defines (R154, R186, R219, R223, R245, R249, R279, R281, R284, R322, R327, R359, R389, R392,
R451, R460). -/
def opcodes (s : State) : Page → List Nat
  | .tckG _ => [1, 2, 3, 4] | .tmt i => if i < 8 then [1, 2, 3, 4, 5, 0x21] else [1] | .tke _ => [1] | .stm _ => [1, 2]
  | .gch _ => [1, 2, 3] | .mem _ => [1] | .pgt d => if homeDie s (slotOf s d) = d then [1, 2, 3, 4, 5, 6, 7, 8, 9] else []
  | .smp _ => [1] | .trc _ _ => [1] | .fld i => if i < 16 then [1] else [] | .clv _ => [1, 2] | .ckp _ => [1, 2, 3, 4, 5]
  | .fus => [1, 2] | .lcs => [1] | .kld i => if i < 8 then [] else [1, 2, 3] | _ => []

/-- Whether a page has a long operation (R409), and whether it keeps error counts (R361 to R370). -/
def hasLong : Page → Bool
  | .tmt _ | .tckG _ | .mem _ | .trc _ _ | .ckp _ | .fus | .lcs | .wip _ | .wipH => true
  | .fld i => decide (i < 16)
  | .kld i => decide (i = 8)
  | _ => false
def hasEcc : Page → Bool
  | .cor _ _ | .gch _ | .tke _ | .mem _ | .pgt _ | .hub | .trc _ _ => true
  | _ => false

/-- PAGE_ID and PAGE_CAP. -/
def pageId (p : Page) : Nat := 1 + 256 * pageInst p + 65536 * pageType p
def pageCap (s : State) (p : Page) : Nat :=
  let index := match p with | .cor _ x => x | .trc _ t => t | _ => pageInst p
  b2n (!(opcodes s p).isEmpty) + 2 * b2n (hasLong p) + 4 * b2n (hasEcc p) + 8 * b2n (evtOf p != 0)
    + 256 * (pageDie p).getD 0 + 2048 * b2n (pageDie p).isNone + 4096 * index + 2 ^ 24 * ownerOf s p

/-- CTRL as it reads: a PGT page shows its home page's (R217). -/
def ctrlView (s : State) (p : Page) : Nat :=
  match p with
  | .pgt d => rd s (homePgt s (slotOf s d)) hCTRL
  | _ => rd s p hCTRL

/-- STATUS.ENABLED. -/
def pageEnabled (s : State) (p : Page) : Bool :=
  match p with
  | .tke _ | .stm _ | .gch _ | .pgt _ | .smp _ | .clv _ | .ckp _ | .scb _ | .scbH => (ctrlView s p).testBit 0
  | .fld i => if i < 16 then (rd s p hCTRL).testBit 0 else true
  | .cor d x => roleOf s d x != 2
  | _ => true

def statusView (s : State) (p : Page) : Nat :=
  let v := rd s p hSTATUS
  b2n (busy s p) + 2 * fld v 1 1 + 4 * b2n (pageEnabled s p) + 8 * b2n (cmdActive s p) + 256 * fld v 8 8

/-- Registers of a core page (R107). A core that has stopped its task on an error runs none (R84; DEDUCED, log entry 10). -/
def corView (s : State) (d site o : Nat) : Nat :=
  let k := 384 * d + site
  let c := getCore s k
  let run := if c.halted then none else c.run
  if o = cor_STATE then
    roleOf s d site + 16 * (logicalOf s d site).getD 0 + 65536 * b2n run.isSome
      + 2 ^ 17 * (match run with | some r => b2n r.speculative | none => 0) + 2 ^ 18 * b2n c.halted
  else if o = cor_PC then c.pc % 4096
  else if o = cor_TASK then (match run with | some r => r.task | none => 0)
  else if o = cor_STALL then c.stall
  else if o = cor_RULE_EN then sumOf ((List.range 32).map (fun r => b2n (tget Rule.none c.rules r).enable * 2 ^ r))
  else if cor_SEM_n ≤ o ∧ o < cor_SEM_n + 128 then tget 0 c.sem ((o - cor_SEM_n) / 4)
  else rd s (.cor d site) o

/-- The shadow table entry that TKE.SHD_SEL selects, if its core exists (R185). -/
def shdSel (s : State) (d : Nat) : Option (Nat × Nat) :=
  let v := rd s (.tke d) tke_SHD_SEL
  (coreOf s d (v % 512)).map (fun k => (k, fld v 16 2))

/-- Registers of a task engine page (R185). -/
def tkeView (s : State) (d o : Nat) : Nat :=
  let x := getDie s d
  let count := fun (f : Ctx → Bool) => (x.ctxs.filter (fun e => f e.2)).length
  let sel := getCtx s d (rd s (.tke d) tke_CTX_SEL)
  -- a context that nothing has loaded holds zero bytes
  let held := fun (v : Nat) => if (tfind x.ctxs (rd s (.tke d) tke_CTX_SEL)).isSome then v else 0
  let shd := match shdSel s d with | some q => tget Shadow.none (getCore s q.1).shadows q.2 | none => Shadow.none
  if o = tke_CONTEXTS then x.loaded
  else if o = tke_RELEASED then count (·.released)
  else if o = tke_READY then count (fun c => c.state == .ready || c.state == .yielded)
  else if o = tke_RUNNING then count (fun c => c.state == .running)
  else if o = tke_SPEC then count specNow
  else if tke_CTX_DATA_n ≤ o ∧ o < tke_CTX_DATA_n + 64 then held (bytesAt (descBytes sel) (o - tke_CTX_DATA_n) 4)
  else if tke_CTX_RUN_n ≤ o ∧ o < tke_CTX_RUN_n + 128 then held (bytesAt (runBytes sel.run) (o - tke_CTX_RUN_n) 4)
  else if o = tke_SHD_CFG then shd.base % 4096 + 4096 * (shd.slabsM1 % 256) + 2 ^ 20 * shd.kind
  else if o = tke_SHD_STATE then ((List.range 256).filter (fun i => shd.written.testBit i)).length + 4096 * b2n shd.holder.isSome + 65536 * (shd.holder.getD 0)
  else rd s (.tke d) o

/-- Registers of a PGT page (R218); those marked "home" read zero elsewhere. -/
def pgtHomeReg (o : Nat) : Bool :=
  decide ((pgt_T0_LOW ≤ o ∧ o < pgt_RUNAHEAD_DROP) ∨ o = pgt_CMD_DROPPED ∨ (pgt_QUOTA_j ≤ o ∧ o < 0x380))
def pgtView (s : State) (d o : Nat) : Nat :=
  let k := slotOf s d
  let home := homeDie s k
  let x := getSlot s k
  if o = pgt_HOME then home + 256 * b2n (home == d)
  else if pgtHomeReg o && home != d then 0
  else if pgt_FREE_T0 ≤ o ∧ o ≤ pgt_FREE_T2 then freeSectors x ((o - pgt_FREE_T0) / 4)
  else if pgt_POOL_T0 ≤ o ∧ o ≤ pgt_POOL_T2 then poolSectors x ((o - pgt_POOL_T0) / 4)
  else if o = pgt_QUOTA_SUM then quotaSum s k
  else if pgt_QUOTA_j ≤ o ∧ o < 0x380 ∧ o % 8 = 4 then usedPages x ((o - pgt_USED_j) / 8)
  else rd s (.pgt d) o

/-- Registers of a stream or gather page (R244, R248). -/
def engView (s : State) (d : Nat) (g : Bool) (o : Nat) : Nat :=
  let p := engPage d g
  let x := getDesc s d g (rd s p stm_DESC_SEL % 1024)
  if o = stm_DESC_STATUS then
    x.state + 4 * b2n x.shadow.isSome + 16 * (x.last % 16)
      + 65536 * (match x.arm with | some a => if g then 0 else a.req.arm % 65536 | none => 0)
  else if stm_DESC_DATA_n ≤ o ∧ o < stm_DESC_DATA_n + 32 then bytesAt x.bytes (o - stm_DESC_DATA_n) 4
  else if o = stm_ACTIVE && !g then (movingArms s d).length
  else rd s p o

/-- Registers of a partition page (R278). -/
def tmtView (s : State) (k o : Nat) : Nat :=
  let x := getSlot s k
  let j := rd s (.tmt k) tmt_JOB_SEL % 64
  let y := getJob s k j
  let n := layoutN s
  if o = tmt_STATE then rd s (.tmt k) o / 256 * 256 + (match x.current with | some i => i % 64 + 64 | none => 0)
  else if o = tmt_OWN_DIES then sumOf ((diesOf s k).map (2 ^ ·))
  else if o = tmt_OWN_PORTS then portMask s k
  else if o = tmt_OWN_GROUPS then k * (4096 / n) + 65536 * (4096 / n)
  else if o = tmt_TT_LO then ttEntry s k (rd s (.tmt k) tmt_TT_SEL % 256) % 2 ^ 32
  else if o = tmt_TT_HI then ttEntry s k (rd s (.tmt k) tmt_TT_SEL % 256) / 2 ^ 32
  else if o = tmt_JOB_CFG then y.share % 65536 + 65536 * b2n (y.state != .absent) + 2 ^ 17 * b2n y.ctxValid
  else if o = tmt_JOB_CTX then y.ctxOff
  else if o = tmt_JOB_STATE then
    let ph := if x.current = some j then phase s k else match y.saved with | some v => v.phase | none => 0
    y.state.code + 16 * ph + 128 * b2n (eligible s k j)
  else if o = tmt_ACCT_LO then y.acct % 2 ^ 32
  else if o = tmt_ACCT_HI then y.acct / 2 ^ 32
  else if o = tmt_PASS_LO then y.pass % 2 ^ 32
  else if o = tmt_PASS_HI then y.pass / 2 ^ 32
  else rd s (.tmt k) o

/-- Registers of a collective page (R326). An operation whose entry cannot be read shows zero. -/
def clvView (s : State) (k o : Nat) : Nat :=
  if clv_GRP_DATA_n ≤ o ∧ o < clv_GRP_DATA_n + 32 then
    let g := rd s (.clv k) clv_GRP_SEL % 4096
    if inGroups s k g then bytesAt (groupOf s k g) (o - clv_GRP_DATA_n) 4 else 0
  else if o = clv_OP_STATE then
    match opVa s k (rd s (.clv k) clv_OP_SEL % 4096) with
    | some va =>
      (match access s k 8 va 64 false with
       | .ok => let e := (opRead s k va).2; opPosts e + 65536 * opRun e
       | _ => 0)
    | none => 0
  else if o = clv_ACTIVE then (getSlot s k).runs.length
  else rd s (.clv k) o

/-- Registers of a sampler page (R283). The lowest logical core of those with the largest BUSY count is TOP_CORE. -/
def smpView (s : State) (d o : Nat) : Nat :=
  let x := getDie s d
  let sel := rd s (.smp d) smp_HIST_SEL
  let l := sel % 512
  let kind := fld sel 9 3
  if o = smp_BUSY then tget 0 x.busyCnt l
  else if o = smp_TOP_CORE then
    (x.busyCnt.foldl (fun (b : Nat × Nat) e => if b.2 < e.2 then e else b) (0, 0)).1
  else if smp_HIST_BIN_n ≤ o ∧ o < smp_HIST_BIN_n + 64 then
    (if kind < 6 then tget 0 x.hist ((l * 6 + kind) * 16 + (o - smp_HIST_BIN_n) / 4) else 0)
  else rd s (.smp d) o

/-- CRC-16 of R376: polynomial 0x1021, initial value 0xFFFF, most significant bit first. -/
def crc16Byte (c : Nat) (b : Byte) : Nat :=
  iter 8 (fun _ c => if c.testBit 15 then (2 * c % 65536) ^^^ 0x1021 else 2 * c) (c ^^^ (b.toNat * 256))
def crc16 (bs : List Byte) : Nat := bs.foldl crc16Byte 0xFFFF

/-- An entry of the field-repair log as 16 bytes. -/
def repairBytes (r : Repair) : List Byte :=
  let b := toBytes 1 r.kind ++ toBytes 1 r.die ++ toBytes 2 r.site ++ toBytes 1 r.mac ++ toBytes 1 0 ++ toBytes 2 r.index
    ++ toBytes 4 r.hword ++ toBytes 2 r.seq
  b ++ toBytes 2 (crc16 b)

/-- Registers of the fuse page (R388). -/
def fusView (s : State) (o : Nat) : Nat :=
  if o = fus_LOG_COUNT then s.repairs.length
  else if o = fus_EXHAUSTED then exhausted s
  else if o = fus_LOG_PENDING then (s.repairs.filter (·.pending)).length
  else if o = fus_RETIRED then
    sumOf ((List.range 8).map (fun d => sumOf ((List.range 24).map (fun t =>
      sumOf ((List.range 16).map (fun i => b2n ((rd s (.trc d t) trc_SITE_STATE).testBit i)))))))
  else if fus_LOG_DATA_n ≤ o ∧ o < fus_LOG_DATA_n + 16 then
    (match s.repairs[rd s .fus fus_LOG_SEL]? with
     | some r => bytesAt (repairBytes r) (o - fus_LOG_DATA_n) 4
     | none => 0)
  else rd s .fus o

/-- PCX registers that read zero and ignore writes on pages 1 to 8 (R422). -/
def pcxPfOnly (o : Nat) : Bool := o == pcx_LINK || o == pcx_MW_SLOT || o == pcx_LINK_REPLAY || o == pcx_FEC_CORR

/-- Registers of a PCX page (R422). -/
def pcxView (s : State) (i o : Nat) : Nat :=
  if o = pcx_FUNC then i + 16 * (if i = 0 then 15 else i - 1) + 256 * b2n (i != 0 && slotUsed s (i - 1))
  else if pcxPfOnly o && i != 0 then 0
  else if o = pcx_TAGS then (Config.pcieTags (layoutN s) i).toNat
  else if pcx_SRC_PEND_n ≤ o ∧ o < pcx_SRC_PEND_n + 32 then
    let n := (o - pcx_SRC_PEND_n) / 4
    sumOf ((List.range 32).map (fun b => b2n (srcPending s (32 * n + b) && ownsSrc s i (32 * n + b)) * 2 ^ b))
  else if pcx_TRC_PEND_d ≤ o ∧ o < pcx_TRC_PEND_d + 32 then
    let d := (o - pcx_TRC_PEND_d) / 4
    sumOf ((List.range 24).map (fun t => b2n (pagePending s (.trc d t) && owns s i (.trc d t)) * 2 ^ t))
  else if pcx_CORE_PEND_d_w ≤ o ∧ o < pcx_CORE_PEND_d_w + 384 then
    let d := (o - pcx_CORE_PEND_d_w) / 48
    let w := (o - pcx_CORE_PEND_d_w) % 48 / 4
    sumOf ((List.range 32).map (fun b => b2n (pagePending s (.cor d (32 * w + b)) && owns s i (.cor d (32 * w + b))) * 2 ^ b))
  else rd s (.pcx i) o

/-- The leader's count within a tick as TCK.RESIDUE shows it (R136, R138, R155): it stands still, or it runs and is open (log entry 4). -/
def residueView (s : State) (k : Nat) : Nat :=
  (if counting s k then Config.freeNat s.free
    else match (getTick s k).count with | .known n => n | .free i => Config.freeNat i) % 2 ^ 22

/-- Registers of a tick generator page (R155). -/
def tckView (s : State) (k o : Nat) : Nat :=
  if o = tck_RESIDUE then residueView s k
  else rd s (.tckG k) o

/-- Whether a page is the tick generator or timetable page of an unused slot, which takes no write (R251). -/
def spare (s : State) (p : Page) : Bool :=
  match p with
  | .tckG k => !slotUsed s k
  | .tmt k => decide (k < 8) && !slotUsed s k
  | _ => false

/-- Its registers read their reset values, but for the result of a command that it refused; job 0 of a slot is registered. -/
def spareView (s : State) (p : Page) (o : Nat) : Nat :=
  let job := match p with | .tmt _ => true | _ => false
  if o = hRESULT then rd s p o
  else if job && o == tmt_JOB_CFG then 0x10001
  else if job && o == tmt_JOB_STATE then 2
  else (regDefault (pageBase p + o)).toNat

/-- A word of a page as it reads. -/
def regView (s : State) (p : Page) (o : Nat) : Nat :=
  if o = 0 then pageId p
  else if o = 4 then pageCap s p
  else if o = hSTATUS then statusView s p
  else if spare s p then spareView s p o
  else if o = hCTRL then ctrlView s p
  else if o = hCMD ∨ o = hFORCE then 0
  else if o < 0x100 ∨ 0x800 ≤ o then rd s p o
  else match p with
    | .cor d x => corView s d x o
    | .tke d => tkeView s d o
    | .pgt d => pgtView s d o
    | .stm d => engView s d false o
    | .gch d => engView s d true o
    | .tmt k => if k < 8 then tmtView s k o else rd s p o
    | .tckG k => tckView s k o
    | .lcs =>
      if o = lcs_NONCE_LO then (Config.nonce s.board.nonce).toNat % 2 ^ 32
      else if o = lcs_NONCE_HI then (Config.nonce s.board.nonce).toNat / 2 ^ 32
      else rd s p o
    | .clv k => clvView s k o
    | .smp d => smpView s d o
    | .mem d => if o = mem_TAGS_HELD then min 512 (sumOf ((movingArms s d).map (·.tags)) + moveTags s d) else rd s p o
    | .fld i =>
      if i < 16 then (if o = fld_STATE then setFld (rd s p o) 4 4 (if portState s i = 0 then 15 else (portSlot s i).getD 15) else rd s p o)
      else if o = fld_MODULE ∨ o = fld_TORUS then rd s (.fld 16) o else rd s p o
    | .fus => fusView s o
    | .pwr => if o = pwr_RAIL_STATUS then (if s.board.rails then 0xFFFF else 0) else rd s p o
    | .pcx i => pcxView s i o
    | .kld i => if (if i < 8 then decide (o < 0x180) else decide (0x180 ≤ o ∧ o < 0x190)) then 0 else rd s p o
    | _ => rd s p o

/-! ## Reads (R4, R5, R397, R398) -/

/-- Whether a read shows a count that runs: the next open number. -/
def drawsCount (s : State) (p : Page) (o : Nat) : Bool :=
  match p with
  | .tckG k => slotUsed s k && counting s k && o == tck_RESIDUE
  | _ => false

/-- A read, with its effect: an RC register is cleared (R5). -/
def readWord (s : State) (p : Page) (o : Nat) : State × Nat :=
  let v := regView s p o
  if drawsCount s p o then ({ s with free := s.free + 1 }, v)
  else
  match rowAt p o with
  | some r => if r.acc = .rc then (wr s p o 0, v) else (s, v)
  | none => (s, v)

/-- Entries of a function's MSI-X table (R396), and the offsets of table and PBA. -/
def msixEntries (fn : Nat) : Nat := if fn = 0 then 2048 else 256
def msixTable : Nat := 0x03000000
def msixPba : Nat := 0x03008000

/-- A 32-bit read at an offset of the register window. -/
def windowReadWord (s : State) (fn off : Nat) : State × Nat :=
  let n := msixEntries fn
  if fn != 0 && layoutRuns s then (foreign s fn, 0)
  else if msixTable ≤ off ∧ off < msixTable + 16 * n then
    let i := (off - msixTable) / 4
    (s, (tget (if i % 4 = 3 then 1 else 0) (getFunc s fn).table i).toNat)
  else if msixPba ≤ off ∧ off < msixPba + n / 8 then
    (s, sumOf ((List.range 32).map (fun b => b2n (tget false (getFunc s fn).pba (8 * (off - msixPba) + b)) * 2 ^ b)))
  else
    match pageOf off with
    | none => (if fn = 0 then s else foreign s fn, 0)
    | some p =>
      if !owns s fn p then (foreign s fn, 0)
      else if !answers s p && off % 4096 != 0 then (s, 0)
      else readWord s p (off % 4096)

/-- A request that R397 refuses. -/
def badAccess (s : State) (fn : Nat) : State := raise (bump s (.pcx fn) pcx_BAD_ACCESS 1) (.pcx fn) 4

/-- Whether R397 takes a request: one naturally aligned word of 4 or 8 bytes with every byte enabled. -/
def wordAccess (off len : Nat) (full : Bool) : Bool := full && (len == 4 || len == 8) && off % len == 0

/-- What a read of `len` bytes of the register window by a function that the module hears does and answers. -/
def registerRead (fn off len : Nat) (full : Bool) (s : State) : State :=
  if wordAccess off len full then
    let q := (List.range (len / 4)).foldl (fun (q : State × List Byte) i =>
      let r := windowReadWord q.1 fn (off + 4 * i)
      (r.1, q.2 ++ toBytes 4 r.2)) (s, [])
    { q.1 with answer := q.2 }
  else { badAccess s fn with answer := List.replicate len 255 }

/-! ## Writes (R4, R6, and the conditions of each block) -/

/-- A source is re-evaluated after an accepted write (R415). -/
def reevaluate (s : State) (p : Page) : State := if srcPending s (sourceOf p) then deliver s (sourceOf p) else s

/-- A write of EVT_STATUS clears the bits written as 1. -/
def evtClear (s : State) (p : Page) (v : Nat) : State :=
  let old := rd s p hEVT
  reevaluate (wr s p hEVT (old - (old &&& v))) p

/-- A write of EVT_ENABLE. -/
def evtEnable (s : State) (p : Page) (v : Nat) : State := reevaluate (wr s p hENABLE (v &&& evtOf p)) p

/-- A write of EVT_FORCE. -/
def evtForce (s : State) (p : Page) (v : Nat) : State := raise s p v

/-- One half of a vector map word (R422): written if the page's function owns its source and has its vector; a message if the
source is pending (R415). -/
def vmapHalf (i n h v : Nat) (s : State) : State :=
  let src := 2 * n + h
  let e := fld v (16 * h) 16 &&& 0x87FF
  if ownsSrc s i src && decide (e % 2048 < msixEntries i) then
    let s := wrFld s (.pcx i) (pcx_VMAP_n + 4 * n) (16 * h) 16 e
    if srcPending s src then deliverTo src i s else s
  else s

def vmapWrite (s : State) (i n v : Nat) : State := vmapHalf i n 1 v (vmapHalf i n 0 v s)

/-- The pages whose CTRL, and registers bound to it, wait for a phase that is not ARMED, RUN or DRAIN. -/
def phaseFree (s : State) (p : Page) : Bool :=
  match p with
  | .tckG k => quiet s k
  | .clv k => !activePhase (phase s k)
  | .tke d | .stm d | .gch d | .pgt d | .wkc d _ => !activePhase (phase s (slotOf s d))
  | .ckp k => ckPhase s k == 0
  | _ => true

/-- The shadow table takes TKE.SHD_CFG while ENABLE = 0; a second DEFER region of a core has no effect (R173). -/
def shdWrite (s : State) (d v : Nat) : State :=
  match shdSel s d with
  | none => s
  | some q =>
    let c := getCore s q.1
    let x : Shadow := ⟨fld v 0 12, fld v 12 8, fld v 20 2, 0, 0, none⟩
    if (rd s (.tke d) hCTRL).testBit 0 || (x.kind == 2 && c.shadows.any (fun e => e.2.kind == 2 && e.1 != q.2)) then s
    else setCore s q.1 { c with shadows := tset Shadow.none c.shadows q.2 x }

/-- A word of a stream or gather descriptor (R244, R248). -/
def descWrite (s : State) (d : Nat) (g : Bool) (n v : Nat) : State :=
  let i := rd s (engPage d g) stm_DESC_SEL % 1024
  let x := getDesc s d g i
  let b := x.bytes ++ List.replicate (32 - x.bytes.length) 0
  let b := b.take (4 * n) ++ toBytes 4 v ++ b.drop (4 * n + 4)
  setDesc s d g i { x with bytes := if b.all (· == 0) then [] else b }

/-- What a plain RW register of a page accepts, by value and state; `v` has its reserved bits cleared. -/
def regAccepts (s : State) (p : Page) (o v : Nat) : Bool :=
  match p with
  | .tckG k =>
    slotUsed s k && (if o = hCTRL ∨ o = tck_PEERS then quiet s k
    else if o = tck_TICK_LEN then quiet s k && decide (4096 ≤ v ∧ v ≤ 1048576)
    else if o = tck_STRETCH_LIMIT then quiet s k && decide (v ≤ 1048576)
    else if o = tck_THERM_EXT then decide (v ≤ 1048576)
    else if o = tck_ALIGN then
      quiet s k && decide (16 ≤ v) && (diesOf s k).all (fun d => decide (rd s (.tckR d) tck_RX_MARKER_LAT ≤ v))
    else if o = tck_WINDOW then quiet s k && v != 0
    else if o = tck_DEPTH then quiet s k && decide (1 ≤ v ∧ v ≤ 64)
    else true)
  | .tke d =>
    if o = hCTRL then phaseFree s p
    else if (tke_FMT_CLASS_n_A ≤ o ∧ o < 0x680) ∨ o = tke_SR_SEED_LO ∨ o = tke_SR_SEED_HI then !(rd s (.tke d) hCTRL).testBit 0
    else true
  | .pgt d =>
    let home := homeDie s (slotOf s d) == d
    if o = hCTRL then home && phaseFree s p
    else if o = pgt_AGE_PERIOD then v != 0
    else if o = pgt_T0_LOW then home && phaseFree s p && decide (v ≤ rd s p pgt_T0_HIGH)
    else if o = pgt_T0_HIGH then home && phaseFree s p && decide (rd s p pgt_T0_LOW ≤ v)
    else if o = pgt_T1_LOW then home && phaseFree s p && decide (v ≤ rd s p pgt_T1_HIGH)
    else if o = pgt_T1_HIGH then home && phaseFree s p && decide (rd s p pgt_T1_LOW ≤ v)
    else true
  | .stm _ =>
    if o = hCTRL then phaseFree s p
    else if o = stm_RA_TAG_LIMIT then decide (v ≤ 512)
    else true
  | .gch _ =>
    if o = hCTRL then phaseFree s p
    else if o = gch_RA_WAYS then decide (v ≤ 8)
    else true
  | .tmt k =>
    if 8 ≤ k then true
    else slotUsed s k && (if o = tmt_FRAME_LEN then !ttRun s k && decide (1 ≤ v ∧ v ≤ 256)
    else if o = tmt_IDLE_UNIT then !ttRun s k && decide (4096 ≤ v ∧ v ≤ 1048576)
    else true)
  | .clv k =>
    if o = hCTRL then phaseFree s p
    else if clv_OP_BASE_j_LO ≤ o ∧ o < 0x400 then phaseFree s p || (getSlot s k).current != some ((o - clv_OP_BASE_j_LO) / 8)
    else true
  | .ckp k =>
    if o = hCTRL ∨ (ckp_AREA_OFF ≤ o ∧ o ≤ ckp_HOST_AREA_SIZE) then phaseFree s p
    else if o = ckp_CURSOR then quiet s k
    else if o = ckp_REPLAY_LIMIT then v != 0
    else true
  | .scb _ | .scbH => if o = scb_SRAM_PERIOD ∨ o = scb_HBM_PERIOD then v != 0 else true
  | .thmH =>
    if o = thm_THROTTLE_C then decide (60 ≤ v ∧ v ≤ 100)
    else if o = thm_HYST_C then decide (1 ≤ v)
    else if o = thm_STEP_PCT then decide (1 ≤ v ∧ v ≤ 25)
    else if o = thm_HBM_THROTTLE_C then decide (60 ≤ v ∧ v ≤ 94)
    else true
  | .fld i =>
    if 16 ≤ i ∧ (o = fld_MODULE ∨ o = fld_TORUS) then (List.range 16).all (fun q => portState s q == 0 || portState s q == 3)
    else true
  | .pcx i => !(pcxPfOnly o && i != 0)
  | _ => true

/-- The registers whose write outside its phase is counted in WRITE_REFUSED (R244, R248), with the count. -/
def countedReg (p : Page) (o : Nat) : Option Nat :=
  match p with
  | .stm _ => if (stm_DESC_DATA_n ≤ o ∧ o < stm_DESC_DATA_n + 32) ∨ o = stm_RA_TAG_LIMIT then some stm_WRITE_REFUSED else none
  | .gch _ =>
    if (gch_GDESC_DATA_n ≤ o ∧ o < gch_GDESC_DATA_n + 32) ∨ (gch_RA_WAYS ≤ o ∧ o ≤ gch_GEN_TBL_HI) then some gch_WRITE_REFUSED
    else none
  | _ => none

/-- A write whose value stands in other state than the register table, or has a further effect; none for a plain one. -/
def regEffect (s : State) (p : Page) (o v : Nat) : Option State :=
  match p with
  -- GUARD stays ALIGN and the largest DONE latency together (R131)
  | .tckG k =>
    if o = tck_ALIGN then some (wr (wr s p o v) p tck_GUARD ((v + (rd s (.tckG k) tck_GUARD - rd s (.tckG k) tck_ALIGN)) % 2 ^ 13)) else none
  -- a write of VALUE counts as a reload (R181, R182)
  | .wkc d i =>
    if 0x100 ≤ o ∧ o < 0x500 ∧ o % 16 = 0 then
      let x := getDie s d
      some (wr (setDie s d { x with firstOut := tset false x.firstOut (64 * i + (o - 0x100) / 16) false }) p o v)
    else none
  | .tke d => if o = tke_SHD_CFG then some (shdWrite s d v) else none
  | .stm d =>
    if stm_DESC_DATA_n ≤ o ∧ o < stm_DESC_DATA_n + 32 then some (descWrite s d false ((o - stm_DESC_DATA_n) / 4) v) else none
  | .gch d =>
    if gch_GDESC_DATA_n ≤ o ∧ o < gch_GDESC_DATA_n + 32 then some (descWrite s d true ((o - gch_GDESC_DATA_n) / 4) v) else none
  | .tmt k =>
    let i := rd s p tmt_TT_SEL % 256
    let x := getSlot s k
    let e := tget 0 x.tt i
    let j := rd s p tmt_JOB_SEL % 64
    let y := getJob s k j
    if 8 ≤ k then none
    else if o = tmt_TT_LO then
      some (if ttRun s k then s else setSlot s k { x with tt := tset 0 x.tt i (BitVec.ofNat 64 (e.toNat / 2 ^ 32 * 2 ^ 32 + v)) })
    else if o = tmt_TT_HI then
      some (if ttRun s k then s else setSlot s k { x with tt := tset 0 x.tt i (BitVec.ofNat 64 (e.toNat % 2 ^ 32 + 2 ^ 32 * v)) })
    else if o = tmt_JOB_CTX then
      some (if y.state = .saved ∨ y.state = .current then s else setJob s k j { y with ctxOff := v })
    else none
  | .fld i =>
    if i < 16 then (if o = hCTRL then some (portCtrl (wr s p o v) i) else none)
    else if o = fld_MODULE ∨ o = fld_TORUS then some (wr s (.fld 16) o v)
    else
      let k := i - 16
      let x := getSlot s k
      if o = fld_EXC_SEL then
        let e := tget (0, 0, 0) x.exc v
        some (wr (wr (wr (wr s p o v) p fld_EXC_MATCH e.1) p fld_EXC_MASK e.2.1) p fld_EXC_ACTION e.2.2)
      else if o = fld_EXC_ACTION then
        let e := (rd s p fld_EXC_MATCH, rd s p fld_EXC_MASK, v)
        some (wr (setSlot s k { x with exc := tset (0, 0, 0) x.exc (rd s p fld_EXC_SEL % 256) e }) p o v)
      else none
  | _ => none

/-- A write of a register by its row (R4): RW stores the defined bits where the block takes the value; RO and RC ignore it. -/
def regWrite (s : State) (p : Page) (o v : Nat) : State :=
  match rowAt p o with
  | none => s
  | some r =>
    if r.acc ≠ .rw then s
    else
      let w := v % 2 ^ 32 &&& r.mask
      match countedReg p o, phaseFree s p with
      | some c, false => bump s p c 1
      | _, _ =>
        if !regAccepts s p o w then s
        else match regEffect s p o w with
          | some t => t
          | none => wr s p o w

/-- Host writes to a work counter page take effect only outside ARMED, RUN and DRAIN (R182). -/
def wkcGate (s : State) (p : Page) (f : State → State) : State :=
  match p with
  | .wkc _ _ => if phaseFree s p then f s else bump s p wkc_WRITE_REFUSED 1
  | _ => f s

/-- An opcode that the page does not define (R405); a page with a command in progress ignores it (R407). -/
def undefinedOp (s : State) (p : Page) (op tag : Nat) : State :=
  if (opcodes s p).contains op then s
  else if cmdActive s p then
    match p with
    | .pgt _ => bump s p pgt_CMD_DROPPED 1
    | _ => bump s .hub hub_REJECT_COUNT 1
  else
    match p with
    | .pgt d =>
      let k := slotOf s d
      reject s p (if homeDie s k ≠ d then 1 else if pgtEnabled s k then 0 else 9) tag
    | _ => reject s p 0 tag

/-- UNDEFINED_OPCODE. -/
def execUndefinedOpcode (fn off op tag : Nat) (s : State) : State :=
  match pageOf off with
  | none => s
  | some p => hostCmd s fn p fun s => wkcGate s p fun s => undefinedOp s p op tag

/-- LOAD as a write to CMD starts it: the image's bytes are those at its address (log entry 21). -/
def loadWritten (fn k tag : Nat) (s : State) : State :=
  let a := arg s (.tmt k) 0 + 2 ^ 32 * (arg s (.tmt k) 1 % 65536)
  execLoad fn k (Config.imageOf (memRead s a (arg s (.tmt k) 2))) tag s

/-- A write to CMD starts the command that its opcode names (R405); whether a flash write succeeds is drawn (log entry 4). -/
def cmdWrite (fn : Nat) (p : Page) (v : Nat) (s : State) : State :=
  let op := v % 256
  let tag := v / 65536 % 65536
  if !(opcodes s p).contains op then hostCmd s fn p fun s => wkcGate s p fun s => undefinedOp s p op tag
  else match p, op with
    | .tckG k, 1 => execStart fn k tag s
    | .tckG k, 2 => execStop fn k tag s
    | .tckG k, 3 => execEpochSet fn k tag s
    | .tckG k, 4 => execTckCalibrate fn k tag s
    | .tmt 8, 1 => execLayout fn tag s
    | .tmt k, 1 => execHalt fn k tag s
    | .tmt k, 2 => execResume fn k tag s
    | .tmt k, 3 => execCtxSave fn k tag s
    | .tmt k, 4 => execCtxRestore fn k tag s
    | .tmt k, 5 => execWipe fn k tag s
    | .tmt k, _ => loadWritten fn k tag s
    | .tke d, _ => execSubmit fn d tag s
    | .stm d, 1 => execStmArm fn d tag s
    | .stm d, _ => execStmRestart fn d tag s
    | .gch d, 1 => execInvalidate fn d tag s
    | .gch d, 2 => execGchArm fn d tag s
    | .gch d, _ => execGchRestart fn d tag s
    | .mem d, _ => execMemCalibrate fn d tag s
    | .pgt d, 1 => execInit fn d tag s
    | .pgt d, 2 => execRegion fn d tag s
    | .pgt d, 3 => execMap fn d tag s
    | .pgt d, 4 => execUnmap fn d tag s
    | .pgt d, 5 => execAttr fn d tag s
    | .pgt d, 6 => execMigrate fn d tag s
    | .pgt d, 7 => execWalk fn d tag s
    | .pgt d, 8 => execPool fn d tag s
    | .pgt d, _ => execQuota fn d tag s
    | .smp d, _ => execClear fn d tag s
    | .trc d t, _ => execCoreSwap fn d t tag s
    | .fld q, _ => execLinkRetrain fn q tag s
    | .clv k, 1 => execGroupWrite fn k tag s
    | .clv k, _ => execPost fn k tag s
    | .ckp k, 1 => execCkptBegin fn k tag s
    | .ckp k, 2 => execCkptCancel fn k tag s
    | .ckp k, 3 => execRestore fn k tag s
    | .ckp k, 4 => execVerify fn k tag s
    | .ckp k, _ => execExpose fn k tag s
    | .fus, 1 => execLogAdd fn tag s
    | .fus, _ => execWipeSite fn tag s
    | .lcs, _ => execLcChange fn tag s
    | .kld _, 1 => let q := drawNat s; execFwStage fn tag (q.1 % 2 == 0) q.2
    | .kld _, 2 => execFwActivate fn tag s
    | .kld _, _ => execSeqUpdate fn tag s
    | _, _ => hostCmd s fn p id

/-- A write of a word of a page, once the write has reached it. -/
def pageWrite (p : Page) (o v : Nat) (s : State) : State :=
  if spare s p then s
  else wkcGate s p fun s =>
    if o = hEVT then evtClear s p v
    else if o = hENABLE then evtEnable s p v
    else if o = hFORCE then evtForce s p v
    else match p with
      | .pcx i => if pcx_VMAP_n ≤ o ∧ o < 0x500 then vmapWrite s i ((o - pcx_VMAP_n) / 4) v else regWrite s p o v
      | .pwr => if o = pwr_CORE_MHZ then coreMhz v s else regWrite s p o v
      | .tmt k =>
        if 8 ≤ k then regWrite s p o v
        else if o = hCTRL then (if v.testBit 0 then ttRunSet k s else ttRunClear k s)
        else if o = tmt_JOB_CFG then jobRegister k v s
        else regWrite s p o v
      | _ => regWrite s p o v

/-- A message held by a vector that is no longer masked goes out (R415). -/
def flushVector (fn v : Nat) (s : State) : State :=
  let x := getFunc s fn
  if x.msix && !x.fmask && tget false x.pba v && !(tget 1 x.table (4 * v + 3)).toNat.testBit 0 then sendMsi s fn v else s

/-- A write of word i of a function's MSI-X table: address bits [1:0] and the reserved bits of vector control are zero. -/
def msixWrite (fn i v : Nat) (s : State) : State :=
  let x := getFunc s fn
  let w := if i % 4 = 0 then v / 4 * 4 else if i % 4 = 3 then v % 2 else v
  flushVector fn (i / 4) (setFunc s fn { x with table := tset (if i % 4 = 3 then 1 else 0) x.table i (w32 w) })

/-- A 32-bit write at an offset of the register window. -/
def windowWriteWord (fn off v : Nat) (s : State) : State :=
  if fn != 0 && layoutRuns s then foreign s fn
  else if msixTable ≤ off ∧ off < msixTable + 16 * msixEntries fn then msixWrite fn ((off - msixTable) / 4) v s
  else if msixPba ≤ off ∧ off < msixPba + msixEntries fn / 8 then s
  else
    match pageOf off with
    | none => if fn = 0 then s else foreign s fn
    | some p => if off % 4096 = hCMD then cmdWrite fn p v s else hostWrite s fn p (off % 4096) (pageWrite p (off % 4096) v)

/-- REGISTER_WRITE: a host write of `len` bytes to the register window. -/
def execRegisterWrite (fn off len value : Nat) (full : Bool) (s : State) : State :=
  if !hears s fn then s
  else if wordAccess off len full then
    each (List.range (len / 4)) (fun i s => windowWriteWord fn (off + 4 * i) (fld value (32 * i) 32) s) s
  else badAccess s fn

/-- EVT_STATUS_WRITE, EVT_ENABLE_WRITE and EVT_FORCE of the page at an offset. -/
def onPage (fn off o v : Nat) (s : State) : State :=
  match pageOf off with
  | none => if fn = 0 || !hears s fn then s else foreign s fn
  | some p => hostWrite s fn p o (pageWrite p o v)

def execEvtStatusWrite (fn off v : Nat) (s : State) : State := onPage fn off hEVT v s
def execEvtEnableWrite (fn off v : Nat) (s : State) : State := onPage fn off hENABLE v s
def execEvtForce (fn off v : Nat) (s : State) : State := onPage fn off hFORCE v s

/-- VMAP_WRITE: word n of the map on PCX page i. -/
def execVmapWrite (fn i n v : Nat) (s : State) : State :=
  hostWrite s fn (.pcx i) (pcx_VMAP_n + 4 * n) fun s => vmapWrite s i n v

/-- AMAX_WRITE: slot n of the core at a site. -/
def execAmaxWrite (fn key n v : Nat) (s : State) : State :=
  hostWrite s fn (corPage key) (cor_AMAX_n + 4 * n) fun s => wr s (corPage key) (cor_AMAX_n + 4 * n) v

/-! ## The memory window (R416 to R418) -/

/-- The slot that a function's memory window maps. -/
def windowSlot (s : State) (fn : Nat) : Option Nat :=
  let k := if fn = 0 then (if (rd s (.pcx 0) pcx_MW_SLOT).testBit 8 then rd s (.pcx 0) pcx_MW_SLOT % 8 else 8) else fn - 1
  if decide (k < 8) && slotUsed s k && !(fn != 0 && layoutRuns s) && rd s .lcs lcs_STATE % 8 != 4 then some k else none

/-- The device virtual address of a window offset. -/
def windowVa (s : State) (fn off : Nat) : Nat := rd s (.pcx fn) pcx_MW_BASE % 1024 * 2 ^ 38 + off % 2 ^ 38

/-- An access that cannot be served is counted. -/
def windowRefused (s : State) (fn : Nat) : State := raise (bump s (.pcx fn) pcx_MW_REFUSED 1) (.pcx fn) 2

/-- Whether a page of the access lies in a tier that the window cannot reach. -/
def windowTier (s : State) (k va n : Nat) : Bool :=
  (pagesIn va n).any (fun v => pteTier (pteOf s k v) == 2 || (pteTier (pteOf s k v) == 0 && activePhase (phase s k)))

/-- The verdict on an access to device virtual addresses of a slot: the slot if it is served, or the state after the refusal; none where
it waits (COW, a page in transit, a stalled stack). A tier that the window does not reach is refused before anything waits. -/
def windowJudge (s : State) (fn : Nat) (slot : Option Nat) (va n : Nat) (write : Bool) : State × Option (Option Nat) :=
  match slot with
  | none => (windowRefused s fn, some none)
  | some k =>
    let wiped := (diesOf s k).filter (fun d => busy s (.wip d))
    if !wiped.isEmpty then (windowRefused (each wiped (fun d s => bump s (.wip d) wip_REFUSED 1) s) fn, some none)
    else
      match judge s k (homeDie s k) .window va n write with
      | (t, .fault _ _ _) => (windowRefused t fn, some none)
      | (t, .wait _ _) => if windowTier s k va n then (windowRefused s fn, some none) else (t, none)
      | (t, .ok) => if windowTier s k va n then (windowRefused s fn, some none) else (t, some (some k))

/-- The bytes of a read that is served: a word that is uncorrectable sets EP (R367). -/
def windowGet (fn k va n : Nat) (s : State) : State :=
  let r := vaReadOk s k (homeDie s k) .window va n
  let s := { r.1 with answer := r.2.1, ep := !r.2.2.isEmpty }
  if r.2.2.isEmpty then s else raise (bump s (.pcx fn) pcx_POISONED 1) (.pcx fn) 8

/-- A write that is served; one to a coded page that no pool has room to expand is dropped, and counted as refused (R417, log entry
23). -/
def windowPut (fn k va : Nat) (bs : List Byte) (s : State) : State :=
  let t := vaWriteOk s k (homeDie s k) .window false va bs []
  if (pagesIn va bs.length).any (fun v => pteCoded (pteOf t k v)) then windowRefused t fn else t

/-- A request of a function is performed, or still waits. -/
def perform (fn : Nat) (r : HostReq) (s : State) : State × Bool :=
  match r with
  | .memWrite k va bs =>
    (match windowJudge s fn (if slotUsed s k then some k else none) va bs.length true with
     | (t, some (some k)) => (windowPut fn k va bs t, true)
     | (t, some none) => (t, true)
     | (t, none) => (t, false))
  | .memRead off n =>
    let va := windowVa s fn off
    (match windowJudge s fn (windowSlot s fn) va n false with
     | (t, some (some k)) => (windowGet fn k va n t, true)
     | (t, some none) => ({ t with answer := List.replicate n 255, ep := false }, true)
     | (t, none) => (t, false))
  | .regRead off len full => (registerRead fn off len full s, true)

/-- Performs the first n requests that a function has waiting, in their order, up to one that still waits. -/
def serveN (fn : Nat) : Nat → State → State
  | 0, s => s
  | n + 1, s =>
    match (getFunc s fn).waits with
    | [] => s
    | r :: _ =>
      match perform fn r s with
      | (t, true) => serveN fn n (setFunc t fn { getFunc t fn with waits := (getFunc t fn).waits.tail })
      | (_, false) => s

def serve (fn : Nat) (s : State) : State := serveN fn (getFunc s fn).waits.length s

/-- Every function's requests are tried again: a page has switched, a copy is made, a stack is calibrated. -/
def serveAll (s : State) : State := each (List.range 9) serve s

/-- A request arrives: it is performed once nothing of the function waits before it, and holds the function's credits until then
(R393, R416, R418). -/
def arrive (fn : Nat) (r : HostReq) (s : State) : State :=
  let s := serve fn s
  let hold := fun (s : State) => setFunc s fn { getFunc s fn with waits := (getFunc s fn).waits ++ [r] }
  if (getFunc s fn).waits.isEmpty then
    match perform fn r s with
    | (t, true) => t
    | (t, false) => hold t
  else hold s

/-- MEMORY_WINDOW_READ of n bytes. -/
def execMemoryWindowRead (fn off n : Nat) (s : State) : State := if hears s fn then arrive fn (.memRead off n) s else s

/-- MEMORY_WINDOW_WRITE of bytes. -/
def execMemoryWindowWrite (fn off : Nat) (bs : List Byte) (s : State) : State :=
  if !hears s fn then s
  else
    match windowSlot s fn with
    | some k => arrive fn (.memWrite k (windowVa s fn off) bs) s
    | none => windowRefused s fn

/-- RC_READ, and every other read of the register window: its completion follows every earlier write of the function (R418). -/
def execRcRead (fn off len : Nat) (full : Bool) (s : State) : State := if hears s fn then arrive fn (.regRead off len full) s else s

/-! ## The end of a long operation (R410) -/

/-- Whether an operation of a partition still waits for a stack that CALIBRATE stalls (R223). -/
def stalledOp (s : State) (p : Page) : Bool :=
  match p with
  | .tmt k | .ckp k => k < 8 && (diesOf s k).any (fun d => busy s (.mem d))
  | _ => false

/-- LONG_OPERATION_END of the page at an offset: CMD_RESULT, BUSY, the completion event. -/
def execLongOperationEnd (off : Nat) (s : State) : State :=
  match pageOf off with
  | none => s
  | some p =>
    match tfind s.cmds (pageBase p) with
    | some c =>
      if c.long && c.ready && !stalledOp s p then
        let s := wr { s with cmds := tdel s.cmds (pageBase p) } p hRESULT c.result
        let s := match p with
          | .tmt k => if k < 8 then setSlot s k { getSlot s k with loading := false, laying := false } else s
          | .mem d => paySlot (calibrated s d) (slotOf s d)
          | _ => s
        match p with
        | .mem _ => serveAll (raise s p c.evt)
        | _ => raise s p c.evt
      else s
    | none => s

/-! ## Configuration space (R393, R394, R396) -/

/-- What every function shows: class code, device ID, and TotalVFs of the PF. -/
def classCode : Nat := 0x120000
def deviceId (fn : Nat) : Nat := if fn = 0 then 0x7200 else 0x7201
def totalVfs : Nat := 8

/-- A base address register as it reads: BARs 0 and 1 a 64-bit window of 64 MiB, 2 and 3 a prefetchable one of 256 GiB, 4 and 5 zero. -/
def barView (s : State) (fn i : Nat) : Nat :=
  let v := (tget 0 (getFunc s fn).bars i).toNat
  match i with
  | 0 => v / 2 ^ 26 * 2 ^ 26 + 4
  | 1 => v
  | 2 => 0xC
  | 3 => v / 2 ^ 6 * 2 ^ 6
  | _ => 0

/-! ## MSI-X, function level resets, the link (R394, R395, R415, R423) -/

/-- VF Enable and NumVFs as they stand once a configuration write has reached a VF: the host has set them (R393, R395; log entry 25). -/
def enabledFor (fn : Nat) (s : State) : State := if present s fn then s else { s with vfOn := true, vfs := max s.vfs fn }

/-- MSIX_ENABLE: MSI-X Enable and Function Mask are written. Where messages may go out from now on, every pending source whose
entry is enabled, and every vector that holds one back unmasked, sends one message. -/
def execMsixEnable (fn : Nat) (en mask : Bool) (s : State) : State :=
  if !hubUp s then s
  else
    let s := enabledFor fn s
    let x := getFunc s fn
    let s := setFunc s fn { x with msix := en, fmask := mask }
    if en && !mask && !(x.msix && !x.fmask) then
      let live := (List.range 256).filter (fun n => srcPending s n && ownsSrc s fn n && (vmapEntry s fn n).testBit 15)
      let sent := live.map (fun n => vmapEntry s fn n % 2048)
      let held := (x.pba.map (·.1)).filter (fun v => !sent.contains v)
      each held (flushVector fn) (each live (fun n => deliverTo n fn) s)
    else s

/-- MSIX_VECTOR_UNMASK: vector control of one vector is written 0. -/
def execMsixVectorUnmask (fn v : Nat) (s : State) : State :=
  if hears s fn && decide (v < msixEntries fn) then msixWrite fn (4 * v + 3) 0 s else s

/-- Resets a function's configuration state and its PCX page. -/
def resetFunc (i : Nat) (s : State) : State :=
  dropRegs { s with funcs := tdel s.funcs i } (fun p o => p == .pcx i && !(i == 0 && o == pcx_LINK))

/-- The VFs cease to exist. -/
def dropVfs (s : State) : State := each ((List.range 8).map (· + 1)) resetFunc { s with vfOn := false }

/-- VF_ENABLE_CLEAR: the partitions are untouched. -/
def execVfEnableClear (s : State) : State := if hubUp s then dropVfs s else s

/-- PF_FLR: VF Enable is part of the configuration state that it resets (DEDUCED). -/
def execPfFlr (s : State) : State := if hubUp s then resetFunc 0 (dropVfs s) else s

/-- VF_FLR of VF k (1 to 8): a partition reset of its slot with its wipe. -/
def execVfFlr (k : Nat) (s : State) : State :=
  if hubUp s && present s k then
    let s := resetFunc k s
    if slotUsed s (k - 1) then partitionReset (k - 1) s else s
  else s

/-- PCIE_LINK_CHANGE: the link's new speed code, width and modes. -/
def execPcieLinkChange (speed width : Nat) (flit l0p : Bool) (s : State) : State :=
  if !hubUp s then s
  else
    let old := rd s (.pcx 0) pcx_LINK
    let new := speed % 8 + 16 * (width % 32) + 512 * b2n flit + 1024 * b2n l0p
    let s := wr s (.pcx 0) pcx_LINK new
    -- the replays and corrections since the last change are open (log entry 4)
    let a := drawNat s
    let b := drawNat (bump a.2 (.pcx 0) pcx_LINK_REPLAY (a.1 % 2 ^ 32))
    let s := bump b.2 (.pcx 0) pcx_FEC_CORR (b.1 % 2 ^ 32)
    if setFld old 9 1 0 = setFld new 9 1 0 then s else raise s (.pcx 0) 1

/-- SADDLE_FLIT_REPLAY on saddle k: a flit with a bad CRC-16 is received and replayed (R295). -/
def execSaddleFlitReplay (k : Nat) (s : State) : State :=
  if hubUp s && !(rd s .hub (hub_SADDLE_k_STATE + 16 * k)).testBit 7 then
    bump (bump s .hub (hub_SADDLE_k_CRC + 16 * k) 1) .hub (hub_SADDLE_k_REPLAY + 16 * k) 1
  else s

/-! ## SMBus (R446, R447) -/

/-- The controller answers while its standby rail is up. -/
def smbAnswer (f : State → State × List Byte) (s : State) : State :=
  if s.board.input then let r := f s; { r.1 with answer := r.2 } else s

def execSmbIdent (s : State) : State :=
  smbAnswer (fun s => (s, toBytes 4 (rd s .lcs lcs_ID_LO) ++ toBytes 4 (rd s .lcs lcs_ID_HI) ++ toBytes 4 (rd s .hub hub_PART)
    ++ toBytes 4 (rd s (.kld 8) (if fwActive s = 0 then kld_FW_VER_A else kld_FW_VER_B)))) s

def execSmbStatus (s : State) : State :=
  smbAnswer (fun s => (s, toBytes 2 (b2n s.board.rails + 2 * (rd s .hub hub_STATE % 2) + 4 * b2n s.board.powerFault
    + 8 * b2n s.board.trip + 16 * (rd s .lcs lcs_STATE % 8) + 128 * s.board.slotId + 1024 * b2n s.board.node.isSome))) s

def execAlertCause (s : State) : State :=
  smbAnswer (fun s => ({ s with board := { s.board with alert := 0 } }, toBytes 1 s.board.alert)) s

def execTemps (s : State) : State :=
  smbAnswer (fun s => (s, ((List.range 8).map (fun d => rd s (.thm d) thm_DIE_MAX) ++ [rd s .thmH thm_HUB_TEMP]
    ++ (List.range 8).map (fun d => rd s (.mem d) mem_TEMP)
    ++ [rd s .thmH thm_COOLANT % 256, rd s .thmH thm_COOLANT / 256]).flatMap (toBytes 1))) s

def execSmbPower (s : State) : State :=
  smbAnswer (fun s => (s, toBytes 2 (rd s .pwr pwr_VIN) ++ toBytes 2 (rd s .pwr pwr_IIN) ++ toBytes 2 (rd s .pwr pwr_PIN))) s

/-- The pages that answer a REG_READ with the main rails off (R441, R447). -/
def standbyPage : Page → Bool
  | .lcs | .fus | .pwr | .thmH | .kld _ => true
  | _ => false

/-- REG_READ: as the PF reads; an offset that is no word's reads all ones, as R397 refuses it. -/
def execRegRead (off : Nat) (s : State) : State :=
  smbAnswer (fun s =>
    if off % 4 ≠ 0 then (s, List.replicate 4 255)
    else if !s.board.rails && !(match pageOf off with | some p => standbyPage p | none => false) then (s, toBytes 4 0)
    else let r := windowReadWord s 0 off; (r.1, toBytes 4 r.2)) s

/-- The pages that take a REG_WRITE. -/
def smbPage : Page → Bool
  | .pwr | .thmH => true
  | .kld i => i == 8
  | _ => false

/-- A REG_WRITE that the controller refuses. -/
def smbRefused (s : State) : State := bump s (.kld 8) kld_SMB_REFUSED 1

/-- The command that a REG_WRITE of CMD gives to one of those pages: KLD page 8 has some. -/
def smbCmd (p : Page) (v : Nat) (s : State) : State :=
  let op := v % 256
  let tag := v / 65536 % 65536
  match p, op with
  | .kld _, 1 => let q := drawNat s; fwStage tag (q.1 % 2 == 0) q.2
  | .kld _, 2 => fwActivate tag s
  | .kld _, 3 => seqUpdate tag s
  | _, _ => undefinedOp s p op tag

/-- REG_WRITE: a bad PEC is ignored, another page refused; a busy page takes no write (R408, log entry 20). The standby island takes it
whatever the main rails and the resets do (R428, R447). -/
def execRegWrite (off value : Nat) (pec : Bool) (s : State) : State :=
  if !s.board.input || !pec then s
  else
    match pageOf off with
    | some p =>
      if !smbPage p || off % 4 != 0 || !answers s p then smbRefused s
      else if busy s p then (if hubUp s then rejectBusy (smbRefused s) 0 off else smbRefused s)
      else if off % 4096 = hCMD then smbCmd p value s
      else pageWrite p (off % 4096) value s
    | none => smbRefused s

/-- NODE_CONFIG: stored for the next module reset. -/
def execNodeConfig (value : Nat) (pec : Bool) (s : State) : State :=
  if !s.board.input || !pec then s
  else
    let v := value % 2 ^ 30
    wr { s with board := { s.board with node := some v } } (.kld 8) kld_NODE_CFG (v % 2 ^ 15 + 2 ^ 15 + v / 2 ^ 15 * 2 ^ 16)

/-- ALERT_RESPONSE: while ALERTn is asserted the controller answers with its address, 0x58 + SLOT_ID in bits [7:1]; bit 0 is
open (log entry 4). -/
def execAlertResponse (s : State) : State :=
  smbAnswer (fun s =>
    if s.board.alert = 0 then (s, [])
    else let q := drawNat s; (q.2, toBytes 1 (2 * (0x58 + s.board.slotId) + q.1 % 2))) s

end Sys2Proof.Machine
end

