-- ==== Sys2Proof/Machine/Commands.lean ====
section
/-! DEFINITION. Machine/Commands.lean: the meaning of each command, over the operations of its chapter's file. A command
answers a next state whose queue is the one it was given. -/
namespace Sys2Proof.Machine

/-- The answer of a command that leads to t: the queue is the step's, not the command's. -/
def answer (s t : State) : Host.Outcome State Fault Refusal := .next { t with pending := s.pending }

/-- LI (R85). -/
def takeLi (c : CoreId) (s : State) : Host.Outcome State Fault Refusal := answer s (execLi c s)
/-- ADD (R85). -/
def takeAdd (c : CoreId) (s : State) : Host.Outcome State Fault Refusal := answer s (execAdd c s)
/-- SUB (R85). -/
def takeSub (c : CoreId) (s : State) : Host.Outcome State Fault Refusal := answer s (execSub c s)
/-- AND (R85). -/
def takeAnd (c : CoreId) (s : State) : Host.Outcome State Fault Refusal := answer s (execAnd c s)
/-- OR (R85). -/
def takeOr (c : CoreId) (s : State) : Host.Outcome State Fault Refusal := answer s (execOr c s)
/-- SHL (R85). -/
def takeShl (c : CoreId) (s : State) : Host.Outcome State Fault Refusal := answer s (execShl c s)
/-- SHR (R85). -/
def takeShr (c : CoreId) (s : State) : Host.Outcome State Fault Refusal := answer s (execShr c s)
/-- CMP (R85). -/
def takeCmp (c : CoreId) (s : State) : Host.Outcome State Fault Refusal := answer s (execCmp c s)
/-- BR (R86). -/
def takeBr (c : CoreId) (s : State) : Host.Outcome State Fault Refusal := answer s (execBr c s)
/-- BZ (R86). -/
def takeBz (c : CoreId) (s : State) : Host.Outcome State Fault Refusal := answer s (execBz c s)
/-- BNZ (R86). -/
def takeBnz (c : CoreId) (s : State) : Host.Outcome State Fault Refusal := answer s (execBnz c s)
/-- CALL (R86). -/
def takeCall (c : CoreId) (s : State) : Host.Outcome State Fault Refusal := answer s (execCall c s)
/-- RET (R86). -/
def takeRet (c : CoreId) (s : State) : Host.Outcome State Fault Refusal := answer s (execRet c s)
/-- VLD (R88). -/
def takeVld (c : CoreId) (s : State) : Host.Outcome State Fault Refusal := answer s (execVld c s)
/-- VST (R88). -/
def takeVst (c : CoreId) (s : State) : Host.Outcome State Fault Refusal := answer s (execVst c s)
/-- VADD (R87). -/
def takeVadd (c : CoreId) (s : State) : Host.Outcome State Fault Refusal := answer s (execVadd c s)
/-- VMUL (R87). -/
def takeVmul (c : CoreId) (s : State) : Host.Outcome State Fault Refusal := answer s (execVmul c s)
/-- VMAX (R87). -/
def takeVmax (c : CoreId) (s : State) : Host.Outcome State Fault Refusal := answer s (execVmax c s)
/-- VFMA (R87). -/
def takeVfma (c : CoreId) (s : State) : Host.Outcome State Fault Refusal := answer s (execVfma c s)
/-- VRED (R87). -/
def takeVred (c : CoreId) (s : State) : Host.Outcome State Fault Refusal := answer s (execVred c s)
/-- VEXP (R87). -/
def takeVexp (c : CoreId) (s : State) : Host.Outcome State Fault Refusal := answer s (execVexp c s)
/-- VRSQ (R87). -/
def takeVrsq (c : CoreId) (s : State) : Host.Outcome State Fault Refusal := answer s (execVrsq c s)
/-- VTANH (R87). -/
def takeVtanh (c : CoreId) (s : State) : Host.Outcome State Fault Refusal := answer s (execVtanh c s)
/-- VCVT (R89). -/
def takeVcvt (c : CoreId) (s : State) : Host.Outcome State Fault Refusal := answer s (execVcvt c s)
/-- LATCH (R90). -/
def takeLatch (c : CoreId) (s : State) : Host.Outcome State Fault Refusal := answer s (execLatch c s)
/-- LATCH_BEGIN (R50). -/
def takeLatchBegin (c : CoreId) (s : State) : Host.Outcome State Fault Refusal := answer s (execLatchBegin c s)
/-- STREAM (R51). -/
def takeStream (c : CoreId) (s : State) : Host.Outcome State Fault Refusal := answer s (execStream c s)
/-- STREAM_FILL (R51). -/
def takeStreamFill (c : CoreId) (s : State) : Host.Outcome State Fault Refusal := answer s (execStreamFill c s)
/-- STREAM_BEGIN (R52). -/
def takeStreamBegin (c : CoreId) (s : State) : Host.Outcome State Fault Refusal := answer s (execStreamBegin c s)
/-- MERGE (R66). -/
def takeMerge (c : CoreId) (s : State) : Host.Outcome State Fault Refusal := answer s (execMerge c s)
/-- OPEN (R90). -/
def takeOpen (c : CoreId) (s : State) : Host.Outcome State Fault Refusal := answer s (execOpen c s)
/-- OPEN_BEGIN (R63). -/
def takeOpenBegin (c : CoreId) (s : State) : Host.Outcome State Fault Refusal := answer s (execOpenBegin c s)
/-- CHK (R90). -/
def takeChk (c : CoreId) (s : State) : Host.Outcome State Fault Refusal := answer s (execChk c s)
/-- CHK_BEGIN (R60). -/
def takeChkBegin (c : CoreId) (s : State) : Host.Outcome State Fault Refusal := answer s (execChkBegin c s)
/-- DRAIN (R90). -/
def takeDrain (c : CoreId) (s : State) : Host.Outcome State Fault Refusal := answer s (execDrain c s)
/-- DRAIN_BEGIN (R71). -/
def takeDrainBegin (c : CoreId) (s : State) : Host.Outcome State Fault Refusal := answer s (execDrainBegin c s)
/-- SEND (R91). -/
def takeSend (c : CoreId) (s : State) : Host.Outcome State Fault Refusal := answer s (execSend c s)
/-- SEND_TRANSMIT (R94). -/
def takeSendTransmit (c : CoreId) (s : State) : Host.Outcome State Fault Refusal := answer s (execSendTransmit c s)
/-- RECV (R101). -/
def takeRecv (c : CoreId) (s : State) : Host.Outcome State Fault Refusal := answer s (execRecv c s)
/-- STEER (R99). -/
def takeSteer (c : CoreId) (s : State) : Host.Outcome State Fault Refusal := answer s (execSteer c s)
/-- CLAIM (R180). -/
def takeClaim (c : CoreId) (s : State) : Host.Outcome State Fault Refusal := answer s (execClaim c s)
/-- WAIT (R103). -/
def takeWait (c : CoreId) (s : State) : Host.Outcome State Fault Refusal := answer s (execWait c s)
/-- SIGNAL (R104). -/
def takeSignal (c : CoreId) (s : State) : Host.Outcome State Fault Refusal := answer s (execSignal c s)
/-- FENCE (R105). -/
def takeFence (c : CoreId) (s : State) : Host.Outcome State Fault Refusal := answer s (execFence c s)
/-- FENCE_COMPLETE (R105). -/
def takeFenceComplete (c : CoreId) (s : State) : Host.Outcome State Fault Refusal := answer s (execFenceComplete c s)
/-- END (R93). -/
def takeEnd (c : CoreId) (s : State) : Host.Outcome State Fault Refusal := answer s (execEnd c s)
/-- YIELD (R93). -/
def takeYield (c : CoreId) (s : State) : Host.Outcome State Fault Refusal := answer s (execYield c s)
/-- DATA_TOKEN_ARRIVE (R100). -/
def takeDataTokenArrive (n : Nat) (s : State) : Host.Outcome State Fault Refusal := answer s (execDataTokenArrive n s)
/-- CONTROL_TOKEN_ARRIVE (R100). -/
def takeControlTokenArrive (n : Nat) (s : State) : Host.Outcome State Fault Refusal := answer s (execControlTokenArrive n s)
/-- SIGNAL_TOKEN_ARRIVE (R103). -/
def takeSignalTokenArrive (n : Nat) (s : State) : Host.Outcome State Fault Refusal := answer s (execSignalTokenArrive n s)
/-- CLAIM_REQUEST (R180). -/
def takeClaimRequest (n : Nat) (s : State) : Host.Outcome State Fault Refusal := answer s (execClaimRequest n s)
/-- CLAIM_RESPONSE (R180). -/
def takeClaimResponse (n : Nat) (s : State) : Host.Outcome State Fault Refusal := answer s (execClaimResponse n s)
/-- TASK_DISPATCH (R163). -/
def takeTaskDispatch (d : Die) (l : Fin 360) (s : State) : Host.Outcome State Fault Refusal :=
  answer s (execTaskDispatch d.val l.val s)
/-- DISPATCH (R177). -/
def takeDispatch (n : Nat) (s : State) : Host.Outcome State Fault Refusal := answer s (execDispatch n s)
/-- TASK_RESUME (R177). -/
def takeTaskResume (n : Nat) (s : State) : Host.Outcome State Fault Refusal := answer s (execTaskResume n s)
/-- ENDED (R177). -/
def takeEnded (n : Nat) (s : State) : Host.Outcome State Fault Refusal := answer s (execEnded n s)
/-- YIELDED (R177). -/
def takeYielded (n : Nat) (s : State) : Host.Outcome State Fault Refusal := answer s (execYielded n s)
/-- TASK_DISCARD (R170). -/
def takeTaskDiscard (n : Nat) (s : State) : Host.Outcome State Fault Refusal := answer s (execTaskDiscard n s)
/-- CONFIRM (R167). -/
def takeConfirm (n : Nat) (s : State) : Host.Outcome State Fault Refusal := answer s (execConfirm n s)
/-- TASK_COMMIT (R170). -/
def takeTaskCommit (n : Nat) (s : State) : Host.Outcome State Fault Refusal := answer s (execTaskCommit n s)
/-- DEP_SATISFY (R176). -/
def takeDepSatisfy (n : Nat) (s : State) : Host.Outcome State Fault Refusal := answer s (execDepSatisfy n s)
/-- DEP_START (R166). -/
def takeDepStart (n : Nat) (s : State) : Host.Outcome State Fault Refusal := answer s (execDepStart n s)
/-- DEP_COMMIT (R166). -/
def takeDepCommit (n : Nat) (s : State) : Host.Outcome State Fault Refusal := answer s (execDepCommit n s)
/-- DEP_DISCARD (R166). -/
def takeDepDiscard (n : Nat) (s : State) : Host.Outcome State Fault Refusal := answer s (execDepDiscard n s)
/-- DEP_FAULT (R178). -/
def takeDepFault (n : Nat) (s : State) : Host.Outcome State Fault Refusal := answer s (execDepFault n s)
/-- DEADLINE_MISS (R165). -/
def takeDeadlineMiss (d : Die) (i : BitVec 13) (s : State) : Host.Outcome State Fault Refusal :=
  answer s (execDeadlineMiss d.val i.toNat s)
/-- DIE_DONE (R130). -/
def takeDieDone (d : Die) (cycles : BitVec 22) (s : State) : Host.Outcome State Fault Refusal :=
  answer s (execDieDone d.val cycles.toNat s)
/-- TICK_DONE_RECEIVE (R130). -/
def takeTickDoneReceive (n : Nat) (s : State) : Host.Outcome State Fault Refusal := answer s (execTickDoneReceive n s)
/-- TICK_MARKER_EMIT (R130). -/
def takeTickMarkerEmit (k : Slot) (extra : Nat) (s : State) : Host.Outcome State Fault Refusal :=
  answer s (execTickMarkerEmit k.val extra s)
/-- MARKER_RELAY (R134). -/
def takeMarkerRelay (n : Nat) (s : State) : Host.Outcome State Fault Refusal := answer s (execMarkerRelay n s)
/-- TICK_START (R133). -/
def takeTickStart (d : Die) (s : State) : Host.Outcome State Fault Refusal := answer s (execTickStart d.val s)
/-- TICK_OVERRUN (R135). -/
def takeTickOverrun (k : Slot) (s : State) : Host.Outcome State Fault Refusal := answer s (execTickOverrun k.val s)
/-- STRETCH_LIMIT_EXPIRY (R135). -/
def takeStretchLimitExpiry (k : Slot) (s : State) : Host.Outcome State Fault Refusal :=
  answer s (execStretchLimitExpiry k.val s)
/-- MARKER_MISSED (R139). -/
def takeMarkerMissed (k : Slot) (s : State) : Host.Outcome State Fault Refusal := answer s (execMarkerMissed k.val s)
/-- ARMED (R150). -/
def takeArmed (n : Nat) (s : State) : Host.Outcome State Fault Refusal := answer s (execArmed n s)
/-- PAUSE (R138). -/
def takePause (n : Nat) (s : State) : Host.Outcome State Fault Refusal := answer s (execPause n s)
/-- TICK_RESUME (R138). -/
def takeTickResume (n : Nat) (s : State) : Host.Outcome State Fault Refusal := answer s (execTickResume n s)
/-- STOP_COMPLETE (R147). -/
def takeStopComplete (k : Slot) (s : State) : Host.Outcome State Fault Refusal := answer s (execStopComplete k.val s)
/-- START (R154). -/
def takeStart (fn : Func) (k : Slot) (tag : BitVec 16) (s : State) : Host.Outcome State Fault Refusal :=
  answer s (execStart fn.val k.val tag.toNat s)
/-- STOP (R154). -/
def takeStop (fn : Func) (k : Slot) (tag : BitVec 16) (s : State) : Host.Outcome State Fault Refusal :=
  answer s (execStop fn.val k.val tag.toNat s)
/-- EPOCH_SET (R154). -/
def takeEpochSet (fn : Func) (k : Slot) (tag : BitVec 16) (s : State) : Host.Outcome State Fault Refusal :=
  answer s (execEpochSet fn.val k.val tag.toNat s)
/-- TCK_CALIBRATE (R154). -/
def takeTckCalibrate (fn : Func) (k : Slot) (tag : BitVec 16) (s : State) : Host.Outcome State Fault Refusal :=
  answer s (execTckCalibrate fn.val k.val tag.toNat s)
/-- SUBMIT (R186). -/
def takeSubmit (fn : Func) (d : Die) (tag : BitVec 16) (s : State) : Host.Outcome State Fault Refusal :=
  answer s (execSubmit fn.val d.val tag.toNat s)
/-- CORE_SWAP (R451). -/
def takeCoreSwap (fn : Func) (d : Die) (t : Fin 24) (tag : BitVec 16) (s : State) : Host.Outcome State Fault Refusal :=
  answer s (execCoreSwap fn.val d.val t.val tag.toNat s)
/-- CORE_SWAP_APPLY (R15). -/
def takeCoreSwapApply (d : Die) (t : Fin 24) (s : State) : Host.Outcome State Fault Refusal :=
  answer s (execCoreSwapApply d.val t.val s)
/-- LOAD (R119). -/
def takeLoad (fn : Func) (k : Slot) (im : Image) (tag : BitVec 16) (s : State) : Host.Outcome State Fault Refusal :=
  answer s (execLoad fn.val k.val im tag.toNat s)
/-- HALT (R258). -/
def takeHalt (fn : Func) (k : Slot) (tag : BitVec 16) (s : State) : Host.Outcome State Fault Refusal :=
  answer s (execHalt fn.val k.val tag.toNat s)
/-- RESUME (R259). -/
def takeResume (fn : Func) (k : Slot) (tag : BitVec 16) (s : State) : Host.Outcome State Fault Refusal :=
  answer s (execResume fn.val k.val tag.toNat s)
/-- CTX_SAVE (R267). -/
def takeCtxSave (fn : Func) (k : Slot) (tag : BitVec 16) (s : State) : Host.Outcome State Fault Refusal :=
  answer s (execCtxSave fn.val k.val tag.toNat s)
/-- CTX_RESTORE (R271). -/
def takeCtxRestore (fn : Func) (k : Slot) (tag : BitVec 16) (s : State) : Host.Outcome State Fault Refusal :=
  answer s (execCtxRestore fn.val k.val tag.toNat s)
/-- WIPE (R279). -/
def takeWipe (fn : Func) (k : Slot) (tag : BitVec 16) (s : State) : Host.Outcome State Fault Refusal :=
  answer s (execWipe fn.val k.val tag.toNat s)
/-- LAYOUT (R255). -/
def takeLayout (fn : Func) (tag : BitVec 16) (s : State) : Host.Outcome State Fault Refusal :=
  answer s (execLayout fn.val tag.toNat s)
/-- TIMETABLE_ENTRY_END (R263). -/
def takeTimetableEntryEnd (k : Slot) (s : State) : Host.Outcome State Fault Refusal := answer s (execTimetableEntryEnd k.val s)
/-- IDLE_ENTRY_EXPIRY (R263). -/
def takeIdleEntryExpiry (k : Slot) (s : State) : Host.Outcome State Fault Refusal := answer s (execIdleEntryExpiry k.val s)
/-- PREEMPT_TIMEOUT (R267). -/
def takePreemptTimeout (c : CoreId) (s : State) : Host.Outcome State Fault Refusal := answer s (execPreemptTimeout (cid c) s)
/-- SAVE_BEGIN (R268). -/
def takeSaveBegin (k : Slot) (s : State) : Host.Outcome State Fault Refusal := answer s (execSaveBegin k.val s)
/-- SAMPLER_SAMPLE (R274). -/
def takeSamplerSample (d : Die) (links : List Nat) (s : State) : Host.Outcome State Fault Refusal :=
  answer s (execSamplerSample d.val links s)
/-- CLEAR (R284). -/
def takeClear (fn : Func) (d : Die) (tag : BitVec 16) (s : State) : Host.Outcome State Fault Refusal :=
  answer s (execClear fn.val d.val tag.toNat s)
/-- INIT (R219). -/
def takeInit (fn : Func) (d : Die) (tag : BitVec 16) (s : State) : Host.Outcome State Fault Refusal :=
  answer s (execInit fn.val d.val tag.toNat s)
/-- REGION (R219). -/
def takeRegion (fn : Func) (d : Die) (tag : BitVec 16) (s : State) : Host.Outcome State Fault Refusal :=
  answer s (execRegion fn.val d.val tag.toNat s)
/-- MAP (R219). -/
def takeMap (fn : Func) (d : Die) (tag : BitVec 16) (s : State) : Host.Outcome State Fault Refusal :=
  answer s (execMap fn.val d.val tag.toNat s)
/-- UNMAP (R219). -/
def takeUnmap (fn : Func) (d : Die) (tag : BitVec 16) (s : State) : Host.Outcome State Fault Refusal :=
  answer s (execUnmap fn.val d.val tag.toNat s)
/-- ATTR (R219). -/
def takeAttr (fn : Func) (d : Die) (tag : BitVec 16) (s : State) : Host.Outcome State Fault Refusal :=
  answer s (execAttr fn.val d.val tag.toNat s)
/-- MIGRATE (R219). -/
def takeMigrate (fn : Func) (d : Die) (tag : BitVec 16) (s : State) : Host.Outcome State Fault Refusal :=
  answer s (execMigrate fn.val d.val tag.toNat s)
/-- WALK (R219). -/
def takeWalk (fn : Func) (d : Die) (tag : BitVec 16) (s : State) : Host.Outcome State Fault Refusal :=
  answer s (execWalk fn.val d.val tag.toNat s)
/-- POOL (R219). -/
def takePool (fn : Func) (d : Die) (tag : BitVec 16) (s : State) : Host.Outcome State Fault Refusal :=
  answer s (execPool fn.val d.val tag.toNat s)
/-- QUOTA (R219). -/
def takeQuota (fn : Func) (d : Die) (tag : BitVec 16) (s : State) : Host.Outcome State Fault Refusal :=
  answer s (execQuota fn.val d.val tag.toNat s)
/-- MIGRATOR_SWEEP (R209). -/
def takeMigratorSweep (k : Slot) (s : State) : Host.Outcome State Fault Refusal := answer s (execMigratorSweep k.val s)
/-- DEMOTION (R210). -/
def takeDemotion (k : Slot) (s : State) : Host.Outcome State Fault Refusal := answer s (execDemotion k.val s)
/-- PAGE_SWITCH (R213). -/
def takePageSwitch (k : Slot) (vpn : BitVec 32) (s : State) : Host.Outcome State Fault Refusal :=
  answer s (serveAll (paySlot (execPageSwitch k.val vpn.toNat s) k.val))
/-- MEM_CALIBRATE (R223). -/
def takeMemCalibrate (fn : Func) (d : Die) (tag : BitVec 16) (s : State) : Host.Outcome State Fault Refusal :=
  answer s (execMemCalibrate fn.val d.val tag.toNat s)
/-- STM_ARM (R245). -/
def takeStmArm (fn : Func) (d : Die) (tag : BitVec 16) (s : State) : Host.Outcome State Fault Refusal :=
  answer s (execStmArm fn.val d.val tag.toNat s)
/-- GCH_ARM (R249). -/
def takeGchArm (fn : Func) (d : Die) (tag : BitVec 16) (s : State) : Host.Outcome State Fault Refusal :=
  answer s (execGchArm fn.val d.val tag.toNat s)
/-- STM_RESTART (R245). -/
def takeStmRestart (fn : Func) (d : Die) (tag : BitVec 16) (s : State) : Host.Outcome State Fault Refusal :=
  answer s (execStmRestart fn.val d.val tag.toNat s)
/-- GCH_RESTART (R249). -/
def takeGchRestart (fn : Func) (d : Die) (tag : BitVec 16) (s : State) : Host.Outcome State Fault Refusal :=
  answer s (execGchRestart fn.val d.val tag.toNat s)
/-- INVALIDATE (R249). -/
def takeInvalidate (fn : Func) (d : Die) (tag : BitVec 16) (s : State) : Host.Outcome State Fault Refusal :=
  answer s (execInvalidate fn.val d.val tag.toNat s)
/-- STREAM_ARM_START (R227). -/
def takeStreamArmStart (d : Die) (i : BitVec 10) (s : State) : Host.Outcome State Fault Refusal :=
  answer s (execStreamArmStart d.val i.toNat s)
/-- GATHER_ARM_START (R235). -/
def takeGatherArmStart (d : Die) (i : BitVec 10) (s : State) : Host.Outcome State Fault Refusal :=
  answer s (execGatherArmStart d.val i.toNat s)
/-- ARM_COMPLETE (R230). -/
def takeArmComplete (d : Die) (g : Bool) (i : BitVec 10) (s : State) : Host.Outcome State Fault Refusal :=
  answer s (execArmComplete d.val g i.toNat s)
/-- POST (R327). -/
def takePost (fn : Func) (k : Slot) (tag : BitVec 16) (s : State) : Host.Outcome State Fault Refusal :=
  answer s (execPost fn.val k.val tag.toNat s)
/-- GROUP_WRITE (R327). -/
def takeGroupWrite (fn : Func) (k : Slot) (tag : BitVec 16) (s : State) : Host.Outcome State Fault Refusal :=
  answer s (execGroupWrite fn.val k.val tag.toNat s)
/-- COLL_DATA_SEGMENT (R313). -/
def takeCollDataSegment (p : Port) (s : State) : Host.Outcome State Fault Refusal := answer s (execCollDataSegment p.val s)
/-- COLL_GRANT (R315). -/
def takeCollGrant (p : Port) (s : State) : Host.Outcome State Fault Refusal := answer s (execCollGrant p.val s)
/-- COLL_BARRIER (R314). -/
def takeCollBarrier (p : Port) (s : State) : Host.Outcome State Fault Refusal := answer s (execCollBarrier p.val s)
/-- COLLECTIVE_RUN_COMPLETE (R316). -/
def takeCollectiveRunComplete (k : Slot) (op : BitVec 12) (s : State) : Host.Outcome State Fault Refusal :=
  answer s (execCollectiveRunComplete k.val op.toNat s)
/-- FLIT_RECEIVE (R301). -/
def takeFlitReceive (p : Port) (bytes : List Byte) (s : State) : Host.Outcome State Fault Refusal :=
  answer s (execFlitReceive p.val bytes s)
/-- NAK_REPLAY (R301). -/
def takeNakReplay (p : Port) (s : State) : Host.Outcome State Fault Refusal := answer s (execNakReplay p.val s)
/-- HEARTBEAT_SEND (R302). -/
def takeHeartbeatSend (p : Port) (s : State) : Host.Outcome State Fault Refusal := answer s (execHeartbeatSend p.val s)
/-- HEARTBEAT_TIMEOUT (R302). -/
def takeHeartbeatTimeout (p : Port) (s : State) : Host.Outcome State Fault Refusal := answer s (execHeartbeatTimeout p.val s)
/-- FLIDRIC_TOKEN_ARRIVE (R307). -/
def takeFlidricTokenArrive (p : Port) (s : State) : Host.Outcome State Fault Refusal :=
  answer s (execFlidricTokenArrive p.val s)
/-- LINK_RETRAIN (R322). -/
def takeLinkRetrain (fn : Func) (p : Port) (tag : BitVec 16) (s : State) : Host.Outcome State Fault Refusal :=
  answer s (execLinkRetrain fn.val p.val tag.toNat s)
/-- MAINT_SET (R304). -/
def takeMaintSet (fn : Func) (p : Port) (s : State) : Host.Outcome State Fault Refusal := answer s (execMaintSet fn.val p.val s)
/-- SADDLE_FLIT_REPLAY (R295). -/
def takeSaddleFlitReplay (saddle : Fin 12) (s : State) : Host.Outcome State Fault Refusal :=
  answer s (execSaddleFlitReplay saddle.val s)
/-- CKPT_BEGIN (R339). -/
def takeCkptBegin (fn : Func) (k : Slot) (tag : BitVec 16) (s : State) : Host.Outcome State Fault Refusal :=
  answer s (execCkptBegin fn.val k.val tag.toNat s)
/-- CKPT_CANCEL (R359). -/
def takeCkptCancel (fn : Func) (k : Slot) (tag : BitVec 16) (s : State) : Host.Outcome State Fault Refusal :=
  answer s (execCkptCancel fn.val k.val tag.toNat s)
/-- CHECKPOINT_HOLD (R341). -/
def takeCheckpointHold (k : Slot) (s : State) : Host.Outcome State Fault Refusal := answer s (execCheckpointHold k.val s)
/-- COW_COPY (R342). -/
def takeCowCopy (k : Slot) (s : State) : Host.Outcome State Fault Refusal := answer s (serveAll (execCowCopy k.val s))
/-- CKPT_COPY (R346). -/
def takeCkptCopy (p : Port) (s : State) : Host.Outcome State Fault Refusal := answer s (execCkptCopy p.val s)
/-- CKPT_ACK (R346). -/
def takeCkptAck (p : Port) (s : State) : Host.Outcome State Fault Refusal := answer s (execCkptAck p.val s)
/-- CRC_REQ (R346). -/
def takeCrcReq (p : Port) (s : State) : Host.Outcome State Fault Refusal := answer s (execCrcReq p.val s)
/-- CRC_RSP (R346). -/
def takeCrcRsp (p : Port) (s : State) : Host.Outcome State Fault Refusal := answer s (execCrcRsp p.val s)
/-- PAGE_REQ (R346). -/
def takePageReq (p : Port) (s : State) : Host.Outcome State Fault Refusal := answer s (execPageReq p.val s)
/-- PAGE_RSP (R346). -/
def takePageRsp (p : Port) (s : State) : Host.Outcome State Fault Refusal := answer s (execPageRsp p.val s)
/-- HELD_REQ (R346). -/
def takeHeldReq (p : Port) (s : State) : Host.Outcome State Fault Refusal := answer s (execHeldReq p.val s)
/-- HELD_RSP (R346). -/
def takeHeldRsp (p : Port) (s : State) : Host.Outcome State Fault Refusal := answer s (execHeldRsp p.val s)
/-- RESTORE (R349). -/
def takeRestore (fn : Func) (k : Slot) (tag : BitVec 16) (s : State) : Host.Outcome State Fault Refusal :=
  answer s (execRestore fn.val k.val tag.toNat s)
/-- VERIFY (R351). -/
def takeVerify (fn : Func) (k : Slot) (tag : BitVec 16) (s : State) : Host.Outcome State Fault Refusal :=
  answer s (execVerify fn.val k.val tag.toNat s)
/-- EXPOSE (R359). -/
def takeExpose (fn : Func) (k : Slot) (tag : BitVec 16) (s : State) : Host.Outcome State Fault Refusal :=
  answer s (execExpose fn.val k.val tag.toNat s)
/-- LOG_ADD (R389). -/
def takeLogAdd (fn : Func) (tag : BitVec 16) (s : State) : Host.Outcome State Fault Refusal :=
  answer s (execLogAdd fn.val tag.toNat s)
/-- WIPE_SITE (R389). -/
def takeWipeSite (fn : Func) (tag : BitVec 16) (s : State) : Host.Outcome State Fault Refusal :=
  answer s (execWipeSite fn.val tag.toNat s)
/-- SCRUB_PASS (R373). -/
def takeScrubPass (w : Fin 9) (hbm : Bool) (s : State) : Host.Outcome State Fault Refusal :=
  answer s (execScrubPass w.val hbm s)
/-- ODECC_POLL (R366). -/
def takeOdeccPoll (d : Die) (count : Nat) (s : State) : Host.Outcome State Fault Refusal :=
  answer s (execOdeccPoll d.val count s)
/-- WIPE_COMPLETE (R381). -/
def takeWipeComplete (w : Fin 9) (us : W32) (ok : Bool) (s : State) : Host.Outcome State Fault Refusal :=
  answer s (execWipeComplete w.val us.toNat ok s)
/-- LC_CHANGE (R384). -/
def takeLcChange (fn : Func) (tag : BitVec 16) (s : State) : Host.Outcome State Fault Refusal :=
  answer s (execLcChange fn.val tag.toNat s)
/-- FW_STAGE (R460). -/
def takeFwStage (fn : Func) (tag : BitVec 16) (flashOk : Bool) (s : State) : Host.Outcome State Fault Refusal :=
  answer s (execFwStage fn.val tag.toNat flashOk s)
/-- FW_ACTIVATE (R460). -/
def takeFwActivate (fn : Func) (tag : BitVec 16) (s : State) : Host.Outcome State Fault Refusal :=
  answer s (execFwActivate fn.val tag.toNat s)
/-- FW_SWITCH (R448). -/
def takeFwSwitch (s : State) : Host.Outcome State Fault Refusal := answer s (execFwSwitch s)
/-- FW_REVERT (R448). -/
def takeFwRevert (s : State) : Host.Outcome State Fault Refusal := answer s (execFwRevert s)
/-- SEQ_UPDATE (R449). -/
def takeSeqUpdate (fn : Func) (tag : BitVec 16) (s : State) : Host.Outcome State Fault Refusal :=
  answer s (execSeqUpdate fn.val tag.toNat s)
/-- THERMAL_STEP (R432). -/
def takeThermalStep (temps : List Int) (hub : Int) (inlet : Int) (outlet : Int) (s : State) : Host.Outcome State Fault Refusal :=
  answer s (execThermalStep temps hub inlet outlet s)
/-- THERMTRIP (R431). -/
def takeThermtrip (w : Fin 9) (s : State) : Host.Outcome State Fault Refusal := answer s (execThermtrip w.val s)
/-- COLD_POWER_ON (R442). -/
def takeColdPowerOn (slotId : Fin 8) (s : State) : Host.Outcome State Fault Refusal := answer s (execColdPowerOn slotId.val s)
/-- PWR_EN_ASSERT (R428). -/
def takePwrEnAssert (vin : BitVec 16) (fails : List Nat) (s : State) : Host.Outcome State Fault Refusal :=
  answer s (execPwrEnAssert vin.toNat fails s)
/-- PWR_EN_DEASSERT (R428). -/
def takePwrEnDeassert (s : State) : Host.Outcome State Fault Refusal := answer s (execPwrEnDeassert s)
/-- INPUT_UNDERVOLTAGE (R425). -/
def takeInputUndervoltage (s : State) : Host.Outcome State Fault Refusal := answer s (execInputUndervoltage s)
/-- INPUT_OVERVOLTAGE (R425). -/
def takeInputOvervoltage (s : State) : Host.Outcome State Fault Refusal := answer s (execInputOvervoltage s)
/-- RAIL_OUT_OF_REGULATION (R425). -/
def takeRailOutOfRegulation (rail : Fin 16) (s : State) : Host.Outcome State Fault Refusal :=
  answer s (execRailOutOfRegulation rail.val s)
/-- INPUT_OVERCURRENT (R425). -/
def takeInputOvercurrent (s : State) : Host.Outcome State Fault Refusal := answer s (execInputOvercurrent s)
/-- CONVERTER_OVERTEMPERATURE (R425). -/
def takeConverterOvertemperature (s : State) : Host.Outcome State Fault Refusal := answer s (execConverterOvertemperature s)
/-- VOLTAGE_EXCURSION (R425). -/
def takeVoltageExcursion (high : Bool) (s : State) : Host.Outcome State Fault Refusal := answer s (execVoltageExcursion high s)
/-- FAULT_LATCH_CLEAR (R425). -/
def takeFaultLatchClear (cool : Bool) (s : State) : Host.Outcome State Fault Refusal := answer s (execFaultLatchClear cool s)
/-- MOD_RESET_ASSERT (R442). -/
def takeModResetAssert (s : State) : Host.Outcome State Fault Refusal := answer s (execModResetAssert s)
/-- MODULE_RESET (R442). -/
def takeModuleReset (slotId : Fin 8) (fails : List Nat) (s : State) : Host.Outcome State Fault Refusal :=
  answer s (execModuleReset slotId.val fails s)
/-- PCIE_CONVENTIONAL_RESET (R395). -/
def takePcieConventionalReset (held : Bool) (fails : List Nat) (s : State) : Host.Outcome State Fault Refusal :=
  answer s (execPcieConventionalReset held fails s)
/-- PERST_RELEASE (R444). -/
def takePerstRelease (fails : List Nat) (s : State) : Host.Outcome State Fault Refusal := answer s (execPerstRelease fails s)
/-- SELF_TEST_COMPLETE (R445). -/
def takeSelfTestComplete (bad : List CoreId) (s : State) : Host.Outcome State Fault Refusal :=
  answer s (execSelfTestComplete (bad.map cid) s)
/-- PF_FLR (R395). -/
def takePfFlr (s : State) : Host.Outcome State Fault Refusal := answer s (execPfFlr s)
/-- VF_FLR (R395). -/
def takeVfFlr (vf : Func) (s : State) : Host.Outcome State Fault Refusal := answer s (execVfFlr vf.val s)
/-- VF_ENABLE_CLEAR (R395). -/
def takeVfEnableClear (s : State) : Host.Outcome State Fault Refusal := answer s (execVfEnableClear s)
/-- MSIX_ENABLE (R415). -/
def takeMsixEnable (fn : Func) (en : Bool) (mask : Bool) (s : State) : Host.Outcome State Fault Refusal :=
  answer s (execMsixEnable fn.val en mask s)
/-- SMB_IDENT (R447). -/
def takeSmbIdent (s : State) : Host.Outcome State Fault Refusal := answer s (execSmbIdent s)
/-- SMB_STATUS (R447). -/
def takeSmbStatus (s : State) : Host.Outcome State Fault Refusal := answer s (execSmbStatus s)
/-- ALERT_CAUSE (R447). -/
def takeAlertCause (s : State) : Host.Outcome State Fault Refusal := answer s (execAlertCause s)
/-- TEMPS (R447). -/
def takeTemps (s : State) : Host.Outcome State Fault Refusal := answer s (execTemps s)
/-- SMB_POWER (R447). -/
def takeSmbPower (s : State) : Host.Outcome State Fault Refusal := answer s (execSmbPower s)
/-- REG_READ (R447). -/
def takeRegRead (off : BitVec 26) (s : State) : Host.Outcome State Fault Refusal := answer s (execRegRead off.toNat s)
/-- REG_WRITE (R447). -/
def takeRegWrite (off : BitVec 26) (value : W32) (pec : Bool) (s : State) : Host.Outcome State Fault Refusal :=
  answer s (execRegWrite off.toNat value.toNat pec s)
/-- NODE_CONFIG (R447). -/
def takeNodeConfig (value : W32) (pec : Bool) (s : State) : Host.Outcome State Fault Refusal :=
  answer s (execNodeConfig value.toNat pec s)
/-- ALERT_RESPONSE (R446). -/
def takeAlertResponse (s : State) : Host.Outcome State Fault Refusal := answer s (execAlertResponse s)
/-- REGISTER_WRITE (R4). -/
def takeRegisterWrite (fn : Func) (off : BitVec 26) (len : Nat) (value : W64) (full : Bool) (s : State) : Host.Outcome State Fault Refusal :=
  answer s (execRegisterWrite fn.val off.toNat len value.toNat full s)
/-- RC_READ (R5). -/
def takeRcRead (fn : Func) (off : BitVec 26) (len : Nat) (full : Bool) (s : State) : Host.Outcome State Fault Refusal :=
  answer s (execRcRead fn.val off.toNat len full s)
/-- EVT_STATUS_WRITE (R5). -/
def takeEvtStatusWrite (fn : Func) (off : BitVec 26) (value : W32) (s : State) : Host.Outcome State Fault Refusal :=
  answer s (execEvtStatusWrite fn.val off.toNat value.toNat s)
/-- EVT_ENABLE_WRITE (R415). -/
def takeEvtEnableWrite (fn : Func) (off : BitVec 26) (value : W32) (s : State) : Host.Outcome State Fault Refusal :=
  answer s (execEvtEnableWrite fn.val off.toNat value.toNat s)
/-- EVT_FORCE (R406). -/
def takeEvtForce (fn : Func) (off : BitVec 26) (value : W32) (s : State) : Host.Outcome State Fault Refusal :=
  answer s (execEvtForce fn.val off.toNat value.toNat s)
/-- VMAP_WRITE (R422). -/
def takeVmapWrite (fn : Func) (page : Func) (n : Fin 128) (value : W32) (s : State) : Host.Outcome State Fault Refusal :=
  answer s (execVmapWrite fn.val page.val n.val value.toNat s)
/-- AMAX_WRITE (R39). -/
def takeAmaxWrite (fn : Func) (c : CoreId) (n : Fin 16) (value : W32) (s : State) : Host.Outcome State Fault Refusal :=
  answer s (execAmaxWrite fn.val (cid c) n.val value.toNat s)
/-- TT_RUN_SET (R262). -/
def takeTtRunSet (fn : Func) (k : Slot) (s : State) : Host.Outcome State Fault Refusal := answer s (execTtRunSet fn.val k.val s)
/-- TT_RUN_CLEAR (R263). -/
def takeTtRunClear (fn : Func) (k : Slot) (s : State) : Host.Outcome State Fault Refusal :=
  answer s (execTtRunClear fn.val k.val s)
/-- JOB_REGISTER (R278). -/
def takeJobRegister (fn : Func) (k : Slot) (value : W32) (s : State) : Host.Outcome State Fault Refusal :=
  answer s (execJobRegister fn.val k.val value.toNat s)
/-- CORE_MHZ_WRITE (R434). -/
def takeCoreMhzWrite (fn : Func) (value : W32) (s : State) : Host.Outcome State Fault Refusal :=
  answer s (execCoreMhzWrite fn.val value.toNat s)
/-- UNDEFINED_OPCODE (R405). -/
def takeUndefinedOpcode (fn : Func) (off : BitVec 26) (op : BitVec 8) (tag : BitVec 16) (s : State) : Host.Outcome State Fault Refusal :=
  answer s (execUndefinedOpcode fn.val off.toNat op.toNat tag.toNat s)
/-- LONG_OPERATION_END (R410). -/
def takeLongOperationEnd (off : BitVec 26) (s : State) : Host.Outcome State Fault Refusal :=
  answer s (execLongOperationEnd off.toNat s)
/-- MEMORY_WINDOW_READ (R416). -/
def takeMemoryWindowRead (fn : Func) (off : BitVec 38) (len : Nat) (s : State) : Host.Outcome State Fault Refusal :=
  answer s (execMemoryWindowRead fn.val off.toNat len s)
/-- MEMORY_WINDOW_WRITE (R416). -/
def takeMemoryWindowWrite (fn : Func) (off : BitVec 38) (bytes : List Byte) (s : State) : Host.Outcome State Fault Refusal :=
  answer s (execMemoryWindowWrite fn.val off.toNat bytes s)
/-- TRAIN_DONE (R323). -/
def takeTrainDone (p : Port) (ok : Bool) (s : State) : Host.Outcome State Fault Refusal := answer s (execTrainDone p.val ok s)
/-- PCIE_LINK_CHANGE (R423). -/
def takePcieLinkChange (speed : BitVec 3) (width : BitVec 5) (flit : Bool) (l0p : Bool) (s : State) : Host.Outcome State Fault Refusal :=
  answer s (execPcieLinkChange speed.toNat width.toNat flit l0p s)
/-- MSIX_VECTOR_UNMASK (R415). -/
def takeMsixVectorUnmask (fn : Func) (v : BitVec 11) (s : State) : Host.Outcome State Fault Refusal :=
  answer s (execMsixVectorUnmask fn.val v.toNat s)
/-- MESH_FLIT_RESEND (R363). -/
def takeMeshFlitResend (c : CoreId) (s : State) : Host.Outcome State Fault Refusal := answer s (execMeshFlitResend (cid c) s)
/-- MEM_TEMP_UPDATE (R222). -/
def takeMemTempUpdate (d : Die) (temp : BitVec 8) (s : State) : Host.Outcome State Fault Refusal :=
  answer s (execMemTempUpdate d.val temp.toNat s)
/-- POWER_ALARM (R456). -/
def takePowerAlarm (pin : BitVec 16) (s : State) : Host.Outcome State Fault Refusal := answer s (execPowerAlarm pin.toNat s)
/-- STANDBY_RAIL_LOSS (R447). -/
def takeStandbyRailLoss (s : State) : Host.Outcome State Fault Refusal := answer s (execStandbyRailLoss s)

end Sys2Proof.Machine
end

