-- ==== Sys2Proof/Machine/Dispatch.lean ====
section
/-! DEFINITION. Machine/Dispatch.lean: one arm for each command. -/
namespace Sys2Proof.Machine

def exec (i : Instr) (s : State) : Host.Outcome State Fault Refusal :=
  match i with
  | .li c => Sys2Proof.Machine.takeLi c s
  | .add c => Sys2Proof.Machine.takeAdd c s
  | .sub c => Sys2Proof.Machine.takeSub c s
  | .and c => Sys2Proof.Machine.takeAnd c s
  | .or c => Sys2Proof.Machine.takeOr c s
  | .shl c => Sys2Proof.Machine.takeShl c s
  | .shr c => Sys2Proof.Machine.takeShr c s
  | .cmp c => Sys2Proof.Machine.takeCmp c s
  | .br c => Sys2Proof.Machine.takeBr c s
  | .bz c => Sys2Proof.Machine.takeBz c s
  | .bnz c => Sys2Proof.Machine.takeBnz c s
  | .call c => Sys2Proof.Machine.takeCall c s
  | .ret c => Sys2Proof.Machine.takeRet c s
  | .vld c => Sys2Proof.Machine.takeVld c s
  | .vst c => Sys2Proof.Machine.takeVst c s
  | .vadd c => Sys2Proof.Machine.takeVadd c s
  | .vmul c => Sys2Proof.Machine.takeVmul c s
  | .vmax c => Sys2Proof.Machine.takeVmax c s
  | .vfma c => Sys2Proof.Machine.takeVfma c s
  | .vred c => Sys2Proof.Machine.takeVred c s
  | .vexp c => Sys2Proof.Machine.takeVexp c s
  | .vrsq c => Sys2Proof.Machine.takeVrsq c s
  | .vtanh c => Sys2Proof.Machine.takeVtanh c s
  | .vcvt c => Sys2Proof.Machine.takeVcvt c s
  | .latch c => Sys2Proof.Machine.takeLatch c s
  | .latchBegin c => Sys2Proof.Machine.takeLatchBegin c s
  | .stream c => Sys2Proof.Machine.takeStream c s
  | .streamFill c => Sys2Proof.Machine.takeStreamFill c s
  | .streamBegin c => Sys2Proof.Machine.takeStreamBegin c s
  | .merge c => Sys2Proof.Machine.takeMerge c s
  | .openOp c => Sys2Proof.Machine.takeOpen c s
  | .openBegin c => Sys2Proof.Machine.takeOpenBegin c s
  | .chk c => Sys2Proof.Machine.takeChk c s
  | .chkBegin c => Sys2Proof.Machine.takeChkBegin c s
  | .drain c => Sys2Proof.Machine.takeDrain c s
  | .drainBegin c => Sys2Proof.Machine.takeDrainBegin c s
  | .send c => Sys2Proof.Machine.takeSend c s
  | .sendTransmit c => Sys2Proof.Machine.takeSendTransmit c s
  | .recv c => Sys2Proof.Machine.takeRecv c s
  | .steer c => Sys2Proof.Machine.takeSteer c s
  | .claim c => Sys2Proof.Machine.takeClaim c s
  | .wait c => Sys2Proof.Machine.takeWait c s
  | .signal c => Sys2Proof.Machine.takeSignal c s
  | .fence c => Sys2Proof.Machine.takeFence c s
  | .fenceComplete c => Sys2Proof.Machine.takeFenceComplete c s
  | .endOp c => Sys2Proof.Machine.takeEnd c s
  | .yield c => Sys2Proof.Machine.takeYield c s
  | .dataTokenArrive n => Sys2Proof.Machine.takeDataTokenArrive n s
  | .controlTokenArrive n => Sys2Proof.Machine.takeControlTokenArrive n s
  | .signalTokenArrive n => Sys2Proof.Machine.takeSignalTokenArrive n s
  | .claimRequest n => Sys2Proof.Machine.takeClaimRequest n s
  | .claimResponse n => Sys2Proof.Machine.takeClaimResponse n s
  | .taskDispatch d l => Sys2Proof.Machine.takeTaskDispatch d l s
  | .dispatch n => Sys2Proof.Machine.takeDispatch n s
  | .taskResume n => Sys2Proof.Machine.takeTaskResume n s
  | .ended n => Sys2Proof.Machine.takeEnded n s
  | .yielded n => Sys2Proof.Machine.takeYielded n s
  | .taskDiscard n => Sys2Proof.Machine.takeTaskDiscard n s
  | .confirm n => Sys2Proof.Machine.takeConfirm n s
  | .taskCommit n => Sys2Proof.Machine.takeTaskCommit n s
  | .depSatisfy n => Sys2Proof.Machine.takeDepSatisfy n s
  | .depStart n => Sys2Proof.Machine.takeDepStart n s
  | .depCommit n => Sys2Proof.Machine.takeDepCommit n s
  | .depDiscard n => Sys2Proof.Machine.takeDepDiscard n s
  | .depFault n => Sys2Proof.Machine.takeDepFault n s
  | .deadlineMiss d n => Sys2Proof.Machine.takeDeadlineMiss d n s
  | .dieDone d cycles => Sys2Proof.Machine.takeDieDone d cycles s
  | .tickDoneReceive n => Sys2Proof.Machine.takeTickDoneReceive n s
  | .tickMarkerEmit k extra => Sys2Proof.Machine.takeTickMarkerEmit k extra s
  | .markerRelay n => Sys2Proof.Machine.takeMarkerRelay n s
  | .tickStart d => Sys2Proof.Machine.takeTickStart d s
  | .tickOverrun k => Sys2Proof.Machine.takeTickOverrun k s
  | .stretchLimitExpiry k => Sys2Proof.Machine.takeStretchLimitExpiry k s
  | .markerMissed k => Sys2Proof.Machine.takeMarkerMissed k s
  | .armed n => Sys2Proof.Machine.takeArmed n s
  | .pause n => Sys2Proof.Machine.takePause n s
  | .tickResume n => Sys2Proof.Machine.takeTickResume n s
  | .stopComplete k => Sys2Proof.Machine.takeStopComplete k s
  | .start fn k tag => Sys2Proof.Machine.takeStart fn k tag s
  | .stop fn k tag => Sys2Proof.Machine.takeStop fn k tag s
  | .epochSet fn k tag => Sys2Proof.Machine.takeEpochSet fn k tag s
  | .tckCalibrate fn k tag => Sys2Proof.Machine.takeTckCalibrate fn k tag s
  | .submit fn d tag => Sys2Proof.Machine.takeSubmit fn d tag s
  | .coreSwap fn d t tag => Sys2Proof.Machine.takeCoreSwap fn d t tag s
  | .coreSwapApply d t => Sys2Proof.Machine.takeCoreSwapApply d t s
  | .load fn k im tag => Sys2Proof.Machine.takeLoad fn k im tag s
  | .halt fn k tag => Sys2Proof.Machine.takeHalt fn k tag s
  | .resume fn k tag => Sys2Proof.Machine.takeResume fn k tag s
  | .ctxSave fn k tag => Sys2Proof.Machine.takeCtxSave fn k tag s
  | .ctxRestore fn k tag => Sys2Proof.Machine.takeCtxRestore fn k tag s
  | .wipe fn k tag => Sys2Proof.Machine.takeWipe fn k tag s
  | .layout fn tag => Sys2Proof.Machine.takeLayout fn tag s
  | .timetableEntryEnd k => Sys2Proof.Machine.takeTimetableEntryEnd k s
  | .idleEntryExpiry k => Sys2Proof.Machine.takeIdleEntryExpiry k s
  | .preemptTimeout c => Sys2Proof.Machine.takePreemptTimeout c s
  | .saveBegin k => Sys2Proof.Machine.takeSaveBegin k s
  | .samplerSample d links => Sys2Proof.Machine.takeSamplerSample d links s
  | .clear fn d tag => Sys2Proof.Machine.takeClear fn d tag s
  | .init fn d tag => Sys2Proof.Machine.takeInit fn d tag s
  | .region fn d tag => Sys2Proof.Machine.takeRegion fn d tag s
  | .map fn d tag => Sys2Proof.Machine.takeMap fn d tag s
  | .unmap fn d tag => Sys2Proof.Machine.takeUnmap fn d tag s
  | .attr fn d tag => Sys2Proof.Machine.takeAttr fn d tag s
  | .migrate fn d tag => Sys2Proof.Machine.takeMigrate fn d tag s
  | .walk fn d tag => Sys2Proof.Machine.takeWalk fn d tag s
  | .pool fn d tag => Sys2Proof.Machine.takePool fn d tag s
  | .quota fn d tag => Sys2Proof.Machine.takeQuota fn d tag s
  | .migratorSweep k => Sys2Proof.Machine.takeMigratorSweep k s
  | .demotion k => Sys2Proof.Machine.takeDemotion k s
  | .pageSwitch k vpn => Sys2Proof.Machine.takePageSwitch k vpn s
  | .memCalibrate fn d tag => Sys2Proof.Machine.takeMemCalibrate fn d tag s
  | .stmArm fn d tag => Sys2Proof.Machine.takeStmArm fn d tag s
  | .gchArm fn d tag => Sys2Proof.Machine.takeGchArm fn d tag s
  | .stmRestart fn d tag => Sys2Proof.Machine.takeStmRestart fn d tag s
  | .gchRestart fn d tag => Sys2Proof.Machine.takeGchRestart fn d tag s
  | .invalidate fn d tag => Sys2Proof.Machine.takeInvalidate fn d tag s
  | .streamArmStart d n => Sys2Proof.Machine.takeStreamArmStart d n s
  | .gatherArmStart d n => Sys2Proof.Machine.takeGatherArmStart d n s
  | .armComplete d g n => Sys2Proof.Machine.takeArmComplete d g n s
  | .post fn k tag => Sys2Proof.Machine.takePost fn k tag s
  | .groupWrite fn k tag => Sys2Proof.Machine.takeGroupWrite fn k tag s
  | .collDataSegment p => Sys2Proof.Machine.takeCollDataSegment p s
  | .collGrant p => Sys2Proof.Machine.takeCollGrant p s
  | .collBarrier p => Sys2Proof.Machine.takeCollBarrier p s
  | .collectiveRunComplete k op => Sys2Proof.Machine.takeCollectiveRunComplete k op s
  | .flitReceive p bytes => Sys2Proof.Machine.takeFlitReceive p bytes s
  | .nakReplay p => Sys2Proof.Machine.takeNakReplay p s
  | .heartbeatSend p => Sys2Proof.Machine.takeHeartbeatSend p s
  | .heartbeatTimeout p => Sys2Proof.Machine.takeHeartbeatTimeout p s
  | .flidricTokenArrive p => Sys2Proof.Machine.takeFlidricTokenArrive p s
  | .linkRetrain fn p tag => Sys2Proof.Machine.takeLinkRetrain fn p tag s
  | .maintSet fn p => Sys2Proof.Machine.takeMaintSet fn p s
  | .saddleFlitReplay saddle => Sys2Proof.Machine.takeSaddleFlitReplay saddle s
  | .ckptBegin fn k tag => Sys2Proof.Machine.takeCkptBegin fn k tag s
  | .ckptCancel fn k tag => Sys2Proof.Machine.takeCkptCancel fn k tag s
  | .checkpointHold k => Sys2Proof.Machine.takeCheckpointHold k s
  | .cowCopy k => Sys2Proof.Machine.takeCowCopy k s
  | .ckptCopy p => Sys2Proof.Machine.takeCkptCopy p s
  | .ckptAck p => Sys2Proof.Machine.takeCkptAck p s
  | .crcReq p => Sys2Proof.Machine.takeCrcReq p s
  | .crcRsp p => Sys2Proof.Machine.takeCrcRsp p s
  | .pageReq p => Sys2Proof.Machine.takePageReq p s
  | .pageRsp p => Sys2Proof.Machine.takePageRsp p s
  | .heldReq p => Sys2Proof.Machine.takeHeldReq p s
  | .heldRsp p => Sys2Proof.Machine.takeHeldRsp p s
  | .restore fn k tag => Sys2Proof.Machine.takeRestore fn k tag s
  | .verify fn k tag => Sys2Proof.Machine.takeVerify fn k tag s
  | .expose fn k tag => Sys2Proof.Machine.takeExpose fn k tag s
  | .logAdd fn tag => Sys2Proof.Machine.takeLogAdd fn tag s
  | .wipeSite fn tag => Sys2Proof.Machine.takeWipeSite fn tag s
  | .scrubPass w hbm => Sys2Proof.Machine.takeScrubPass w hbm s
  | .odeccPoll d count => Sys2Proof.Machine.takeOdeccPoll d count s
  | .wipeComplete w us ok => Sys2Proof.Machine.takeWipeComplete w us ok s
  | .lcChange fn tag => Sys2Proof.Machine.takeLcChange fn tag s
  | .fwStage fn tag flashOk => Sys2Proof.Machine.takeFwStage fn tag flashOk s
  | .fwActivate fn tag => Sys2Proof.Machine.takeFwActivate fn tag s
  | .fwSwitch => Sys2Proof.Machine.takeFwSwitch s
  | .fwRevert => Sys2Proof.Machine.takeFwRevert s
  | .seqUpdate fn tag => Sys2Proof.Machine.takeSeqUpdate fn tag s
  | .thermalStep temps hub inlet outlet => Sys2Proof.Machine.takeThermalStep temps hub inlet outlet s
  | .thermtrip w => Sys2Proof.Machine.takeThermtrip w s
  | .coldPowerOn slotId => Sys2Proof.Machine.takeColdPowerOn slotId s
  | .pwrEnAssert vin fails => Sys2Proof.Machine.takePwrEnAssert vin fails s
  | .pwrEnDeassert => Sys2Proof.Machine.takePwrEnDeassert s
  | .inputUndervoltage => Sys2Proof.Machine.takeInputUndervoltage s
  | .inputOvervoltage => Sys2Proof.Machine.takeInputOvervoltage s
  | .railOutOfRegulation rail => Sys2Proof.Machine.takeRailOutOfRegulation rail s
  | .inputOvercurrent => Sys2Proof.Machine.takeInputOvercurrent s
  | .converterOvertemperature => Sys2Proof.Machine.takeConverterOvertemperature s
  | .voltageExcursion high => Sys2Proof.Machine.takeVoltageExcursion high s
  | .faultLatchClear cool => Sys2Proof.Machine.takeFaultLatchClear cool s
  | .modResetAssert => Sys2Proof.Machine.takeModResetAssert s
  | .moduleReset slotId fails => Sys2Proof.Machine.takeModuleReset slotId fails s
  | .pcieConventionalReset held fails => Sys2Proof.Machine.takePcieConventionalReset held fails s
  | .perstRelease fails => Sys2Proof.Machine.takePerstRelease fails s
  | .selfTestComplete bad => Sys2Proof.Machine.takeSelfTestComplete bad s
  | .pfFlr => Sys2Proof.Machine.takePfFlr s
  | .vfFlr vf => Sys2Proof.Machine.takeVfFlr vf s
  | .vfEnableClear => Sys2Proof.Machine.takeVfEnableClear s
  | .msixEnable fn en mask => Sys2Proof.Machine.takeMsixEnable fn en mask s
  | .smbIdent => Sys2Proof.Machine.takeSmbIdent s
  | .smbStatus => Sys2Proof.Machine.takeSmbStatus s
  | .alertCause => Sys2Proof.Machine.takeAlertCause s
  | .temps => Sys2Proof.Machine.takeTemps s
  | .smbPower => Sys2Proof.Machine.takeSmbPower s
  | .regRead off => Sys2Proof.Machine.takeRegRead off s
  | .regWrite off value pec => Sys2Proof.Machine.takeRegWrite off value pec s
  | .nodeConfig value pec => Sys2Proof.Machine.takeNodeConfig value pec s
  | .alertResponse => Sys2Proof.Machine.takeAlertResponse s
  | .registerWrite fn off len value full => Sys2Proof.Machine.takeRegisterWrite fn off len value full s
  | .rcRead fn off len full => Sys2Proof.Machine.takeRcRead fn off len full s
  | .evtStatusWrite fn off value => Sys2Proof.Machine.takeEvtStatusWrite fn off value s
  | .evtEnableWrite fn off value => Sys2Proof.Machine.takeEvtEnableWrite fn off value s
  | .evtForce fn off value => Sys2Proof.Machine.takeEvtForce fn off value s
  | .vmapWrite fn page n value => Sys2Proof.Machine.takeVmapWrite fn page n value s
  | .amaxWrite fn c n value => Sys2Proof.Machine.takeAmaxWrite fn c n value s
  | .ttRunSet fn k => Sys2Proof.Machine.takeTtRunSet fn k s
  | .ttRunClear fn k => Sys2Proof.Machine.takeTtRunClear fn k s
  | .jobRegister fn k value => Sys2Proof.Machine.takeJobRegister fn k value s
  | .coreMhzWrite fn value => Sys2Proof.Machine.takeCoreMhzWrite fn value s
  | .undefinedOpcode fn off op tag => Sys2Proof.Machine.takeUndefinedOpcode fn off op tag s
  | .longOperationEnd off => Sys2Proof.Machine.takeLongOperationEnd off s
  | .memoryWindowRead fn off len => Sys2Proof.Machine.takeMemoryWindowRead fn off len s
  | .memoryWindowWrite fn off bytes => Sys2Proof.Machine.takeMemoryWindowWrite fn off bytes s
  | .trainDone p ok => Sys2Proof.Machine.takeTrainDone p ok s
  | .pcieLinkChange speed width flit l0p => Sys2Proof.Machine.takePcieLinkChange speed width flit l0p s
  | .msixVectorUnmask fn v => Sys2Proof.Machine.takeMsixVectorUnmask fn v s
  | .meshFlitResend c => Sys2Proof.Machine.takeMeshFlitResend c s
  | .memTempUpdate d temp => Sys2Proof.Machine.takeMemTempUpdate d temp s
  | .powerAlarm pin => Sys2Proof.Machine.takePowerAlarm pin s
  | .standbyRailLoss => Sys2Proof.Machine.takeStandbyRailLoss s

end Sys2Proof.Machine
end

