-- ==== Sys2Proof/WellFormed.lean ====
section
/-! DEFINITION. WellFormed.lean: the checks on the operands of a command that its types do not make: lengths of lists, sizes of
accesses, and numbers that must name something. A command that fails them stands for nothing that can reach the module. -/
namespace Sys2Proof

/-- A record's place in an image: PLACEMENT index and image die (R117). -/
def placeWf (placement die : Nat) : Bool := decide (placement ≤ 5) && decide (die < 8)

/-- An image's records: descriptors of their lengths, dies that exist, and numbers that fit their fields (R117, R158, R227); a core
or a program store out of range is the loader's to refuse (R122). -/
def Image.wf (im : Image) : Bool :=
  im.progs.all (fun p => placeWf p.placement p.die && decide (p.core < 512))
    && im.tasks.all (fun t => placeWf t.placement t.die && t.desc.length == 40)
    && im.bufs.all (fun b => placeWf b.placement b.die && decide (b.kind < 6))
    && im.streams.all (fun x => placeWf x.placement x.die && decide (x.index < 1024) && x.bytes.length == 32)
    && im.gathers.all (fun x => placeWf x.placement x.die && decide (x.index < 1024) && x.bytes.length == 32)
    && im.terrs.all (fun t => decide (t.placement ≤ 5) && decide (t.stage < 64))
    && im.ests.all (fun e => placeWf e.placement e.die && decide (e.core < 512))
    && im.classes.all (fun c => decide (c.placement ≤ 5) && decide (c.index < 16))
    && im.counters.all (fun c => placeWf c.placement c.die)
    && im.gens.all (fun g => decide (g.placement ≤ 5) && decide (g.pages < 2 ^ 24))

/-- Whether a command's operands are ones that can occur. -/
def Instr.wf (i : Instr) : Bool :=
  match i with
  | .li _ | .add _ | .sub _ | .and _ | .or _ | .shl _ | .shr _ | .cmp _ | .br _ | .bz _ | .bnz _ | .call _ | .ret _ | .vld _
  | .vst _ | .vadd _ | .vmul _ | .vmax _ | .vfma _ | .vred _ | .vexp _ | .vrsq _ | .vtanh _ | .vcvt _ | .latch _ | .latchBegin _
  | .stream _ | .streamFill _ | .streamBegin _ | .merge _ | .openOp _ | .openBegin _ | .chk _ | .chkBegin _ | .drain _
  | .drainBegin _ | .send _ | .sendTransmit _ | .recv _ | .steer _ | .claim _ | .wait _ | .signal _ | .fence _ | .fenceComplete _
  | .endOp _ | .yield _ | .dataTokenArrive _ | .controlTokenArrive _ | .signalTokenArrive _ | .claimRequest _ | .claimResponse _
  | .taskDispatch _ _ | .dispatch _ | .taskResume _ | .ended _ | .yielded _ | .taskDiscard _ | .confirm _ | .taskCommit _
  | .depSatisfy _ | .depStart _ | .depCommit _ | .depDiscard _ | .depFault _ | .deadlineMiss _ _ | .dieDone _ _
  | .tickDoneReceive _ | .tickMarkerEmit _ _ | .markerRelay _ | .tickStart _ | .tickOverrun _ | .stretchLimitExpiry _
  | .markerMissed _ | .armed _ | .pause _ | .tickResume _ | .stopComplete _ | .start _ _ _ | .stop _ _ _ | .epochSet _ _ _
  | .tckCalibrate _ _ _ | .submit _ _ _ | .coreSwap _ _ _ _ | .coreSwapApply _ _ => true
  | .load _ _ im _ => im.wf
  | .halt _ _ _ | .resume _ _ _ | .ctxSave _ _ _ | .ctxRestore _ _ _ | .wipe _ _ _ | .layout _ _ | .timetableEntryEnd _
  | .idleEntryExpiry _ | .preemptTimeout _ | .saveBegin _ => true
  | .samplerSample _ links => decide (links.length ≤ 1440) && links.all (· ≤ 22)
  | .clear _ _ _ | .init _ _ _ | .region _ _ _ | .map _ _ _ | .unmap _ _ _ | .attr _ _ _ | .migrate _ _ _ | .walk _ _ _
  | .pool _ _ _ | .quota _ _ _ | .migratorSweep _ | .demotion _ | .pageSwitch _ _ | .memCalibrate _ _ _ | .stmArm _ _ _
  | .gchArm _ _ _ | .stmRestart _ _ _ | .gchRestart _ _ _ | .invalidate _ _ _ | .streamArmStart _ _ | .gatherArmStart _ _
  | .armComplete _ _ _ | .post _ _ _ | .groupWrite _ _ _ | .collDataSegment _ | .collGrant _ | .collBarrier _
  | .collectiveRunComplete _ _ => true
  | .flitReceive _ bytes => bytes.length == 256
  | .nakReplay _ | .heartbeatSend _ | .heartbeatTimeout _ | .flidricTokenArrive _ | .linkRetrain _ _ _ | .maintSet _ _
  | .saddleFlitReplay _ | .ckptBegin _ _ _ | .ckptCancel _ _ _ | .checkpointHold _ | .cowCopy _ | .ckptCopy _ | .ckptAck _
  | .crcReq _ | .crcRsp _ | .pageReq _ | .pageRsp _ | .heldReq _ | .heldRsp _ | .restore _ _ _ | .verify _ _ _ | .expose _ _ _
  | .logAdd _ _ | .wipeSite _ _ | .scrubPass _ _ | .odeccPoll _ _ | .wipeComplete _ _ _ | .lcChange _ _ | .fwStage _ _ _
  | .fwActivate _ _ | .fwSwitch | .fwRevert | .seqUpdate _ _ => true
  | .thermalStep ts _ _ _ => ts.length == 192
  | .thermtrip _ | .coldPowerOn _ => true
  | .pwrEnAssert _ fails => fails.length == 12
  | .pwrEnDeassert | .inputUndervoltage | .inputOvervoltage | .railOutOfRegulation _ | .inputOvercurrent
  | .converterOvertemperature | .voltageExcursion _ | .faultLatchClear _ | .modResetAssert => true
  | .moduleReset _ fails => fails.length == 12
  | .pcieConventionalReset _ fails => fails.length == 12
  | .perstRelease fails => fails.length == 12
  | .selfTestComplete bad => bad.Nodup
  | .pfFlr => true
  | .vfFlr vf => vf != 0
  | .vfEnableClear | .msixEnable _ _ _ | .smbIdent | .smbStatus | .alertCause | .temps | .smbPower | .regRead _ | .regWrite _ _ _
  | .nodeConfig _ _ | .alertResponse => true
  | .registerWrite _ _ len _ _ => decide (1 ≤ len ∧ len ≤ 512)
  | .rcRead _ _ len _ => decide (1 ≤ len ∧ len ≤ 4096)
  | .evtStatusWrite _ off _ => off.toNat % 4096 == 0
  | .evtEnableWrite _ off _ => off.toNat % 4096 == 0
  | .evtForce _ off _ => off.toNat % 4096 == 0
  | .vmapWrite _ _ _ _ | .amaxWrite _ _ _ _ | .ttRunSet _ _ | .ttRunClear _ _ | .jobRegister _ _ _ | .coreMhzWrite _ _ => true
  | .undefinedOpcode _ off _ _ => off.toNat % 4096 == 0
  | .longOperationEnd off => off.toNat % 4096 == 0
  | .memoryWindowRead _ off len => decide (1 ≤ len ∧ off.toNat + len ≤ 2 ^ 38)
  | .memoryWindowWrite _ off bytes => decide (1 ≤ bytes.length ∧ bytes.length ≤ 512 ∧ off.toNat + bytes.length ≤ 2 ^ 38)
  | .trainDone _ _ => true
  | .pcieLinkChange speed width _ _ => decide (1 ≤ speed.toNat ∧ speed.toNat ≤ 6) && [1, 2, 4, 8, 16].contains width.toNat
  | .msixVectorUnmask fn v => decide (v.toNat < if fn = 0 then 2048 else 256)
  | .meshFlitResend _ | .memTempUpdate _ _ | .powerAlarm _ | .standbyRailLoss => true

end Sys2Proof
end

