-- ==== Sys2Proof/Safety.lean ====
section
/-! DEFINITION. Safety.lean: what counts as a safe run, and the terms in which claims say when a command takes its effect. -/
namespace Sys2Proof.Safety
open Sys2Proof.Machine

/-- A run of k steps is safe if it ends in a state: no step faults and none is refused. -/
def SafeFor (k : Nat) (s : State) : Prop := ∃ t, Sys2Proof.core.run k s = .next t

/-- Every command that waits has operands that can occur. -/
def QueueWf (s : State) : Bool := s.pending.all Instr.wf

/-- When a write of a function reaches a page and takes its effect (R383, R393, R394, R398, R408, R419, R442): the module hears the function, it
owns the page, no LAYOUT runs for a virtual function, the page answers in the life-cycle state, and it is not busy. -/
def Admitted (s : State) (fn : Nat) (p : Page) : Prop :=
  hears s fn = true ∧ owns s fn p = true ∧ (fn = 0 ∨ layoutRuns s = false) ∧ answers s p = true ∧ busy s p = false

/-- When a core runs the instruction word at its PC (R83, R84, R95, R363, R367): it carries a logical core of a partition that
runs, its task r is neither halted, ended nor waiting, the word at the PC is readable and legal, and its sources have good
parity. -/
structure Ready (s : State) (id : CoreId) (r : Run) (w : Nat) : Prop where
  task : (getCore s (cid id)).run = some r
  goes : issues s (cid id) (getCore s (cid id)) r = true
  inStore : (getCore s (cid id)).pc < 4096
  clean : badWords s (coreAddr (cid id) (8 * (getCore s (cid id)).pc)) 8 = []
  word : bytesAt (memRead s (coreAddr (cid id) (8 * (getCore s (cid id)).pc)) 8) 0 8 = w
  legal : wordLegal w = true
  narrow : namesTask w = false ∨ r.narrow = true
  parity : badSource (getCore s (cid id)) w = none

/-- The machine after an instruction that leaves its core as c and goes on to the next word. -/
def goesOn (s : State) (id : CoreId) (c : Core) : State :=
  setCore s (cid id) { c with pc := (getCore s (cid id)).pc + 1, stall := 0 }

/-- The machine after an instruction that leaves its core as c and branches to a word. -/
def goesTo (s : State) (id : CoreId) (c : Core) (pc : Nat) : State := setCore s (cid id) { c with pc := pc, stall := 0 }

/-- The machine after an instruction that cannot go on: nothing but COR.STALL changes. -/
def stalls (s : State) (id : CoreId) (why : Nat) : State := setCore s (cid id) { getCore s (cid id) with stall := why }

/-- When the array may take the queued instruction e of the running task r at the head of a core's queue (R53, R56). -/
structure Front (s : State) (id : CoreId) (e : QEntry) (rest : List QEntry) (r : Run) : Prop where
  queue : (getCore s (cid id)).queue = e :: rest
  owner : entryRun (getCore s (cid id)) e = some r
  goes : arrayGoes s (cid id) (getCore s (cid id)) = true

/-- The queue entry that an array instruction word places (R53, R90). -/
def queued (c : Core) (r : Run) (w : Nat) (op : ArrOp) : QEntry := ⟨op, c.pc, opcodeOf w, r.ctx, r.fmtNow, none, 0, c.serial⟩

/-- When an array instruction may enter the queue of 8 (R22, R42, R53, R56, R80). -/
def enters (c : Core) (r : Run) (op : ArrOp) : Prop :=
  c.queue.length < 8 ∧ arrayIllegal c r.fmtNow op = false ∧ arrayOutside c r.fmtNow op = false

/-- A token of a kind and tag that is next on its path, at its place n among those in flight (R286). -/
structure Arrives (s : State) (n kind : Nat) (x : Flight) : Prop where
  next : arriving s n = some x
  kind : x.tok.kind = kind

/-- A token for a logical core that site k of a die carries, of the partition's epoch (R98, R148). -/
structure ForCore (s : State) (n kind k : Nat) (x : Flight) : Prop extends Arrives s n kind x where
  near : x.tok.dest.core < 360
  site : coreOf s x.tok.dest.die x.tok.dest.core = some k
  epoch : x.tok.epoch = epochOf s (slotOf s x.tok.dest.die)

/-- A TASK report for the slice of a die about context i, which runs the task that it names (R177). -/
structure ForSlice (s : State) (n tag d i : Nat) (x : Flight) : Prop extends Arrives s n 2 x where
  tag : x.tok.tag = tag
  slice : 0x188 ≤ x.tok.dest.core
  die : x.tok.dest.die = d
  context : ctxOf x.tok.value = i
  epoch : x.tok.epoch = epochOf s (slotOf s d)
  same : (getCtx s d i).task = x.tok.value
  runs : (getCtx s d i).state = .running

/-- A DEP token for the task engine of a die whose tick is in progress, about context i (R162, R176). -/
structure ForEngine (s : State) (n tag d i : Nat) (x : Flight) : Prop extends Arrives s n 3 x where
  tag : x.tok.tag = tag
  engine : x.tok.dest.core = 0x168
  die : x.tok.dest.die = d
  context : ctxOf x.tok.value = i
  epoch : x.tok.epoch = epochOf s (slotOf s d)
  inTick : betweenTicks s d = false

/-- The entries of a context's successor list, none or as the successor cache of its die holds them undamaged (R158, R159). -/
def CachedList (s : State) (d i : Nat) (es : List Nat) : Prop :=
  ((getCtx s d i).nsucc = 0 ∧ es = []) ∨ (0 < (getCtx s d i).nsucc ∧ tfind (getDie s d).succs i = some (es, []))

/-- Room for n created pages in the pool of a tier (of a stack, where one is named), whatever places the pages created before each take
(R208: which sectors is not defined). -/
def RoomToMap (x : SlotSt) (tier : Nat) (stack : Option Nat) (n : Nat) : Prop :=
  ∀ new : List (Nat × Nat), new.length < n →
    ∃ r ∈ freeRanges { x with ptes := new.foldl (fun t e => tset 0 t e.1 e.2) x.ptes } tier stack, 16 ≤ r.2

/-- Room for n moved pages in the pool of a tier, whatever places the moves before each take (R208, R213). -/
def RoomToMove (x : SlotSt) (tier : Nat) (stack : Option Nat) (n : Nat) : Prop :=
  ∀ l : List Transit, l.length < n → ∃ r ∈ freeRanges { x with transit := x.transit ++ l } tier stack, 16 ≤ r.2

/-- A TICK token of a tag for the generator of slot k (R134, R138, R150). -/
structure ForGenerator (s : State) (n tag k : Nat) (x : Flight) : Prop extends Arrives s n 4 x where
  tag : x.tok.tag = tag
  hub : x.tok.dest.die = 8
  core : x.tok.dest.core = 0x168 + k
  slot : k < 8
  epoch : x.tok.epoch = epochOf s k

/-- When the PGT page of a die takes a command (R219): the write is admitted, no earlier command waits, the die is the home die
of its partition, and translation is on. -/
structure PgtReady (s : State) (fn d : Nat) : Prop where
  admitted : Admitted s fn (.pgt d)
  free : cmdActive s (.pgt d) = false
  home : homeDie s (slotOf s d) = d
  on : pgtEnabled s (slotOf s d) = true

/-- A range of device virtual addresses lies in one page that an access finds: uncoded, on a stack, at physical address a. -/
def FlatAt (s : State) (k va n : Nat) (write : Bool) (a : Nat) : Prop :=
  0 < n ∧ va < 2 ^ 48 ∧ va % pageSize + n ≤ pageSize ∧ ∃ e, (∀ c, look s k c (va / pageSize) write false = .found e) ∧
    pteTier e = 1 ∧ pteCoded e = false ∧ a = pteAddr e + va % pageSize

/-- Memory as it was but for n bytes from a. -/
def OnlyBytes (s t : State) (a n : Nat) : Prop := ∀ x, x < a ∨ a + n ≤ x → rdByte t x = rdByte s x

/-- When a stream or gather arm may start on a core's SRAM (R228, R230, R82): the descriptor is ACTIVE with an arm that has not
moved and no FENCE holds, fewer than 32 arms of the die move, and the core's SRAM has no shadow region, no open group and no error. -/
structure ArmReady (s : State) (d : Nat) (g : Bool) (i : Nat) (x : SDesc) (a : Arm) (key : Nat) : Prop where
  desc : getDesc s d g i = x
  active : x.state = 1
  arm : x.arm = some a
  fresh : a.moved = false
  room : (movingArms s d).length < 32
  core : coreOf s d (dCore x.bytes) = some key
  flat : (getCore s key).shadows = [] ∧ openGroups (getCore s key) = [] ∧ (getCore s key).busy = []
  free : fenceHolds s d a.req = false
  clean : s.synd = [] ∧ s.hard = []

/-- A whole collective segment b of a kind stands first at port p, for this module, of a valid group of slot k and its
membership (R315, R317). -/
structure SegmentAt (s : State) (p kind k i : Nat) (b : List Byte) : Prop where
  first : ∃ cls, firstSeg (getPort s p) = some (i, cls, b)
  kind : segKind b = kind
  slot : portSlot s p = some k
  dest : segDest b = moduleNo s
  group : inGroups s k (segGroup b) = true ∧ grpValid (groupOf s k (segGroup b)) = true
  version : segVersion b = grpVersion (groupOf s k (segGroup b))

/-- The function and the page of a command that is one write of a register of a page (R398, R405). -/
def commandPage : Instr → Option (Func × Page)
  | .start fn k _ | .stop fn k _ | .epochSet fn k _ | .tckCalibrate fn k _ => some (fn, .tckG k)
  | .submit fn d _ => some (fn, .tke d)
  | .coreSwap fn d t _ => some (fn, .trc d t)
  | .load fn k _ _ | .halt fn k _ | .resume fn k _ | .ctxSave fn k _ | .ctxRestore fn k _ | .wipe fn k _ | .ttRunSet fn k
  | .ttRunClear fn k | .jobRegister fn k _ => some (fn, .tmt k)
  | .layout fn _ => some (fn, .tmt 8)
  | .clear fn d _ => some (fn, .smp d)
  | .init fn d _ | .region fn d _ | .map fn d _ | .unmap fn d _ | .attr fn d _ | .migrate fn d _ | .walk fn d _ | .pool fn d _
  | .quota fn d _ => some (fn, .pgt d)
  | .memCalibrate fn d _ => some (fn, .mem d)
  | .stmArm fn d _ | .stmRestart fn d _ => some (fn, .stm d)
  | .gchArm fn d _ | .gchRestart fn d _ | .invalidate fn d _ => some (fn, .gch d)
  | .post fn k _ | .groupWrite fn k _ => some (fn, .clv k)
  | .linkRetrain fn p _ | .maintSet fn p => some (fn, .fld p)
  | .ckptBegin fn k _ | .ckptCancel fn k _ | .restore fn k _ | .verify fn k _ | .expose fn k _ => some (fn, .ckp k)
  | .logAdd fn _ | .wipeSite fn _ => some (fn, .fus)
  | .lcChange fn _ => some (fn, .lcs)
  | .fwStage fn _ _ | .fwActivate fn _ | .seqUpdate fn _ => some (fn, .kld 8)
  | .coreMhzWrite fn _ => some (fn, .pwr)
  | .vmapWrite fn i _ _ => some (fn, .pcx i)
  | .amaxWrite fn c _ _ => some (fn, corPage (cid c))
  | .evtStatusWrite fn off _ | .evtEnableWrite fn off _ | .evtForce fn off _ | .undefinedOpcode fn off _ _ =>
    (pageOf off.toNat).map (fun p => (fn, p))
  | .registerWrite fn off len _ full =>
    if full = true ∧ len = 4 ∧ off.toNat % 4 = 0 ∧ off.toNat < msixTable then (pageOf off.toNat).map (fun p => (fn, p)) else none
  | _ => none

/-- What an access of a function to a page that it does not own leaves: only the function's own PCX page, its messages and the
model's counter of open values may differ. -/
structure Untouched (s t : State) (fn : Nat) : Prop where
  mem : t.mem = s.mem ∧ t.synd = s.synd
  cores : t.cores = s.cores
  engines : t.dies = s.dies ∧ t.slots = s.slots ∧ t.net = s.net ∧ t.ports = s.ports
  hub : t.cmds = s.cmds ∧ t.masks = s.masks ∧ t.repairs = s.repairs ∧ t.board = s.board
  pages : ∀ off, pageOf off ≠ some (.pcx fn) → regAt t off = regAt s off
  counted : rd t (.pcx fn) pcx_FOREIGN = min (rd s (.pcx fn) pcx_FOREIGN + 1) 0xFFFFFFFF

end Sys2Proof.Safety
end

