-- ==== Sys2Proof/Certificates/Slice0/Obligations.lean ====
section
/-! DEFINITION. Certificates/Slice0/Obligations.lean: the statements about the model for the provers. -/
open Sys2Proof
open Sys2Proof.Machine
open Sys2Proof.Safety

/-! ## The step -/

/-- A step takes the command at the front of the queue and answers what it answers with the rest of the queue; on an empty queue the
block idles (the model's choice, log entry 1). -/
def Obligations.StepRunsFrontCommand : Prop :=
  (∀ (c : Instr) (rest : List Instr) (s : State),
    step { s with pending := c :: rest } = exec c { s with pending := rest }) ∧
  ∀ s : State, s.pending = [] → step s = .next s

/-! ## Core programs: scalar, branch and vector instructions (R78 to R89) -/

/-- Reading a register after a write (R78): s0 reads as zero and ignores the write, an a register keeps bits [21:0] and reads
zero-extended, every other register keeps its value. -/
def Obligations.RegisterWriteThenRead : Prop :=
  ∀ (c : Core) (r q : Nat) (v : W32), r < 24 → q < 24 →
    regVal (setReg c r v) 0 = 0 ∧
    (0 < r → r < 16 → regVal (setReg c r v) r = v) ∧
    (16 ≤ r → regVal (setReg c r v) r = v &&& 0x3FFFFF#32) ∧
    (q ≠ r → regVal (setReg c r v) q = regVal c q)

/-- Format S (R85): the fields of a legal word; each instruction writes its result into RD and goes on; nothing else changes but
COR.STALL. An address register keeps bits [21:0] and reads zero-extended. -/
def Obligations.ScalarInstructionResults : Prop :=
  ∀ (s : State) (id : CoreId) (r : Run) (w : Nat), Ready s id r w →
    let c := getCore s (cid id)
    let rd := fld w 51 5
    let a := regVal c (fld w 46 5)
    let b := if w.testBit 40 then w32 w else regVal c (fld w 41 5)
    (opcodeOf w = 0x01 → exec (.li id) s = .next (goesOn s id (setReg c rd (w32 w)))) ∧
    (opcodeOf w = 0x02 → exec (.add id) s = .next (goesOn s id (setReg c rd (a + b)))) ∧
    (opcodeOf w = 0x03 → exec (.sub id) s = .next (goesOn s id (setReg c rd (a - b)))) ∧
    (opcodeOf w = 0x04 → exec (.and id) s = .next (goesOn s id (setReg c rd (a &&& b)))) ∧
    (opcodeOf w = 0x05 → exec (.or id) s = .next (goesOn s id (setReg c rd (a ||| b)))) ∧
    (opcodeOf w = 0x06 → exec (.shl id) s = .next (goesOn s id (setReg c rd (a <<< (b.toNat % 32))))) ∧
    (opcodeOf w = 0x07 → exec (.shr id) s = .next (goesOn s id (setReg c rd (a >>> (b.toNat % 32))))) ∧
    (opcodeOf w = 0x08 → ∃ v : W32, exec (.cmp id) s = .next (goesOn s id (setReg c rd v)) ∧ (v = 0 ∨ v = 1) ∧
      (fld w 37 3 = 0 → (v = 1 ↔ a = b)) ∧ (fld w 37 3 = 1 → (v = 1 ↔ a ≠ b)) ∧
      (fld w 37 3 = 2 → (v = 1 ↔ a.toInt < b.toInt)) ∧ (fld w 37 3 = 3 → (v = 1 ↔ b.toInt ≤ a.toInt)) ∧
      (fld w 37 3 = 4 → (v = 1 ↔ a.toNat < b.toNat)) ∧ (fld w 37 3 = 5 → (v = 1 ↔ b.toNat ≤ a.toNat))) ∧
    (0x01 ≤ opcodeOf w → opcodeOf w ≤ 0x08 → rd < 24 ∧ fld w 46 5 < 24 ∧ fld w 41 5 < 24 ∧ fld w 32 5 = 0 ∧
      (opcodeOf w = 0x01 → w.testBit 40 = true ∧ fld w 46 5 = 0) ∧ (w.testBit 40 = true → fld w 41 5 = 0) ∧
      (opcodeOf w = 0x08 → fld w 37 3 ≤ 5) ∧ (opcodeOf w ≠ 0x08 → fld w 37 3 = 0)) ∧
    ∀ (q : Nat) (v : W32), 16 ≤ q → q < 24 → regVal (setReg c q v) q = v &&& 0x3FFFFF#32

/-- Format B (R86): the fields of a legal word, where each branch goes, and when it raises ILLEGAL_INSTR (0x10). That a CALL in word
4,095 pushes 4,096, and the last clause (PC and opcode 0 of FAULT_INFO for a PC past 4,095), are the model's choice (log entry
73). -/
def Obligations.BranchInstructions : Prop :=
  (∀ (s : State) (id : CoreId) (r : Run) (w : Nat), Ready s id r w →
    let c := getCore s (cid id)
    let x := regVal c (fld w 46 5)
    let t : Int := (c.pc : Int) + sext w 16
    let illegal := fun op => programError s (cid id) r 0x10 c.pc op
    (0 ≤ t → t < 4096 →
      (opcodeOf w = 0x09 → exec (.br id) s = .next (goesTo s id c t.toNat)) ∧
      (opcodeOf w = 0x0A → x = 0 → exec (.bz id) s = .next (goesTo s id c t.toNat)) ∧
      (opcodeOf w = 0x0B → x ≠ 0 → exec (.bnz id) s = .next (goesTo s id c t.toNat)) ∧
      (opcodeOf w = 0x0C → c.ret.length < 8 →
        exec (.call id) s = .next (goesTo s id { c with ret := c.ret ++ [c.pc + 1] } t.toNat))) ∧
    (opcodeOf w = 0x0A → x ≠ 0 → exec (.bz id) s = .next (goesOn s id c)) ∧
    (opcodeOf w = 0x0B → x = 0 → exec (.bnz id) s = .next (goesOn s id c)) ∧
    (∀ l p, opcodeOf w = 0x0D → c.ret = l ++ [p] → p < 4096 → exec (.ret id) s = .next (goesTo s id { c with ret := l } p)) ∧
    (t < 0 ∨ 4096 ≤ t →
      (opcodeOf w = 0x09 → exec (.br id) s = .next (illegal 0x09)) ∧
      (opcodeOf w = 0x0A → x = 0 → exec (.bz id) s = .next (illegal 0x0A)) ∧
      (opcodeOf w = 0x0B → x ≠ 0 → exec (.bnz id) s = .next (illegal 0x0B)) ∧
      (opcodeOf w = 0x0C → exec (.call id) s = .next (illegal 0x0C))) ∧
    (opcodeOf w = 0x0C → 8 ≤ c.ret.length → exec (.call id) s = .next (illegal 0x0C)) ∧
    (opcodeOf w = 0x0D → c.ret = [] → exec (.ret id) s = .next (illegal 0x0D)) ∧
    (0x09 ≤ opcodeOf w → opcodeOf w ≤ 0x0D → fld w 51 5 = 0 ∧ fld w 16 30 = 0 ∧
      (opcodeOf w = 0x0A ∨ opcodeOf w = 0x0B → fld w 46 5 < 24) ∧ (opcodeOf w ≠ 0x0A → opcodeOf w ≠ 0x0B → fld w 46 5 = 0) ∧
      (opcodeOf w = 0x0D → fld w 0 16 = 0))) ∧
  ∀ (s : State) (id : CoreId) (r : Run), (getCore s (cid id)).run = some r → issues s (cid id) (getCore s (cid id)) r = true →
    4096 ≤ (getCore s (cid id)).pc → ∀ i ∈ [Instr.li id, .add id, .br id, .bz id, .bnz id, .call id, .ret id],
      exec i s = .next (programError s (cid id) r 0x10 (getCore s (cid id)).pc 0)

/-- A program error (R84): the core records code, PC and opcode and stops, its context is HALTED, the engine names task and code,
and the partition, unless it is HALTED already, halts with the cause. -/
def Obligations.ProgramErrorHaltsPartition : Prop :=
  ∀ (s : State) (id : CoreId) (r : Run) (code pc op : Nat), code < 256 → op < 256 →
    let d := id.die.val
    let k := slotOf s d
    let t := programError s (cid id) r code pc op
    rd t (corPage (cid id)) cor_FAULT_INFO = code + 256 * (pc % 4096) + 2 ^ 20 * op ∧
    (getCore t (cid id)).halted = true ∧
    (getCtx t d r.ctx).state = .halted ∧
    rd t (.tke d) tke_FAULT_TASK = (getCtx s d r.ctx).task % 2 ^ 32 ∧
    rd t (.tke d) tke_FAULT_INFO = code ∧
    phase t k = 5 ∧
    (phase s k ≠ 5 → rd t (.tmt k) tmt_HALT_INFO % 256 = code) ∧
    t.mem = s.mem

/-- Format V (R31 to R37, R87, R89): each enabled lane takes the result in the type TY (3 is INT32), every other lane keeps its
value; VRED writes one scalar, in INT32 the sum modulo 2^32 of the enabled lanes; VCVT, where its writes may go on and SAT does
not trip the attempt, adds the counts of the conversion to the attempt's, stopping at 32 bits, advances the conversion index
modulo 2^26, and the core goes on. A VCVT of an attempt that is not speculative writes the element bytes and the scale bytes of
the conversion and no other byte of memory. -/
def Obligations.VectorInstructions : Prop :=
  (∀ (s : State) (id : CoreId) (r : Run) (w : Nat), Ready s id r w →
     let c := getCore s (cid id)
     let vd := fld w 51 5
     let ty := fld w 34 2
     let n := maskLanes c (fld w 30 4)
     let a := fun i => (vecVal c (fld w 46 5)).getD i 0
     let b := fun i => (vecSrc c (fld w 41 5)).getD i 0
     let d := fun i => (vecSrc c (fld w 36 5)).getD i 0
     let gives := fun (i : Instr) (f : Nat → W32) => ∃ v : List W32, exec i s = .next (goesOn s id (setVec c vd v)) ∧
       ∀ j < 64, v.getD j 0 = if j < n then f j else (vecVal c vd).getD j 0
     (opcodeOf w = 0x12 → gives (.vadd id) fun j => if ty = 3 then a j + b j else roundType ty (f32Add (a j) (b j))) ∧
     (opcodeOf w = 0x13 → gives (.vmul id) fun j => if ty = 3 then a j * b j else roundType ty (f32Mul (a j) (b j))) ∧
     (opcodeOf w = 0x14 → gives (.vmax id) fun j =>
       if ty = 3 then (if (a j).toInt < (b j).toInt then b j else a j) else roundType ty (f32Max (a j) (b j))) ∧
     (opcodeOf w = 0x15 → gives (.vfma id) fun j => roundType ty (f32Fma (a j) (b j) (d j))) ∧
     (opcodeOf w = 0x18 → gives (.vexp id) fun j => roundType ty (f32Exp2ulp (a j))) ∧
     (opcodeOf w = 0x19 → gives (.vrsq id) fun j => roundType ty (f32Rsq2ulp (a j))) ∧
     (opcodeOf w = 0x1A → gives (.vtanh id) fun j => roundType ty (f32Tanh2ulp (a j)))) ∧
  ((∀ (s : State) (id : CoreId) (r : Run) (w : Nat), Ready s id r w → opcodeOf w = 0x16 →
     let c := getCore s (cid id)
     exec (.vred id) s = .next (goesOn s id (setReg c (fld w 51 5)
       (vred (fld w 34 2) (fld w 28 2) (maskLanes c (fld w 30 4)) (vecVal c (fld w 46 5)))))) ∧
   ∀ (n : Nat) (v : List W32), n ≤ 64 → v.length = 64 → vred 3 0 n v = (v.take n).foldl (· + ·) 0) ∧
  (∀ (s : State) (id : CoreId) (r : Run) (w : Nat), Ready s id r w → opcodeOf w = 0x17 →
     let k := cid id
     let c := getCore s k
     let f := if fld w 41 4 = 15 then r.fmtNow else fld w 41 4
     let n := maskLanes c (fld w 30 4)
     let lanes := ((vecVal c (fld w 51 5)).zipIdx).map (fun q => (q.1, decide (q.2 < n)))
     let fixed := if w.testBit 39 then some ((regVal c (fld w 34 5)).toNat % 256) else none
     let rnd := if w.testBit 40 then some (srBits (srSeed s (k / 384)) r.rkey r.sample r.vidx) else none
     let o := vcvt f fixed rnd lanes
     let eb := (tget 0 c.a (fld w 48 3)).toNat % 2 ^ 22
     let sb := (tget 0 c.a (fld w 45 3)).toNat % 2 ^ 22
     let ws := cvtWrites f n eb sb 0 o
     let r' := { r with sat := min (r.sat + o.sat) 0xFFFFFFFF, nz := min (r.nz + o.nz) 0xFFFFFFFF,
                        uf := min (r.uf + o.uf) 0xFFFFFFFF, vidx := (r.vidx + 1) % 2 ^ 26 }
     writesStop s c r ws = none → r.narrow = false ∨ r.fmtNow = r.ceiling ∨ o.sat = 0 →
     ∃ t, exec (.vcvt id) s = .next t ∧ (getCore t k).run = some r' ∧ (getCore t k).pc = c.pc + 1 ∧ (getCore t k).v = c.v ∧
       (r.speculative = false → s.synd = [] → s.hard = [] →
         let b := fmtBits f
         let old := ofBytes (coreBytes s k (some r.ctx) ((eb + n / 2) % 2 ^ 22) 1)
         let codes := (o.halves.flatMap (fun h => match h with | some q => q.1 | none => List.replicate 32 0)).take n
         let bs := packBits b (codes ++ if f = 7 ∧ n % 2 = 1 then [old / 16] else [])
         t.regs = s.regs ∧
         (∀ x, (∀ y ∈ ws, ∀ p ∈ stored c (some r.ctx) y.1 y.2.length, x < coreAddr k p.1 ∨ coreAddr k p.1 + p.2 ≤ x) →
           rdByte t x = rdByte s x) ∧
         (c.shadows = [] → fmtBlocked f = true → sb + 2 ≤ eb ∨ eb + 8 * b ≤ sb →
           ∀ h cs sc, o.halves[h]? = some (some (cs, sc)) →
             (∀ i < (packBits b cs).length, rdByte t (coreAddr k ((eb + h * (4 * b)) % 2 ^ 22 + i)) = (packBits b cs).getD i 0) ∧
             rdByte t (coreAddr k ((sb + h) % 2 ^ 22)) = BitVec.ofNat 8 sc) ∧
         (c.shadows = [] → fmtBlocked f = false → 0 < n → ∀ i < bs.length, rdByte t (coreAddr k (eb + i)) = bs.getD i 0)))

/-- VLD (R81, R88): a vector or word that may be read, is ready and has no error is loaded; a word of the core-control window is
read without a wait; a range that is not ready stalls. -/
def Obligations.LoadFromCoreSram : Prop :=
  ∀ (s : State) (id : CoreId) (r : Run) (w : Nat), Ready s id r w → opcodeOf w = 0x10 →
    let c := getCore s (cid id)
    let rd := fld w 51 5
    let wd := fld w 46 2
    let sz := if wd = 0 then 4 else 2
    let a := ((tget 0 c.a (fld w 48 3)).toNat % 2 ^ 22 + fld w 0 22) % 2 ^ 22
    let n := if isV rd then maskLanes c (fld w 42 4) else 1
    let bs := coreBytes s (cid id) (some r.ctx) a (n * sz)
    let lane := fun i => laneOf wd (bytesAt bs (i * sz) sz)
    a % sz = 0 →
    (isV rd = false → 0x3FF000 ≤ a → ∃ t, exec (.vld id) s = .next t ∧
      getCore t (cid id) = { setReg c rd (windowWord s (cid id) c r (a - 0x3FF000)) with pc := c.pc + 1, stall := 0 } ∧
      t.mem = s.mem ∧ t.regs = s.regs) ∧
    (isV rd = true ∨ a < 0x3FF000 → n = 0 ∨ (mayReadRange c a (n * sz) = true ∧ readBlocked c a (n * sz) = false) →
      (n = 0 ∨ rangeReady c a (n * sz) = true → coreCheck s (cid id) (some r.ctx) a (n * sz) = (s, false) →
        (isV rd = false → exec (.vld id) s = .next (goesOn s id (setReg c rd (lane 0)))) ∧
        (isV rd = true → ∃ v : List W32, exec (.vld id) s = .next (goesOn s id (setVec c rd v)) ∧
          ∀ j < 64, v.getD j 0 = if j < n then lane j else (vecVal c rd).getD j 0)) ∧
      (n ≠ 0 → rangeReady c a (n * sz) = false → exec (.vld id) s = .next (stalls s id 4)))

/-- VST (R81, R88): the enabled lanes or the word are stored where the program may write, and only the stored bytes of memory
change; a store to an AMAX word writes that register, of a speculative task it enters the deferral list and waits or faults
where that is full (R106, R172, R175); every other window word ignores it. -/
def Obligations.StoreToCoreSram : Prop :=
  ∀ (s : State) (id : CoreId) (r : Run) (w : Nat), Ready s id r w → opcodeOf w = 0x11 → s.synd = [] → s.hard = [] →
    let c := getCore s (cid id)
    let rs := fld w 51 5
    let wd := fld w 46 2
    let sz := if wd = 0 then 4 else 2
    let a := ((tget 0 c.a (fld w 48 3)).toNat % 2 ^ 22 + fld w 0 22) % 2 ^ 22
    let n := if isV rs then maskLanes c (fld w 42 4) else 1
    let bs := if isV rs then ((vecVal c rs).take n).flatMap (laneBytes wd) else toBytes 4 (regVal c rs).toNat
    a % sz = 0 →
    (isV rs = false → 0x3FF000 ≤ a → a < 0x3FF040 →
      (r.speculative = false → exec (.vst id) s =
        .next (goesOn (wr s (corPage (cid id)) (cor_AMAX_n + (a - 0x3FF000)) (regVal c rs).toNat) id c)) ∧
      (r.speculative = true →
        ((deferHeld c).length < 64 → exec (.vst id) s =
          .next (goesOn s id { c with deferred := c.deferred ++ [(r.ctx, .amax ((a - 0x3FF000) / 4) (regVal c rs))] })) ∧
        (64 ≤ (deferHeld c).length → r.narrow = false → exec (.vst id) s = .next (stalls s id 5)) ∧
        (64 ≤ (deferHeld c).length → r.narrow = true → exec (.vst id) s = .next (programError s (cid id) r 0x0B c.pc 0x11)))) ∧
    (isV rs = false → 0x3FF040 ≤ a → exec (.vst id) s = .next (goesOn s id c)) ∧
    (isV rs = true ∨ a < 0x3FF000 →
      n = 0 ∨ (mayWriteRange c r a (n * sz) = true ∧ writeBlocked c a (n * sz) = false ∧ rangeReady c a (n * sz) = true) →
      ∃ t, exec (.vst id) s = .next t ∧ (getCore t (cid id)).pc = c.pc + 1 ∧ t.regs = s.regs ∧
        (c.shadows = [] → ∀ i < bs.length, rdByte t (coreAddr (cid id) (a + i)) = bs.getD i 0) ∧
        (r.speculative = false → ∀ x, (∀ p ∈ stored c (some r.ctx) a bs.length, x < coreAddr (cid id) p.1 ∨ coreAddr (cid id) p.1 + p.2 ≤ x) →
          rdByte t x = rdByte s x))

/-- The register instructions of formats S and V leave everything but their destination register, that register's parity, the PC and
COR.STALL as it was: every other register, the whole rest of the core, and the rest of the machine. -/
def Obligations.RegisterInstructionFrame : Prop :=
  ∀ (s : State) (id : CoreId) (r : Run) (w : Nat) (i : Instr), Ready s id r w →
    (opcodeOf w, i) ∈ [(0x01, Instr.li id), (0x02, .add id), (0x03, .sub id), (0x04, .and id), (0x05, .or id), (0x06, .shl id),
      (0x07, .shr id), (0x08, .cmp id), (0x12, .vadd id), (0x13, .vmul id), (0x14, .vmax id), (0x15, .vfma id),
      (0x16, .vred id), (0x18, .vexp id), (0x19, .vrsq id), (0x1A, .vtanh id)] →
    let c := getCore s (cid id)
    ∃ e : Core, exec i s = .next (setCore s (cid id) e) ∧
      (∀ q, q < 24 → q ≠ fld w 51 5 → regVal e q = regVal c q) ∧
      (∀ q, 24 ≤ q → q < 32 → q ≠ fld w 51 5 → vecVal e q = vecVal c q) ∧
      (∀ q, q < 32 → q ≠ fld w 51 5 → tget false e.parity q = tget false c.parity q) ∧
      e = { c with s := e.s, a := e.a, v := e.v, parity := e.parity, pc := c.pc + 1, stall := 0 }

/-! ## The array (R48 to R73) -/

/-- LATCH, STREAM, OPEN, CHK and DRAIN read their operands and enter the queue of 8 (R53, R56, R90); a full queue stalls. -/
def Obligations.ArrayInstructionsEnterQueue : Prop :=
  ∀ (s : State) (id : CoreId) (r : Run) (w : Nat), Ready s id r w →
    let c := getCore s (cid id)
    let A := fun n => (tget 0 c.a n).toNat % 2 ^ 22
    let puts := fun (i : Instr) (op : ArrOp) =>
      (enters c r op → exec i s = .next (goesOn s id { c with serial := c.serial + 1, queue := c.queue ++ [queued c r w op] })) ∧
      (8 ≤ c.queue.length → exec i s = .next (stalls s id 2))
    let spill := if w.testBit 38 ∨ fld w 32 4 ≤ 1 then 0 else A (fld w 29 3)
    (opcodeOf w = 0x20 → puts (.latch id) (.latch (A (fld w 53 3)) (A (fld w 50 3)) (fld w 46 4) (fld w 40 6 + 1) (fld w 34 6 + 1)
      (fld w 18 16) (fld w 8 10))) ∧
    (opcodeOf w = 0x21 → puts (.stream id) (.stream (A (fld w 53 3)) (A (fld w 50 3)) (fld w 46 4) (fld w 37 9) (fld w 34 3)
      (w.testBit 33) (w.testBit 32) (fld w 26 6 + 1) (fld w 10 16) (fld w 0 10))) ∧
    (opcodeOf w = 0x22 → spill % 64 = 0 → puts (.openOp id) (.opn (fld w 53 3) (fld w 45 8 + 1) (fld w 39 6 + 1) (w.testBit 38)
      (match fld w 36 2 with | 0 => 4 | 1 => 8 | _ => 16) (fld w 32 4) spill (fld w 24 5) (w.testBit 23))) ∧
    (opcodeOf w = 0x23 → A (fld w 50 3) % 64 = 0 → puts (.drain id) (.drain (fld w 53 3) (A (fld w 50 3)) (fld w 34 16)
      (w.testBit 33) (fld w 31 2) (w.testBit 30) (if w.testBit 29 then some (fld w 25 4) else none) (w.testBit 24))) ∧
    (opcodeOf w = 0x24 → puts (.chk id) (.chk (fld w 53 3)))

/-- A queued LATCH whose vectors may be read and are ready reads them into the bank that was not filled last, INT8 pairs (format 10)
into both (R49, R50); a LATCH of the attempt's own format stays until its last sub-pass (R42). -/
def Obligations.LatchFillsBank : Prop :=
  ∀ (s : State) (id : CoreId) (e : QEntry) (rest : List QEntry) (r : Run) (ea sa code n kv st ss : Nat), Front s id e rest r →
    e.op = .latch ea sa code n kv st ss → s.synd = [] →
    let k := cid id
    let c := getCore s k
    let f := if code = 15 then e.now else code
    (code = 15 → (match rest with | x :: _ => x.sub = e.sub | [] => e.sub = 0) ∧ e.sub < passes code e.now) →
    (∀ x ∈ readRanges e.op f, mayReadRange c x.1 x.2 = true ∧ rangeReady c x.1 x.2 = true) →
    ∃ t b, exec (.latchBegin id) s = .next t ∧ t.mem = s.mem ∧
      (if f = 10 ∨ c.recentB = true then (getCore t k).bankA else (getCore t k).bankB) = some b ∧
      b.fmt = f ∧ b.c = n ∧ b.kv = subKv (passes code e.now) e.sub kv ∧
      b.cols = (readVecs s k e.ctx n ea sa f (passes code e.now) e.sub kv st ss).2.1 ∧ b.cols.length = n ∧
      (f = 10 → (getCore t k).bankB = none) ∧
      (getCore t k).recentB = (f != 10 && !c.recentB) ∧
      (getCore t k).queue = if code = 15 then { e with sub := e.sub + 1 } :: rest else rest

/-- STREAM at the array (R51, R52, R65): the fill of a STREAM LOAD, with feeder entries free and its source ready, places its
vectors in the feeder; a STREAM moves its vectors through the array into an open group of its extent: one more chunk, and a
merge is due after every odd chunk index of a BALANCED group. -/
def Obligations.StreamMovesVectors : Prop :=
  (∀ (s : State) (id : CoreId) (ahead : List QEntry) (e : QEntry) (r : Run) (ea sa code n g kv st ss : Nat) (keep : Bool),
     let k := cid id
     let c := getCore s k
     let f := if code = 15 then e.now else code
     let p := passes code e.now
     nextFill [] c.queue = some (ahead, e) → entryRun c e = some r → e.op = .stream ea sa code n g false keep kv st ss →
     arrayGoes s k c = true → feederUsed c + p * n ≤ 256 → s.synd = [] →
     (∀ x ∈ readRanges e.op f, meets x (pendingWritesFrom c [] ahead) = false ∧
       rangeReady c x.1 x.2 = true ∧ mayReadRange c x.1 x.2 = true) →
     ∃ t vs, exec (.streamFill id) s = .next t ∧ vs.length = p * n ∧ t.mem = s.mem ∧
       vs = (List.range p).flatMap (fun m => (readVecs s k e.ctx n ea sa f p m kv st ss).2.1) ∧
       (getCore t k).queue = c.queue.set ahead.length { e with fill := some vs }) ∧
  (∀ (s : State) (id : CoreId) (e x : QEntry) (rest : List QEntry) (r : Run) (lat : Option QEntry) (ea sa code n g kv st ss : Nat)
     (reuse keep : Bool) (vs : List (List Elt)) (b : Bank) (grp : Group), Front s id e rest r →
     let k := cid id
     let c := getCore s k
     inStep c e = some (lat, x) → x.op = .stream ea sa code n g reuse keep kv st ss →
     (if reuse then c.retained.map (·.vecs) else x.fill) = some vs → (if c.recentB then c.bankB else c.bankA) = some b →
     tget none c.groups g = some grp → grp.mergeDue = false → grp.nt = n → grp.c = b.c →
     ∃ t grp', exec (.streamBegin id) s = .next t ∧ tget none (getCore t k).groups g = some grp' ∧
       grp' = groupPass grp b.fmt (if code = 15 then x.now else code) ((vs.drop (x.sub * n)).take n) b.cols ∧
       grp'.chunks = grp.chunks + 1 ∧ grp'.mergeDue = (!grp.seq && grp.chunks % 2 == 1) ∧ grp'.nt = grp.nt ∧ grp'.c = grp.c ∧
       (∀ j, j ≠ g → tget none (getCore t k).groups j = tget none c.groups j) ∧ t.mem = s.mem)

/-- OPEN takes its rows of the basin and opens the group (R63); the merge unit takes the landing rows of the merge that became due
first (R66); a check that passes is counted (R60). A DRAIN that refused no element, once no stream arm has still to read its
range (R54), closes the group: an attempt that is not speculative writes the group's values in the format, or adds them to what
the destination holds, merges their largest magnitude into the AMAX register and changes no other byte (R38, R71); with HOLD a
BACKWARD release keeps the tile in its DEFER region for the commit (R333). -/
def Obligations.BasinSteps : Prop :=
  ∀ (s : State) (id : CoreId), s.synd = [] → s.hard = [] →
    let k := cid id
    let c := getCore s k
    (∀ e rest r g nt cc seq gsz lv spill tl ck, Front s id e rest r → e.op = .opn g nt cc seq gsz lv spill tl ck →
      tget none c.groups g = none → sumOf ((openGroups c).map (·.nt)) + nt ≤ 256 →
      exec (.openBegin id) s = .next (setCore s k { c with queue := rest, groups := tput c.groups g (some
        ⟨nt, cc, seq, gsz, lv, spill, tl, ck, 0, none, false, true, 0, e.ctx⟩) })) ∧
    (∀ n g lt, dueMerge c = some (n, g) → g.landing = some lt → arrayGoes s k c = true →
      ∃ t g', exec (.merge id) s = .next t ∧ tget none (getCore t k).groups n = some g' ∧ g'.landing = none ∧
        g'.mergeDue = false ∧ g'.chunks = g.chunks ∧ (getCore t k).due = c.due.erase n ∧ t.regs = s.regs) ∧
    (∀ e rest r g grp, Front s id e rest r → e.op = .chk g → tget none c.groups g = some grp → grp.mergeDue = false →
      checkFails grp (groupTotal s k grp).2.1 (groupTotal s k grp).2.2.2 = false →
      ∃ t, exec (.chkBegin id) s = .next t ∧ (getCore t k).queue = rest ∧
        tget none (getCore t k).groups g = some { grp with exact := grp.exact && (groupTotal s k grp).2.2.2 } ∧
        rd t (corPage k) cor_CHK_COUNT = min (rd s (corPage k) cor_CHK_COUNT + 1) 0xFFFFFFFF ∧ t.mem = s.mem) ∧
    (∀ e rest r g grp base st row f add amax hold, Front s id e rest r → e.op = .drain g base st row f add amax hold →
      tget none c.groups g = some grp → grp.mergeDue = false → grp.ck = false → grp.refused = 0 → (add = true → f = 0) →
      (∀ x ∈ drainRanges base st row f (grp.nt, grp.c), meets x (storePends s k) = false ∧ rangeReady c x.1 x.2 = true) →
      let body := (groupTotal s k grp).2.1.body.flatten
      let vs := outVecs grp (groupTotal s k grp).2.1 base st row
      let len := fun (v : Nat × List W32) => v.2.length * ofmtBytes f
      (hold = false ∨ r.cls ≠ 1 → (∀ v ∈ vs, mayWriteRange c r v.1 (len v) = true) →
        ∃ t, exec (.drainBegin id) s = .next t ∧ tget none (getCore t k).groups g = none ∧ (getCore t k).queue = rest ∧
          (r.speculative = false →
            (∀ x, (∀ v ∈ vs, ∀ p ∈ stored c (some r.ctx) v.1 (len v), x < coreAddr k p.1 ∨ coreAddr k p.1 + p.2 ≤ x) →
              rdByte t x = rdByte s x) ∧
            (∀ m, amax = some m → rd t (corPage k) (cor_AMAX_n + 4 * m) =
              (amaxMerge (w32 (rd s (corPage k) (cor_AMAX_n + 4 * m))) (tileAmax body)).toNat) ∧
            (c.shadows = [] → vs.Pairwise (fun v y => v.1 + len v ≤ y.1 ∨ y.1 + len y ≤ v.1) →
              ∀ v ∈ vs, ∀ j x, v.2[j]? = some x →
                (add = false → ∀ i < ofmtBytes f, rdByte t (coreAddr k (v.1 + j * ofmtBytes f + i)) = (outBytes f x).getD i 0) ∧
                (add = true → ∀ i < 4, rdByte t (coreAddr k (v.1 + 4 * j + i)) =
                  (toBytes 4 (f32Add (w32 (bytesAt (coreBytes s k none (v.1 + 4 * j) 4) 0 4)) x).toNat).getD i 0)))) ∧
      (hold = true → r.cls = 1 → (∀ v ∈ vs, mayWriteRange c { r with speculative := false } v.1 (len v) = true) →
        deferRoom c (4 * (outWords vs).length) = true →
        ∃ t a, exec (.drainBegin id) s = .next t ∧ tget none (getCore t k).groups g = none ∧ (getCore t k).queue = rest ∧
          (getCore t k).deferred = c.deferred ++ [(r.ctx, .held a ((outWords vs).map (·.1)))]))

/-! ## Tokens and coordination (R91 to R106) -/

/-- SEND (R91, R94): a task that is not speculative enters its token, payload and all, into a send queue with room, and stalls
without it; a speculative one defers the token, its payload in the DEFER ring, and without room a NARROW attempt faults and any
other waits (R106, R172, R175; the place in the ring: log entry 72). SEND_TRANSMIT puts the oldest one on the mesh once its
header can leave the core (R97), a SIGNAL once what it releases is done (R104). -/
def Obligations.SendAndTransmit : Prop :=
  (∀ (s : State) (id : CoreId) (r : Run) (w : Nat) (e : End), Ready s id r w → opcodeOf w = 0x30 →
    let k := cid id
    let c := getCore s k
    let n := 32 * fld w 41 7
    let a := (tget 0 c.a (fld w 48 3)).toNat % 2 ^ 22
    let control := w.testBit 40
    destOf s (regVal c (fld w 51 5)).toNat = some e → n = 0 ∨ (mayReadRange c a n = true ∧ readBlocked c a n = false ∧ rangeReady c a n = true) →
    coreCheck s k (some r.ctx) a n = (s, false) →
    let at_ := (ringAt c (coreBytes s k (some r.ctx) a n).length).getD 0
    let t : Token := ⟨1, if control then 1 else 0, epochOf s (slotOf s (k / 384)), (regVal c (fld w 30 5)).toNat % 16, fld w 41 7,
      w.testBit 9, fld w 35 5, e, here s (k / 384) (selfCore s k), if control then 0 else fld w 10 15,
      if control then fld w 10 15 else 0, r.sample, (regVal c (fld w 25 5)).toNat, coreBytes s k (some r.ctx) a n⟩
    (r.speculative = false → c.releasing = [] →
      (sendRoom s k = true →
        exec (.send id) s = .next (goesOn s id { c with sendq := c.sendq ++ [⟨t, .task k r.ctx, slotOf s (k / 384)⟩] })) ∧
      (sendRoom s k = false → exec (.send id) s = .next (stalls s id 5))) ∧
    (r.speculative = true →
      (deferRoom c t.payload.length = true →
        exec (.send id) s = .next (goesOn (storePieces k (ringParts c at_ t.payload.length) t.payload s) id
          { c with deferred := c.deferred ++ [(r.ctx, .send t at_)] })) ∧
      (deferRoom c t.payload.length = false → r.narrow = false → exec (.send id) s = .next (stalls s id 5)) ∧
      (deferRoom c t.payload.length = false → r.narrow = true → exec (.send id) s = .next (programError s k r 0x0B c.pc 0x30)))) ∧
  ∀ (s : State) (id : CoreId) (f : Flight) (rest : List Flight),
    (getCore s (cid id)).sendq = f :: rest → (getCore s (cid id)).releasing = [] → canLeave s f = true →
    signalHeld s (cid id) f = false → f.tok.dest.mod = moduleNo s →
    (f.tok.dest.die < 8 ∧ slotOf s f.tok.dest.die = f.pslot) ∨ (f.tok.dest.die = 8 ∧ hubEndpoint f.tok.dest.core = true) →
    exec (.sendTransmit id) s = .next { setCore s (cid id) { getCore s (cid id) with
      sendq := rest, sigs := if f.tok.kind = 5 then (getCore s (cid id)).sigs.tail else (getCore s (cid id)).sigs }
        with net := s.net ++ [f] }

/-- RECV takes the fire record of its rule and slot, and stalls without one (R101); STEER loads an idle rule (R99), in a speculative
task it is deferred with its descriptor (R106, R172); CLAIM sends its request to the counter's home and waits (R180), a
speculative one until it is confirmed (R172). -/
def Obligations.RecvSteerClaim : Prop :=
  ∀ (s : State) (id : CoreId) (r : Run) (w : Nat), Ready s id r w →
    let k := cid id
    let c := getCore s k
    let rule := fld w 45 5
    let slot := (regVal c (fld w 40 5)).toNat % 16
    let a := (tget 0 c.a (fld w 53 3)).toNat % 2 ^ 22
    let bs := coreBytes s k (some r.ctx) a 32
    (opcodeOf w = 0x31 → ∀ v, (getHold c rule slot).record = some v →
      ∃ t, exec (.recv id) s = .next t ∧ (getCore t k).pc = c.pc + 1 ∧ t.mem = s.mem ∧
        (∀ q, q < 24 → regVal (getCore t k) q = regVal (setReg c (fld w 51 5) v) q) ∧
        (getHold (getCore t k) rule slot).record = none ∧
        (getHold (getCore t k) rule slot).taken = (if r.speculative then some (r.ctx, v) else none) ∧
        (∀ j, j ≠ rule * 16 + slot → tget Hold.none (getCore t k).holds j = tget Hold.none c.holds j) ∧
        (c.releasing = [] → ∃ e, t = goesOn s id e)) ∧
    (opcodeOf w = 0x31 → (getHold c rule slot).record = none → exec (.recv id) s = .next (stalls s id 6)) ∧
    (opcodeOf w = 0x32 → mayReadRange c a 32 = true → readBlocked c a 32 = false → rangeReady c a 32 = true →
      coreCheck s k (some r.ctx) a 32 = (s, false) → ruleLegal bs = true →
      (r.speculative = false → ruleIdle c rule = true →
        exec (.steer id) s = .next (goesOn s id { c with rules := tset Rule.none c.rules rule (ruleFrom bs) })) ∧
      (r.speculative = false → ruleIdle c rule = false → exec (.steer id) s = .next (stalls s id 11)) ∧
      (r.speculative = true → deferRoom c bs.length = true →
        let at_ := (ringAt c bs.length).getD 0
        exec (.steer id) s = .next (goesOn (storePieces k (ringParts c at_ bs.length) bs s) id
          { c with deferred := c.deferred ++ [(r.ctx, .steer rule at_)] }))) ∧
    (opcodeOf w = 0x40 → r.narrow = false → r.speculative = false →
      ∃ t f, exec (.claim id) s = .next t ∧ t.net = s.net ++ [f] ∧ f.tok.kind = 6 ∧ f.tok.tag = 0 ∧ f.tok.value = fld w 16 8 ∧
        f.tok.dest = here s (k / 384) (0x170 + fld w 16 8 % 24) ∧ f.owner = .task k r.ctx ∧
        (getCore t k).wait = .claim (fld w 51 5) ∧ (getCore t k).pc = c.pc) ∧
    (opcodeOf w = 0x40 → r.narrow = false → r.speculative = true → exec (.claim id) s = .next (stalls s id 8)) ∧
    (opcodeOf w = 0x40 → r.narrow = true → exec (.claim id) s = .next (programError s k r 0x10 c.pc 0x40))

/-- WAIT subtracts COUNT from a semaphore that has reached it and stalls before (R103); a SIGNAL, to its own core too, enters the
send queue and stalls while that is full (R94, R104); the token's TAG and VALUE hold semaphore and count, which is the model's
choice (log entry 56); FENCE and its completion (R105). A speculative task defers a SIGNAL, and a FENCE of a wider scope than
CORE (R106, R172). -/
def Obligations.SemaphoresAndFences : Prop :=
  (∀ (s : State) (id : CoreId) (r : Run) (w : Nat), Ready s id r w →
    let k := cid id
    let c := getCore s k
    let n := fld w 43 5
    let cnt := fld w 0 16
    (opcodeOf w = 0x41 → fld w 48 2 = 0 →
      (cnt ≤ tget 0 c.sem n → ∃ t, exec (.wait id) s = .next t ∧ t = setCore s k (getCore t k) ∧
        tget 0 (getCore t k).sem n = tget 0 c.sem n - cnt ∧ (∀ j, j ≠ n → tget 0 (getCore t k).sem j = tget 0 c.sem j) ∧
        (getCore t k).pc = c.pc + 1) ∧
      (tget 0 c.sem n < cnt → exec (.wait id) s = .next (stalls s id 7))) ∧
    (opcodeOf w = 0x41 → fld w 48 2 = 1 →
      let g := (tget 0 c.a (fld w 40 3)).toNat % 2 ^ 22
      let m := (regVal c (fld w 35 5)).toNat
      (rangeReady c g m = true → exec (.wait id) s = .next (goesOn s id c)) ∧
      (rangeReady c g m = false → exec (.wait id) s = .next (stalls s id 7))) ∧
    (opcodeOf w = 0x42 → ∀ e, destOf s (regVal c (fld w 51 5)).toNat = some e → r.speculative = true → (deferHeld c).length < 64 →
      ∃ t : Token, exec (.signal id) s =
        .next (goesOn s id { c with deferred := c.deferred ++ [(r.ctx, .signal t c.serial)] }) ∧
          t.kind = 5 ∧ t.vc = 0 ∧ t.tag = n ∧ t.value = cnt ∧ t.dest = e) ∧
    (opcodeOf w = 0x43 → r.speculative = true → fld w 48 2 ≠ 0 → (deferHeld c).length < 64 →
      exec (.fence id) s = .next (goesOn s id { c with deferred := c.deferred ++ [(r.ctx, .fence (fld w 48 2))] })) ∧
    (opcodeOf w = 0x42 → ∀ e, destOf s (regVal c (fld w 51 5)).toNat = some e → r.speculative = false → c.releasing = [] →
      (sendRoom s k = true → ∃ f : Flight,
        exec (.signal id) s = .next (goesOn s id { c with sendq := c.sendq ++ [f], sigs := c.sigs ++ [c.serial] }) ∧
          f.tok.kind = 5 ∧ f.tok.vc = 0 ∧ f.tok.tag = n ∧ f.tok.value = cnt ∧ f.tok.dest = e ∧ f.owner = .task k r.ctx) ∧
      (sendRoom s k = false → exec (.signal id) s = .next (stalls s id 5))) ∧
    (opcodeOf w = 0x43 → r.speculative = false ∨ fld w 48 2 = 0 →
      exec (.fence id) s = .next (setCore s k { c with wait := .fence (fld w 48 2), stall := 9 }))) ∧
  ∀ (s : State) (id : CoreId) (r : Run) (scope : Nat),
    let k := cid id
    let c := getCore s k
    c.run = some r → c.wait = .fence scope → c.releasing = [] → runs s (k / 384) = true → r.ended = false → c.halted = false →
    fenceDone s k r.ctx scope = true →
    ∃ t, exec (.fenceComplete id) s = .next t ∧ (getCore t k).wait = .none ∧ (getCore t k).pc = c.pc + 1 ∧
      (scope ≠ 0 → ∀ d ∈ fenceDies s (k / 384) scope, (getDie t d).lines = [])

/-- END reports a task whose array work, groups and deliveries are done, a NARROW attempt with too many underflows as a trip (R43,
R93); YIELD saves the registers and frees the core (R93). Either way the attempt leaves the core. -/
def Obligations.EndAndYieldLeaveCore : Prop :=
  ∀ (s : State) (id : CoreId) (r : Run) (w : Nat), Ready s id r w →
    let k := cid id
    let c := getCore s k
    c.queue = [] →
    (opcodeOf w = 0x50 → openGroups c = [] → unaccepted s k r.ctx = [] →
      ∃ t, exec (.endOp id) s = .next t ∧ (getCore t k).run = none ∧ (getCore t k).away = c.away ++ [{ r with ended := true }] ∧
        ∀ l, logicalOf s (k / 384) (k % 384) = some l →
          ∃ f, t.net = s.net ++ [f] ∧ f.tok.kind = 2 ∧ f.tok.tag = 2 ∧ f.tok.value = r.task ∧
            f.tok.dcount = (if r.narrow && r.fmtNow != r.ceiling && ufTrips (classB s (k / 384) r.fmtc) r.nz r.uf then 5 else 0)) ∧
    (opcodeOf w = 0x51 → ∃ t f, exec (.yield id) s = .next t ∧ (getCore t k).run = none ∧ (getCore t k).v = [] ∧
      (getCore t k).away = c.away ++ [{ r with ended := true }] ∧ t.net = s.net ++ [f] ∧ f.tok.kind = 2 ∧ f.tok.tag = 3 ∧
      f.tok.value = r.task ∧ f.tok.payload = runBytes (yieldRecord c r))

/-- Tokens at a core. DATA and CONTROL tokens (R100, R101): a DATA token's payload is written into the slot's area; with JOIN = 1
the tokens are held until the CONTROL token and its DCOUNT DATA tokens are, with JOIN = 0 each fires arm 0 alone; the DELIVER
arm leaves the VALUE as the slot's fire record, the FORWARD arm sends the tokens on with the arm's destination and tag; a token
whose rule is disabled, or the area of whose slot is held by a record that has not been received, waits (the sharing of an area
by slots: log entry 56). A SIGNAL token adds its count to the semaphore, stopping at 0xFFFF, and leaves the network (R103); that
its TAG holds the semaphore and its VALUE the count is the model's choice (log entry 56). -/
def Obligations.TokensAtCore : Prop :=
  (∀ (s : State) (n k : Nat) (x : Flight),
     let t := x.tok
     let c := getCore s k
     let rule := tget Rule.none c.rules t.tag
     let h := getHold c t.tag t.slot
     (ForCore s n 0 k x → h.unmatched = false → tokenWaits c t = false → rule.join = true → h.ctrl = none →
       32 * t.offset + 32 * t.length ≤ rule.size → refusesWrite c (tokRange rule t) = false → c.shadows = [] → s.synd = [] →
       s.hard = [] →
       ∃ u, exec (.dataTokenArrive n) s = .next u ∧ (getHold (getCore u k) t.tag t.slot).data = h.data ++ [t] ∧
         (∀ i < t.payload.length, rdByte u (coreAddr k ((tokRange rule t).1 + i)) = t.payload.getD i 0) ∧ u.net = ldel s.net n) ∧
     (ForCore s n 1 k x → h.unmatched = false → tokenWaits c t = false → rule.join = true → h.ctrl = none →
       (h.data.length < t.dcount → ∃ u, exec (.controlTokenArrive n) s = .next u ∧
         (getHold (getCore u k) t.tag t.slot).ctrl = some t ∧ (getHold (getCore u k) t.tag t.slot).data = h.data ∧
         u.net = ldel s.net n) ∧
       (h.data.length = t.dcount → armAction (if t.arm then rule.arm1 else rule.arm0) = 0 → ∃ u,
         exec (.controlTokenArrive n) s = .next u ∧ (getHold (getCore u k) t.tag t.slot).record = some (w32 t.value) ∧
         (getHold (getCore u k) t.tag t.slot).data = [] ∧ (getHold (getCore u k) t.tag t.slot).ctrl = none ∧
         tget 0 (getCore u k).sem rule.sem = (if rule.semen then min (tget 0 c.sem rule.sem + 1) 0xFFFF else tget 0 c.sem rule.sem))) ∧
     (ForCore s n 1 k x → h.unmatched = false → tokenWaits c t = false → rule.join = true → h.ctrl = none → s.synd = [] →
       h.data.length = t.dcount →
       let arm := if t.arm then rule.arm1 else rule.arm0
       armAction arm = 1 → fld arm 2 4 < 8 → slotOf s (fld arm 2 4) = slotOf s (k / 384) → ∃ u fs,
         exec (.controlTokenArrive n) s = .next u ∧ u.net = ldel s.net n ++ fs ∧
         fs.map (fun f => (f.tok.dest, f.tok.tag, f.tok.kind, f.tok.value)) =
           (h.data ++ [t]).map (fun y => (here s (fld arm 2 4) (fld arm 6 9), fld arm 15 5, y.kind, y.value)) ∧
         (getHold (getCore u k) t.tag t.slot).record = none ∧ (getHold (getCore u k) t.tag t.slot).data = []) ∧
     (ForCore s n 0 k x → h.unmatched = false → tokenWaits c t = false → rule.join = false → t.payload.length = 32 * t.length →
       32 * t.offset + 32 * t.length ≤ rule.size → refusesWrite c (tokRange rule t) = false → c.shadows = [] → s.synd = [] →
       s.hard = [] →
       (armAction rule.arm0 = 0 → ∃ u, exec (.dataTokenArrive n) s = .next u ∧ u.net = ldel s.net n ∧
         (getHold (getCore u k) t.tag t.slot).record = some (w32 t.value) ∧ (getHold (getCore u k) t.tag t.slot).data = [] ∧
         (∀ i < t.payload.length, rdByte u (coreAddr k ((tokRange rule t).1 + i)) = t.payload.getD i 0) ∧
         tget 0 (getCore u k).sem rule.sem = (if rule.semen then min (tget 0 c.sem rule.sem + 1) 0xFFFF else tget 0 c.sem rule.sem)) ∧
       (armAction rule.arm0 = 1 → fld rule.arm0 2 4 < 8 → slotOf s (fld rule.arm0 2 4) = slotOf s (k / 384) →
         ∃ u, exec (.dataTokenArrive n) s = .next u ∧ (getHold (getCore u k) t.tag t.slot).record = none ∧
           u.net = ldel s.net n ++ [⟨{ t with
              dest := here s (fld rule.arm0 2 4) (fld rule.arm0 6 9), tag := fld rule.arm0 15 5, src := here s (k / 384) (selfCore s k) }, .nobody, slotOf s (k / 384)⟩])) ∧
     (ForCore s n 1 k x → h.unmatched = false → tokenWaits c t = false → h.ctrl = none → rule.join = false → s.synd = [] →
       (armAction rule.arm0 = 0 → ∃ u, exec (.controlTokenArrive n) s = .next u ∧
         (getHold (getCore u k) t.tag t.slot).record = some (w32 t.value) ∧
         tget 0 (getCore u k).sem rule.sem = (if rule.semen then min (tget 0 c.sem rule.sem + 1) 0xFFFF else tget 0 c.sem rule.sem)) ∧
       (armAction rule.arm0 = 1 → fld rule.arm0 2 4 < 8 → slotOf s (fld rule.arm0 2 4) = slotOf s (k / 384) →
         ∃ u, exec (.controlTokenArrive n) s = .next u ∧ (getHold (getCore u k) t.tag t.slot).record = none ∧
           u.net = ldel s.net n ++ [⟨{ t with
              dest := here s (fld rule.arm0 2 4) (fld rule.arm0 6 9), tag := fld rule.arm0 15 5, src := here s (k / 384) (selfCore s k), payload := [] }, .nobody, slotOf s (k / 384)⟩])) ∧
     (ForCore s n 0 k x → h.unmatched = false → tokenWaits c t = true → exec (.dataTokenArrive n) s = .next s) ∧
     (ForCore s n 1 k x → h.unmatched = false → tokenWaits c t = true → exec (.controlTokenArrive n) s = .next s)) ∧
  (∀ (s : State) (n k : Nat) (x : Flight), ForCore s n 5 k x →
     ∃ u, exec (.signalTokenArrive n) s = .next u ∧
       tget 0 (getCore u k).sem x.tok.tag = min (tget 0 (getCore s k).sem x.tok.tag + x.tok.value % 65536) 0xFFFF ∧
       (∀ j, j ≠ x.tok.tag → tget 0 (getCore u k).sem j = tget 0 (getCore s k).sem j) ∧
       (∀ j, j ≠ k → getCore u j = getCore s j) ∧ u.net = ldel s.net n ∧ u.mem = s.mem)

/-- The home of a work counter serves a claim (R180): below LIMIT it answers VALUE and adds one; at LIMIT it answers the exhausted
response and leaves VALUE; the response ends the waiting CLAIM with its index. -/
def Obligations.WorkCounterClaims : Prop :=
  (∀ (s : State) (n : Nat) (x : Flight), Arrives s n 6 x → x.tok.tag = 0 → x.tok.dest.die < 8 →
    let d := x.tok.dest.die
    let c := x.tok.value % 256
    let p := wkcPage d c
    let v := rd s p (wkc_VALUE_m + wkcOff c)
    x.tok.epoch = epochOf s (slotOf s d) → x.tok.src.mod = moduleNo s → x.tok.src.die < 8 → slotOf s x.tok.src.die = x.pslot →
    ∃ u f, exec (.claimRequest n) s = .next u ∧ u.net = ldel s.net n ++ [f] ∧ f.tok.kind = 6 ∧ f.tok.tag = 1 ∧
      f.tok.dest = x.tok.src ∧ f.owner = x.owner ∧
      (v < rd s p (wkc_LIMIT_m + wkcOff c) → f.tok.value = v ∧ rd u p (wkc_VALUE_m + wkcOff c) = v + 1) ∧
      (rd s p (wkc_LIMIT_m + wkcOff c) ≤ v → f.tok.value = 0xFFFFFFFF ∧ rd u p (wkc_VALUE_m + wkcOff c) = v)) ∧
  ∀ (s : State) (n k : Nat) (x : Flight) (r : Run) (reg : Nat), ForCore s n 6 k x → x.tok.tag = 1 →
    let c := getCore s k
    c.run = some r → c.wait = .claim reg → r.ended = false → x.owner = .task k r.ctx → x.tok.sample = r.sample →
    exec (.claimResponse n) s = .next (setCore { s with net := ldel s.net n } k
      { setReg c reg (w32 x.tok.value) with wait := .none, pc := c.pc + 1, stall := 0 })

/-! ## Tasks (R158 to R186) -/

/-- A slice dispatches the READY context of its idle core with the smallest deadline, and sends a YIELDED one back to it with its
run record (R163, R177): the context is RUNNING and the token on its way, and every AHEAD edge of its list, which stands in the
successor cache, takes START (R167, R168). TASK tokens at a core (R79, R170, R177): DISPATCH sets up the registers, RESUME gives
back what YIELD saved, DISCARD drops the attempt's work, CONFIRM ends its speculation. An AHEAD edge (R166, R176): a target on
another die of the partition gets a DEP token; on its own die a START takes one of DCUR of a WAITING consumer and counts its
producer. A successor entry that is no such edge satisfies its target in the same way, and a SEM entry enters the core's send
queue (R159; its place behind the effects that the commit releases: log entry 72). -/
def Obligations.DispatchAndTaskTokens : Prop :=
  (∀ (s : State) (d : Die) (l : Fin 360) (key i : Nat) (x : Ctx),
     coreOf s d l = some key → nextTask s d l = some (i, x) → runs s d = true → (rd s (.tke d) hCTRL).testBit 0 = true →
     coreBusy s d l = false → x = getCtx s d i → x.core = l → (getDie s d).refresh = [] →
     (x.state = .ready → x.badDesc = [] → ∀ es, CachedList s d i es → ∃ t f,
       exec (.taskDispatch d l) s = .next (each (es.filter succAhead) (edge d 1 x.sample) t) ∧
       (getCtx t d i).state = .running ∧ t.net = s.net ++ [f] ∧ f.tok.kind = 2 ∧ f.tok.tag = 0 ∧ f.tok.dest = coreEnd s d l ∧
       f.tok.payload = descBytes { x with state := .running }) ∧
     (x.state = .yielded → x.badDesc = [] → x.badRun = [] → ∃ t f, exec (.taskDispatch d l) s = .next t ∧
       (getCtx t d i).state = .running ∧ t.net = s.net ++ [f] ∧ f.tok.kind = 2 ∧ f.tok.tag = 1 ∧ f.tok.payload = runBytes x.run)) ∧
  (∀ (s : State) (n k : Nat) (x : Flight), ForCore s n 2 k x →
     let t := x.tok
     let c := getCore s k
     let i := ctxOf t.value
     (t.tag = 0 → ∃ u r, exec (.dispatch n) s = .next u ∧
       let e := getCore u k
       e.run = some r ∧ r.ctx = ctxOf (bytesAt t.payload 0 4) ∧ r.sample = bytesAt t.payload 40 4 ∧
       e.pc = bytesAt t.payload 6 2 % 4096 ∧ regVal e 14 = w32 r.sample ∧ regVal e 15 = w32 (bytesAt t.payload 0 4) ∧
       regVal e 23 = w32 (bytesAt t.payload 8 4 % 2 ^ 22) ∧ (∀ q, q < 14 → regVal e q = 0) ∧
       (∀ q, 16 ≤ q → q < 23 → regVal e q = 0) ∧ e.ret = [] ∧ e.v = [] ∧ u.mem = s.mem) ∧
     (t.tag = 1 → ∀ r, c.away.find? (·.task == t.value) = some r → ∃ u, exec (.taskResume n) s = .next u ∧
       let e := getCore u k
       let y := runFrom t.payload
       e.pc = y.pc % 4096 ∧ e.s = y.s ∧ e.a = y.a ∧ e.ret = y.ret ∧ e.v = [] ∧
       e.run = some { r with sat := y.sat, nz := y.nz, uf := y.uf, vidx := y.vidx, ended := false }) ∧
     (t.tag = 4 → ∃ u, exec (.taskDiscard n) s = .next u ∧
       let e := getCore u k
       (∀ q ∈ e.queue, q.ctx ≠ i) ∧ (∀ q ∈ e.deferred, q.1 ≠ i) ∧ (∀ q ∈ e.away, q.ctx ≠ i) ∧ (∀ q ∈ e.waits, q.1 ≠ i) ∧
       (∀ r, e.run = some r → r.ctx ≠ i) ∧ u.mem = s.mem) ∧
     (t.tag = 5 → ∃ u, exec (.confirm n) s = .next u ∧
       (∀ r, (getCore u k).run = some r → r.ctx = i → r.speculative = false) ∧ (s.synd = [] → u.mem = s.mem))) ∧
  (∀ (s : State) (k i cls m e : Nat), k < 3072 →
     let d := k / 384
     let t := succDie s d e
     let j := ctxOf (succTarget e)
     let dep := fun tag (u : State) => ∃ f : Flight, u.net = s.net ++ [f] ∧ f.tok.kind = 3 ∧ f.tok.tag = tag ∧ f.tok.dest = taskEnd s t ∧
       f.tok.sample = m ∧ f.tok.value = succTarget e
     (t ≠ d → t < 8 → slotOf s t = slotOf s d →
       (∀ tag, dep tag (edge d tag m e s)) ∧ (succKind e = 1 → dep 0 (successor k i cls m none e s))) ∧
     (t = d → relFor (getCtx s d j) m = true → (getCtx s d j).state = .waiting → 0 < (getCtx s d j).dcur →
       (softEdges s d (getCtx s d j) = true → getCtx (edge d 1 m e s) d j = { getCtx s d j with
         dcur := (getCtx s d j).dcur - 1, pcur := (getCtx s d j).pcur + 1,
         state := if (getCtx s d j).dcur = 1 then .ready else .waiting }) ∧
       (succKind e < 2 → getCtx (successor k i cls m none e s) d j = { getCtx s d j with
         dcur := (getCtx s d j).dcur - 1, state := if (getCtx s d j).dcur = 1 then .ready else .waiting })) ∧
     (succKind e = 5 → (getCore s k).releasing = [] → sendRoom s k = true → ∃ f : Flight,
       (getCore (successor k i cls m none e s) k).sendq = (getCore s k).sendq ++ [f] ∧ f.tok.kind = 5 ∧
         f.tok.tag = fld (succTarget e) 9 5 ∧ f.tok.value = succTarget e / 65536 ∧ f.tok.dest = here s d (succTarget e % 512)))

/-- A commit (R170, R266) of a context whose list stands in the successor cache: its attempt leaves the core, the entries of the
list take effect, those that are no AHEAD edge first and then COMMIT along the AHEAD edges, and its core time, redirected if its
ACCOUNT is another job's, is charged to the CURRENT job. Reports of a core at its slice (R43, R44, R171, R177): an attempt that
ends without a trip commits, or waits ENDED for its AHEAD producers; one that trips below CEILING is READY again one rung wider,
and its AHEAD edges take DISCARD; a YIELDED one keeps its run record. -/
def Obligations.ReportsAndCommit : Prop :=
  (∀ (s : State) (n k j : Nat) (x : Flight), ForCore s n 2 k x → x.tok.tag = 6 → k < 3072 →
     let i := ctxOf x.tok.value
     let d := k / 384
     let ctx := getCtx s d i
     let slot := slotOf s d
     let job := tget Job.none (getSlot s slot).jobs j
     ctx.cls ≠ 1 → ctx.cls ≠ 2 → commitWaits (netTake s n) d i = false → (getCore s k).deferred = [] → (getCore s k).releasing = [] →
     (∀ es, CachedList s d i es → ∃ u, exec (.taskCommit n) s = .next (charge (each (es.filter succAhead) (edge d 2 ctx.sample)
         (each (es.filter (fun e => !succAhead e)) (successor k i ctx.cls ctx.sample none) u)) d i) ∧
       u.net = ldel s.net n ∧ (∀ q, getCtx u d q = getCtx s d q) ∧ (∀ r ∈ (getCore u k).away, r.ctx ≠ i) ∧ u.slots = s.slots) ∧
     (CachedList s d i [] → (getSlot s slot).current = some j →
       ∃ u, exec (.taskCommit n) s = .next u ∧ (∀ r ∈ (getCore u k).away, r.ctx ≠ i) ∧
         (tget Job.none (getSlot u slot).jobs j).acct = (job.acct + ctx.cycles * 1024 / rd s .pwr pwr_CORE_MHZ) % 2 ^ 64)) ∧
  (∀ (s : State) (n d i : Nat) (x : Flight), d < 8 →
     let c := getCtx s d i
     let ceiling := clsCeiling (classA s d c.fmtc)
     (ForSlice s n 2 d i x → x.tok.dcount.testBit 0 = false → c.pcur = 0 → ∃ u, exec (.ended n) s = .next u ∧
       (getCtx u d i).state = .committed ∧ rd u (.tke d) tke_COMMIT_COUNT = min (rd s (.tke d) tke_COMMIT_COUNT + 1) 0xFFFFFFFF) ∧
     (ForSlice s n 2 d i x → x.tok.dcount.testBit 0 = false → 0 < c.pcur → ∃ u, exec (.ended n) s = .next u ∧
       (getCtx u d i).state = .ended ∧ (getCtx u d i).pcur = c.pcur) ∧
     (ForSlice s n 2 d i x → x.tok.dcount.testBit 0 = true → c.fmtNow ≠ ceiling → ∀ es, CachedList s d i es → ∃ u,
       exec (.ended n) s = .next (each (es.filter succAhead) (edge d 3 c.sample) u) ∧ (getCtx u d i).state = .ready ∧ (getCtx u d i).rung = c.rung + 1 ∧
       (getCtx u d i).fmtNow = wider c.fmtNow ∧ (getCtx u d i).run = RunRec.zero) ∧
     (ForSlice s n 3 d i x → ∃ u, exec (.yielded n) s = .next u ∧ (getCtx u d i).state = .yielded ∧
       (getCtx u d i).run = { runFrom x.tok.payload with finger := c.run.finger } ∧
       rd u (.tke d) tke_YIELD_COUNT = min (rd s (.tke d) tke_YIELD_COUNT + 1) 0xFFFFFFFF))

/-- DEP tokens (R162, R166, R178): a satisfaction or a START takes one of DCUR and makes the context READY at zero, START counting
its producer; COMMIT counts it down and commits an ENDED context at zero; DISCARD makes a WAITING context HARD; a FAULT discards
the sample's FORWARD and BACKWARD contexts; a token of a tick that the die has not begun is held for its release. A deadline
that passes an unfinished release is recorded once (R165); SUBMIT takes a range of idle SUBMITTED contexts for the next tick
boundary (R186). -/
def Obligations.DependenceAndDeadlines : Prop :=
  (∀ (s : State) (n d i : Nat) (x : Flight), d < 8 →
     let c := getCtx s d i
     let m := x.tok.sample
     (ForEngine s n 0 d i x → relFor c m = true → c.state = .waiting → 0 < c.dcur → ∃ u, exec (.depSatisfy n) s = .next u ∧
       (getCtx u d i).dcur = c.dcur - 1 ∧ (getCtx u d i).state = (if c.dcur = 1 then .ready else .waiting) ∧
       (∀ j, j ≠ i → getCtx u d j = getCtx s d j)) ∧
     (ForEngine s n 1 d i x → relFor c m = true → softEdges s d c = true → c.state = .waiting → 0 < c.dcur → ∃ u,
       exec (.depStart n) s = .next u ∧ (getCtx u d i).dcur = c.dcur - 1 ∧ (getCtx u d i).pcur = c.pcur + 1 ∧
       (getCtx u d i).state = (if c.dcur = 1 then .ready else .waiting)) ∧
     (ForEngine s n 2 d i x → relFor c m = true → softEdges s d c = true → c.pcur = 1 → c.state = .ended → ∃ u,
       exec (.depCommit n) s = .next u ∧ (getCtx u d i).pcur = 0 ∧ (getCtx u d i).state = .committed) ∧
     (ForEngine s n 3 d i x → relFor c m = true → softEdges s d c = true → c.state = .waiting → ∃ u,
       exec (.depDiscard n) s = .next u ∧ (getCtx u d i).dcur = c.dcur + c.pcur ∧ (getCtx u d i).pcur = 0 ∧
       (getCtx u d i).hard = true) ∧
     (Arrives s n 3 x → x.tok.tag = 4 → x.tok.dest.core = 0x168 → x.tok.dest.die = d → x.tok.epoch = epochOf s (slotOf s d) →
       depEarly s d x.tok = false → x.tok.dcount.testBit 0 = false → x.tok.src.mod = moduleNo s →
       (∀ j, (getCtx s d j).state = .ready → ∃ es, CachedList s d j es) → ∃ u,
       exec (.depFault n) s = .next u ∧
       ∀ j, j ∈ (getDie s d).ctxs.map (·.1) → relFor (getCtx s d j) m = true → (getCtx s d j).cls < 2 →
         (getCtx s d j).state = .waiting ∨ (getCtx s d j).state = .ready → (getCtx u d j).state = .discarded) ∧
     (Arrives s n 3 x → x.tok.tag = 0 → x.tok.dest.core = 0x168 → x.tok.dest.die = d → x.tok.epoch = epochOf s (slotOf s d) →
       depEarly s d x.tok = true → (getDie s d).early.length < 64 → ∃ u, exec (.depSatisfy n) s = .next u ∧
         (getDie u d).early = (getDie s d).early ++ [x.tok] ∧ u.net = ldel s.net n)) ∧
  ((∀ (s : State) (d : Die) (i : BitVec 13),
     let c := getCtx s d i.toNat
     c.released = true → tget false (getDie s d).missed i.toNat = false → c.state = .waiting ∨ c.state = .ready ∨ c.state = .running ∨
       c.state = .yielded → ∃ t, exec (.deadlineMiss d i) s = .next t ∧
         rd t (.tke d) tke_DEADLINE_MISS = min (rd s (.tke d) tke_DEADLINE_MISS + 1) 0xFFFFFFFF ∧
         rd t (.tke d) tke_LAST_MISS = c.task % 2 ^ 32 ∧ getCtx t d i.toNat = c ∧ exec (.deadlineMiss d i) t = .next t) ∧
   ∀ (s : State) (fn : Func) (d : Die) (tag : BitVec 16), Admitted s fn (.tke d) → (rd s (.tke d) hCTRL).testBit 0 = true →
     let first := arg s (.tke d) 0 % 8192
     let n := arg s (.tke d) 1 % 16384
     0 < n → first + n ≤ 8192 → (∀ i < n, (getCtx s d (first + i)).cls = 4 ∧ (getCtx s d (first + i)).state = .idle) →
     ∃ t, exec (.submit fn d tag) s = .next t ∧ (getDie t d).submits = (getDie s d).submits ++ [(first, n, arg s (.tke d) 2)] ∧
       rd t (.tke d) hRESULT = 65536 * tag.toNat)

/-! ## The tick (R127 to R157) -/

/-- DONE from a die (R130, R134): once nothing that the tick released is outstanding the die reports once, with its count and
extension; the leader keeps the DONE of the current tick, by module and die. -/
def Obligations.DieDoneAndReceipt : Prop :=
  (∀ (s : State) (d : Die) (cycles : BitVec 22),
    let k := slotOf s d
    slotUsed s k = true → (getDie s d).started = true → (getDie s d).doneSent = false → phase s k = 3 ∨ phase s k = 4 →
    (rd s (.tckR d) tck_RX_STATE).testBit 9 = false → dieSettled s d = true → leaderModule s k = moduleNo s →
    ∃ t f, exec (.dieDone d cycles) s = .next t ∧ (getDie t d).doneSent = true ∧ rd t (.tckR d) tck_RX_DONE_LAST = cycles.toNat ∧
      rd t (.tckR d) tck_RX_DONE_MAX = max (rd s (.tckR d) tck_RX_DONE_MAX) cycles.toNat ∧ t.net = s.net ++ [f] ∧
      f.tok.kind = 4 ∧ f.tok.tag = 1 ∧ f.tok.sample = tickLo s k ∧ f.tok.src.die = d.val ∧
      fld f.tok.value 0 21 = rd s (.tckG k) tck_THERM_EXT % 2 ^ 21) ∧
  ∀ (s : State) (n k : Nat) (x : Flight), ForGenerator s n 1 k x → x.tok.sample = tickLo s k →
    ∃ t, exec (.tickDoneReceive n) s = .next t ∧ t.net = ldel s.net n ∧ t.regs = s.regs ∧
      (⟨x.tok.src.mod, x.tok.src.die, fld x.tok.value 0 21, x.tok.value.testBit 21, x.tok.value.testBit 22⟩ : Done) ∈ (getTick t k).dones ∧
      ∀ e ∈ (getTick s k).dones, e.mod ≠ x.tok.src.mod ∨ e.die ≠ x.tok.src.die → e ∈ (getTick t k).dones

/-- The leader's marker (R130, R144): with every DONE in and the window going on, the tick number and the window tick advance by one
and the DONEs of the old tick are gone; at a window boundary with no STOP, checkpoint or core swap due the window count advances
and the window tick is 0 again. A follower takes a marker (R134): the tick number is the marker's, the window tick the one that
its k names to the follower (k is taken modulo 2^20: the model's choice, log entry 57), and its count begins again. That a
marker of a new window waits while the follower's own checkpoint is ARMED or HELD (R341) is the model's reading (log entry 53). -/
def Obligations.Markers : Prop :=
  (∀ (s : State) (k : Slot) (extra : Nat), slotUsed s k = true → ticking s k = true → roleNo s k ≠ 2 → missing s k = [] →
     entryOver s k = false → (getTick s k).bounded = false →
     (windowOver s k = false → ∃ t, exec (.tickMarkerEmit k extra) s = .next t ∧ tickNo t k = (tickNo s k + 1) % 2 ^ 64 ∧
       rd t (.tckG k) tck_WINDOW_TICK = (rd s (.tckG k) tck_WINDOW_TICK + 1) % 2 ^ 32 ∧ (getTick t k).dones = [] ∧
       (phase t k = 3 ∨ phase t k = 4) ∧ rd t (.tckG k) tck_WINDOW_COUNT = rd s (.tckG k) tck_WINDOW_COUNT) ∧
     (windowOver s k = true → stopPending s k = false → ckPhase s k ≠ 1 → ckPhase s k ≠ 2 → swapWaits s k = false →
       ∃ t, exec (.tickMarkerEmit k extra) s = .next t ∧ tickNo t k = (tickNo s k + 1) % 2 ^ 64 ∧
         rd t (.tckG k) tck_WINDOW_TICK = 0 ∧ (getTick t k).dones = [] ∧
         rd t (.tckG k) tck_WINDOW_COUNT = min (rd s (.tckG k) tck_WINDOW_COUNT + 1) 0xFFFFFFFF) ∧
     (windowOver s k = true → stopPending s k = true → exec (.tickMarkerEmit k extra) s = .next s)) ∧
  (∀ (s : State) (n k : Nat) (x : Flight), ForGenerator s n 0 k x → roleNo s k = 2 → phase s k = 2 ∨ phase s k = 3 ∨ phase s k = 4 →
     let kn := if phase s k = 2 then 0 else markerTick s k x.tok.value
     (kn ≠ 0 ∨ ckPhase s k ≠ 1 ∧ ckPhase s k ≠ 2 → ∃ t, exec (.markerRelay n) s = .next t ∧
       rd t (.tckG k) tck_WINDOW_TICK = kn % 2 ^ 32 ∧ rd t (.tckG k) tck_TICK_LO = x.tok.sample % 2 ^ 32 ∧
       phase t k = (if x.tok.value.testBit 20 then 3 else 4) ∧ (getTick t k).count = .known 0) ∧
     (kn = 0 → ckPhase s k = 1 ∨ ckPhase s k = 2 → exec (.markerRelay n) s = .next s))

/-- A die begins a tick (R133, R160): its receiver shows the tick, the lists of the old tick are empty, and with the engine enabled
a context of the class EVERY with no dependence is READY for the tick's number. Stated of a tick without a rewind and without
DEP tokens that came before it. -/
def Obligations.TickStartReleases : Prop :=
  ∀ (s : State) (d : Die) (n i : Nat) (f : Flight),
    let k := slotOf s d
    s.net.findIdx? (fun f => f.tok.kind == 4 && f.tok.tag == 0 && f.tok.dest == here s d 0x16B) = some n → s.net[n]? = some f →
    f.tok.epoch = epochOf s k → (getTick s k).rewound = [] → (getDie s d).early = [] →
    ∃ t, exec (.tickStart d) s = .next t ∧ (getDie t d).started = true ∧ (getDie t d).doneSent = false ∧
      (getDie t d).submits = [] ∧ (getDie t d).missed = [] ∧ (rd t (.tckR d) tck_RX_STATE).testBit 8 = true ∧
      ((rd s (.tke d) hCTRL).testBit 0 = true → i ∈ (getDie s d).ctxs.map (·.1) →
        (∀ e ∈ (getDie s d).ctxs, e.1 = i → e.2.cls = 3 ∧ e.2.deps = 0) →
        (getCtx t d i).state = .ready ∧ (getCtx t d i).sample = tickLo s k ∧ (getCtx t d i).released = true)

/-- A late tick (R135, R136): TICK_OVERRUN counts it once, leaves the late dies of this module and the other late modules in
LATE_DIES and raises its event, and the generator waits on under STRETCH with a limit; under the FAULT policy, without a stretch
limit, or when STRETCH_LIMIT_EXPIRY ends the extra wait, the partition halts for cause 1 with STATUS.FAULT set, and the count
keeps where it stopped. That OVERRUN_COUNT counts under the policy FAULT too, and that STRETCH_TOTAL takes the whole limit at
its expiry, are the model's choices (log entry 57), as is STATUS.FAULT (log entry 75). -/
def Obligations.OverrunPolicies : Prop :=
  ∀ (s : State) (k : Slot), slotUsed s k = true → ticking s k = true → roleNo s k ≠ 2 → missing s k ≠ [] →
    ((getTick s k).overrun = false → ∃ t, exec (.tickOverrun k) s = .next t ∧ (getTick t k).overrun = true ∧
      rd t (.tckG k) tck_OVERRUN_COUNT = min (rd s (.tckG k) tck_OVERRUN_COUNT + 1) 0xFFFFFFFF ∧
      (rd t (.tckG k) hEVT).testBit 0 = true ∧
      rd t (.tckG k) tck_LATE_DIES = sumOf (((missing s k).filter (·.1 == moduleNo s)).map (fun e => 2 ^ e.2)) +
        256 * sumOf ((((missing s k).filter (·.1 != moduleNo s)).map (·.1 % 8)).eraseDups.map (2 ^ ·)) ∧
      (if policyFault s k = true ∨ rd s (.tckG k) tck_STRETCH_LIMIT = 0
        then phase t k = 5 ∧ rd t (.tmt k) tmt_HALT_INFO % 256 = 1 ∧ (rd t (.tckG k) hSTATUS).testBit 1 = true ∧
          (getTick t k).count = .known (rd s (.tckG k) tck_TICK_LEN + rd s (.tckG k) tck_EXT_APPLIED)
        else phase t k = phase s k ∧ (getTick t k).count = (getTick s k).count) ∧
      exec (.tickOverrun k) t = .next t) ∧
    ((getTick s k).overrun = true → (getTick s k).noLimit = false → ∃ t, exec (.stretchLimitExpiry k) s = .next t ∧
      phase t k = 5 ∧ rd t (.tmt k) tmt_HALT_INFO % 256 = 1 ∧ (rd t (.tckG k) hSTATUS).testBit 1 = true ∧
      (getTick t k).count = .known (rd s (.tckG k) tck_TICK_LEN + rd s (.tckG k) tck_EXT_APPLIED + rd s (.tckG k) tck_STRETCH_LIMIT) ∧
      rd t (.tckG k) tck_STRETCH_TOTAL = min (rd s (.tckG k) tck_STRETCH_TOTAL + rd s (.tckG k) tck_STRETCH_LIMIT) 0xFFFFFFFF)

/-- MARKER_MISSED: a follower that hears no marker halts for PEER_LOST (R139). ARMED, PAUSE and RESUME tokens at the leader (R138,
R150): ARMED is noted, and the last one starts the window unless a checkpoint holds it (R341; that the leader then stays ARMED
is the model's choice, log entry 55); PAUSE stops the ticks and RESUME ends the sender's pause. -/
def Obligations.LeaderTokensAndLostMarkers : Prop :=
  (∀ (s : State) (k : Slot), slotUsed s k = true → roleNo s k = 2 → ticking s k = true →
    ∃ t, exec (.markerMissed k) s = .next t ∧ phase t k = 5 ∧ rd t (.tmt k) tmt_HALT_INFO % 256 = 0x0F ∧
      (rd t (.tckG k) hSTATUS).testBit 1 = true) ∧
  (∀ (s : State) (n k : Nat) (x : Flight), ForGenerator s n 2 k x →
    let all := ∀ m ∈ followers s k, m = x.tok.src.mod ∨ m ∈ (getTick s k).armed
    ∃ t, exec (.armed n) s = .next t ∧ x.tok.src.mod ∈ (getTick t k).armed ∧
      (phase s k = 2 → roleNo s k = 1 → all → ckPhase s k ≠ 2 →
        phase t k = (if 0 < windowLen s k then 3 else 4) ∧ rd t (.tckG k) tck_WINDOW_TICK = 0 ∧ tickNo t k = tickNo s k) ∧
      (phase s k ≠ 2 ∨ roleNo s k ≠ 1 ∨ ¬ all ∨ ckPhase s k = 2 → phase t k = phase s k ∧ t.regs = s.regs ∧ t.net = ldel s.net n)) ∧
  (∀ (s : State) (n k : Nat) (x : Flight), ForGenerator s n 3 k x →
    ∃ t, exec (.pause n) s = .next t ∧ (x.tok.src.mod, x.tok.src.die) ∈ (getTick t k).paused ∧ ticking t k = false ∧
      t.net = ldel s.net n) ∧
  ∀ (s : State) (n k : Nat) (x : Flight), ForGenerator s n 4 k x →
    ∃ t, exec (.tickResume n) s = .next t ∧ (x.tok.src.mod, x.tok.src.die) ∉ (getTick t k).paused ∧ t.net = ldel s.net n

/-- STOP and its completion (R147, R154): STOP marks the generator; at the window boundary the partition is STOPPED, the engines of
its dies are off, and the event STOPPED is set. Commands of a loaded generator (R148, R150, R154): START enables the engines of
the dies and starts the window, at the tick number that the partition holds, unless a checkpoint holds the window (R341; that
START is then accepted and leaves the generator ARMED is the model's choice, log entry 55); a follower, and a leader that waits
for one, it leaves ARMED. EPOCH_SET sets the epoch of the generator and of the receivers; TCK_CALIBRATE leaves ALIGN at 16 at
least and no smaller than a latency of a receiver, and the page busy. -/
def Obligations.GeneratorCommands : Prop :=
  ((∀ (s : State) (fn : Func) (k : Slot) (tag : BitVec 16), Admitted s fn (.tckG k) →
     (phase s k = 3 ∨ phase s k = 4 → ∃ t, exec (.stop fn k tag) s = .next t ∧ stopPending t k = true ∧ phase t k = phase s k ∧
       rd t (.tckG k) hRESULT = 65536 * tag.toNat) ∧
     (phase s k ≠ 3 → phase s k ≠ 4 → ∃ t, exec (.stop fn k tag) s = .next t ∧ rd t (.tckG k) hRESULT = 0x14 + 65536 * tag.toNat)) ∧
   ∀ (s : State) (k : Slot), slotUsed s k = true → ticking s k = true → stopPending s k = true → roleNo s k ≠ 2 →
     windowOver s k = true → ckPhase s k ≠ 1 → ckPhase s k ≠ 2 →
     ∃ t, exec (.stopComplete k) s = .next t ∧ phase t k = 0 ∧ stopPending t k = false ∧ (rd t (.tckG k) hEVT).testBit 3 = true ∧
       ∀ d ∈ diesOf s k, (rd t (.tke d) hCTRL).testBit 0 = false) ∧
  (∀ (s : State) (fn : Func) (k : Slot) (tag : BitVec 16), Admitted s fn (.tckG k) → phase s k = 1 →
     (roleNo s k = 0 → wipeIncomplete s k = false → ckPhase s k ≠ 2 → ∃ t, exec (.start fn k tag) s = .next t ∧
       phase t k = (if 0 < windowLen s k then 3 else 4) ∧ rd t (.tckG k) tck_WINDOW_TICK = 0 ∧ tickNo t k = tickNo s k ∧
       (∀ d ∈ diesOf s k, (rd t (.tke d) hCTRL).testBit 0 = true) ∧ rd t (.tckG k) hRESULT = 65536 * tag.toNat) ∧
     (roleNo s k = 2 ∨ (roleNo s k = 1 ∧ allArmed s k = false) ∨ (roleNo s k ≠ 3 ∧ ckPhase s k = 2) →
       wipeIncomplete s k = false → ∃ t, exec (.start fn k tag) s = .next t ∧ phase t k = 2 ∧
         (∀ d ∈ diesOf s k, (rd t (.tke d) hCTRL).testBit 0 = true) ∧ rd t (.tckG k) hRESULT = 65536 * tag.toNat) ∧
     (∃ t, exec (.epochSet fn k tag) s = .next t ∧ epochOf t k = arg s (.tckG k) 0 % 16 ∧
       ∀ d ∈ diesOf s k, fld (rd t (.tckR d) tck_RX_STATE) 0 4 = arg s (.tckG k) 0 % 16) ∧
     (∃ t, exec (.tckCalibrate fn k tag) s = .next t ∧ 16 ≤ rd t (.tckG k) tck_ALIGN ∧
       (∀ d ∈ diesOf s k, rd t (.tckR d) tck_RX_MARKER_LAT ≤ rd t (.tckG k) tck_ALIGN) ∧ busy t (.tckG k) = true))

/-! ## Partitions, jobs, saves, layouts, images (R119 to R126, R251 to R284) -/

/-- HALT and RESUME (R258, R259): a halted partition keeps its memory, its receivers are paused, and HALT_INFO names the command and
that it may be resumed; RESUME goes on in the tick that was halted, with its number and window tick as they were. That the ticks
of one that an overrun has halted then wait without a stretch limit is the model's choice (log entry 57). -/
def Obligations.HaltAndResume : Prop :=
  ∀ (s : State) (fn : Func) (k : Slot) (tag : BitVec 16), Admitted s fn (.tmt k) →
    (activePhase (phase s k) = true → ∃ t, exec (.halt fn k tag) s = .next t ∧ phase t k = 5 ∧
      rd t (.tmt k) tmt_HALT_INFO = 0x500 ∧ (rd t (.tmt k) hEVT).testBit 0 = true ∧ t.mem = s.mem ∧ t.cores = s.cores ∧
      (∀ d ∈ diesOf s k, (rd t (.tckR d) tck_RX_STATE).testBit 9 = true) ∧ rd t (.tmt k) hRESULT = 65536 * tag.toNat) ∧
    (activePhase (phase s k) = false → ∃ t, exec (.halt fn k tag) s = .next t ∧ phase t k = phase s k ∧
      rd t (.tmt k) hRESULT = 0x414 + 65536 * tag.toNat) ∧
    (phase s k = 5 → (rd s (.tmt k) tmt_HALT_INFO).testBit 10 = true → ∃ t, exec (.resume fn k tag) s = .next t ∧
      ((getTick s k).inj = [] → phase t k = 2) ∧
      ((tfind (getTick s k).inj (rd s (.tckG k) tck_WINDOW_TICK)).isSome = true → phase t k = 3) ∧
      ((getTick s k).inj ≠ [] → tfind (getTick s k).inj (rd s (.tckG k) tck_WINDOW_TICK) = none → phase t k = 4) ∧
      (rd s (.tmt k) tmt_HALT_INFO % 256 = 1 → (getTick t k).noLimit = true) ∧
      tickNo t k = tickNo s k ∧ rd t (.tckG k) tck_WINDOW_TICK = rd s (.tckG k) tck_WINDOW_TICK ∧ t.mem = s.mem ∧ t.cores = s.cores ∧
      (∀ d ∈ diesOf s k, (rd t (.tckR d) tck_RX_STATE).testBit 9 = false) ∧ rd t (.tmt k) hRESULT = 65536 * tag.toNat) ∧
    (phase s k ≠ 5 ∨ (rd s (.tmt k) tmt_HALT_INFO).testBit 10 = false → ∃ t, exec (.resume fn k tag) s = .next t ∧
      phase t k = phase s k ∧ rd t (.tmt k) hRESULT = 0x414 + 65536 * tag.toNat)

/-- A host write of JOB_CFG (R278): the selected job is registered EMPTY, changed, or made ABSENT; a CURRENT job, and a SAVED or
LOST one while the timetable runs, cannot be made ABSENT; no other job changes its state. The timetable (R262, R263): TT_RUN is
set only over valid entries and the walk begins at entry 0; an entry ends after its last tick or its idle time, and the walk
goes on to the next entry, or ends where TT_RUN is clear. Stated of entries that leave the CURRENT job in place; a FREE entry
charges its job (R264). -/
def Obligations.JobsAndTimetable : Prop :=
  (∀ (s : State) (fn : Func) (k : Slot) (v : W32), Admitted s fn (.tmt k) → slotUsed s k = true →
     let j := rd s (.tmt k) tmt_JOB_SEL % 64
     let old := (getJob s k j).state
     (v.toNat.testBit 16 = true → ∃ t, exec (.jobRegister fn k v) s = .next t ∧
       (getJob t k j).state = (if old = .absent then .empty else old) ∧ (getJob t k j).share = v.toNat % 65536 ∧
       (getJob t k j).ctxValid = v.toNat.testBit 17 ∧ t.regs = s.regs ∧ ∀ i, i ≠ j → getJob t k i = getJob s k i) ∧
     (v.toNat.testBit 16 = false → old = .current ∨ ((old = .saved ∨ old = .lost) ∧ ttRun s k = true) →
       exec (.jobRegister fn k v) s = .next s) ∧
     (v.toNat.testBit 16 = false → old ≠ .current → (old ≠ .saved ∧ old ≠ .lost) ∨ ttRun s k = false →
       ∃ t, exec (.jobRegister fn k v) s = .next t ∧ (getJob t k j).state = .absent ∧ (getJob t k j).saved = none ∧
         t.regs = s.regs ∧ ∀ i, i ≠ j → getJob t k i = getJob s k i)) ∧
  (∀ (s : State) (fn : Func) (k : Slot),
     let stays := fun i => (ttPick s k (ttEntry s k i)).1 = (getSlot s k).current
     let at_ := fun (t : State) (i : Nat) => curEntry t k = i ∧ rd t (.tmt k) tmt_ENTRY_LEFT = ttDuration (ttEntry s k i) ∧
       (getSlot t k).current = (getSlot s k).current ∧ (rd t (.tmt k) tmt_STATE).testBit 17 = true
     (Admitted s fn (.tmt k) → slotUsed s k = true → ttRun s k = false →
       ((∀ i < frameLen s k, ttValid s k (ttEntry s k i) = true) → (rd s (.tmt k) tmt_STATE).testBit 17 = false → stays 0 →
         ∃ t, exec (.ttRunSet fn k) s = .next t ∧ ttRun t k = true ∧ at_ t 0) ∧
       (∀ i < frameLen s k, ttValid s k (ttEntry s k i) = false →
         ∃ t, exec (.ttRunSet fn k) s = .next t ∧ ttRun t k = false ∧ (rd t (.tmt k) hEVT).testBit 3 = true)) ∧
     (Admitted s fn (.tmt k) → slotUsed s k = true → ∃ t, exec (.ttRunClear fn k) s = .next t ∧ ttRun t k = false ∧
       (getSlot t k).walkWaits = false ∧
       (rd t (.tmt k) tmt_STATE).testBit 17 = ((rd s (.tmt k) tmt_STATE).testBit 17 && !(getSlot s k).walkWaits)) ∧
     (walking s k = true → (getSlot s k).current = none →
       (ttRun s k = false → ∃ t, exec (.idleEntryExpiry k) s = .next t ∧ (rd t (.tmt k) tmt_STATE).testBit 17 = false) ∧
       (ttRun s k = true → curEntry s k + 1 < frameLen s k → curEntry s k < 255 → stays (curEntry s k + 1) →
         ∃ t, exec (.idleEntryExpiry k) s = .next t ∧ at_ t (curEntry s k + 1)) ∧
       (ttRun s k = true → frameLen s k ≤ curEntry s k + 1 → stays 0 →
         ∃ t, exec (.idleEntryExpiry k) s = .next t ∧ at_ t 0 ∧ (rd t (.tmt k) hEVT).testBit 2 = true)) ∧
     ∀ j, walking s k = true → (getSlot s k).current = some j → entryOver s k = true → missing s k = [] → stopPending s k = false →
       windowOver s k = false ∨ swapWaits s k = false → phase s k ≠ 5 →
       (ttRun s k = false → ∃ t, exec (.timetableEntryEnd k) s = .next t ∧ (rd t (.tmt k) tmt_STATE).testBit 17 = false ∧
         let y := getJob s k j
         ((getSlot s k).freeEntry = true → y.state = .current → y.share ≠ 0 →
           y.pass + (getSlot s k).freeAcct / 1024 * 65536 / y.share < 2 ^ 48 →
           (getJob t k j).pass = y.pass + (getSlot s k).freeAcct / 1024 * 65536 / y.share)) ∧
       (ttRun s k = true → (getSlot s k).freeEntry = false → curEntry s k + 1 < frameLen s k → curEntry s k < 255 →
         stays (curEntry s k + 1) → ∃ t, exec (.timetableEntryEnd k) s = .next t ∧ at_ t (curEntry s k + 1)))

/-- Saving and restoring a job (R267 to R272, R279): the dies pause; with every memory tag free, no collective run and no page move
in progress, and no CLAIM, commit or discard on its way, the job is SAVED with its tick, no job is CURRENT and the cores of the
partition hold only zeros; a save that cannot stop a core ends in a halt that cannot be resumed; a restore makes the job
CURRENT, with epoch 0 where it was EMPTY; it makes it LOST, which halts the partition, where a word of its die records or core
records is uncorrectable (R329). -/
def Obligations.SaveAndRestoreJob : Prop :=
  ∀ (s : State) (fn : Func) (k : Slot) (tag : BitVec 16) (j : Nat),
    (Admitted s fn (.tmt k) → slotUsed s k = true → ttRun s k = false → (getSlot s k).current = some j →
      (getJob s k j).ctxValid = true → phase s k ≠ 6 → areaInside s k (getJob s k j) = true →
      ∃ t, exec (.ctxSave fn k tag) s = .next t ∧ busy t (.tmt k) = true ∧ (getSlot t k).saving = some (j, false) ∧
        phase t k = phase s k ∧ t.mem = s.mem ∧ ∀ d ∈ diesOf s k, (rd t (.tckR d) tck_RX_STATE).testBit 9 = true) ∧
    ((getSlot s k).saving = some (j, false) → (getSlot s k).runs = [] → (getSlot s k).transit = [] → tokensDue s k = false →
      (∀ d ∈ diesOf s k, ∀ e ∈ (getDie s d).streams ++ (getDie s d).gathers, e.2.state ≠ 1) →
      ∃ t v, exec (.saveBegin k) s = .next t ∧ (getJob t k j).state = .saved ∧ (getJob t k j).saved = some v ∧
        v.phase = phase s k ∧ v.tick = getTick s k ∧ v.epoch = epochOf s k ∧ v.badRecord = false ∧ (getSlot t k).current = none ∧
        (getSlot t k).saving = none ∧ ∀ e ∈ serviceCores s k, ∀ a < siteBytes, rdByte t (coreAddr e.2 a) = 0) ∧
    (∀ c : CoreId, slotOf s c.die = k → (getSlot s k).saving = some (j, false) → phase s k ≠ 5 →
      ∃ t, exec (.preemptTimeout c) s = .next t ∧ phase t k = 5 ∧ (getSlot t k).saving = none ∧
        rd t (.tmt k) tmt_HALT_INFO % 256 = 0x11 ∧ (rd t (.tmt k) tmt_HALT_INFO).testBit 10 = false) ∧
    (Admitted s fn (.tmt k) → slotUsed s k = true → ttRun s k = false → (getSlot s k).current = none →
      j = arg s (.tmt k) 0 % 64 → wipeIncomplete s k = false → phase s k ≠ 6 →
      ((getJob s k j).state = .empty → (getJob s k j).saved = none → ∃ t, exec (.ctxRestore fn k tag) s = .next t ∧
        (getSlot t k).current = some j ∧ (getJob t k j).state = .current ∧ epochOf t k = 0 ∧
        (∀ e ∈ serviceCores s k, ∀ a < siteBytes, rdByte t (coreAddr e.2 a) = 0)) ∧
      (∀ v, (getJob s k j).state = .saved → (getJob s k j).saved = some v → lostCore s v = false →
        let damaged := ∃ d ∈ diesOf s k, ueWords s (ctxArea (getJob s k j) d) (65536 * ctxUnits 0) ≠ []
        ∃ t, exec (.ctxRestore fn k tag) s = .next t ∧
          (v.badRecord = false → ¬ damaged →
            (getSlot t k).current = some j ∧ (getJob t k j).state = .current ∧ epochOf t k = v.epoch % 16 ∧
              { getTick t k with count := v.tick.count } = v.tick) ∧
          (v.badRecord = true ∨ damaged → (getSlot t k).current = none ∧ (getJob t k j).state = .lost ∧
            (rd t (.tmt k) hEVT).testBit 4 = true ∧ phase t k = 5 ∧ rd t (.tmt k) tmt_HALT_INFO = 8)))

/-- WIPE, LAYOUT and the end of a wipe (R255, R256, R279, R281, R380 to R382): the partition's memory reads zero, its tables are at
reset and its epoch is kept; LAYOUT wipes the memory of every partition, puts its tables at reset and sets the number of
partitions. That memory is zero from the start of the wipe is the model's choice (log entry 68). -/
def Obligations.WipeAndLayout : Prop :=
  (∀ (s : State) (fn : Func) (k : Slot) (tag : BitVec 16), Admitted s fn (.tmt k) →
    (slotUsed s k = true → ∃ t, exec (.wipe fn k tag) s = .next t ∧ busy t (.tmt k) = true ∧ epochOf t k = epochOf s k ∧
      phase t k = (if (getSlot s k).laying = true then 6 else 0) ∧ getSlot t k = SlotSt.reset ∧
      ∀ d ∈ diesOf s k, busy t (.wip d) = true ∧ getDie t d = DieSt.reset ∧
        (∀ a < 2 ^ 43, rdByte t (d <<< 43 + a) = 0 ∧ rdByte t (hbmAddr d a) = 0) ∧
        ∀ c < 384, getCore t (384 * d + c) = Core.reset) ∧
    (slotUsed s k = false → ∃ t, exec (.wipe fn k tag) s = .next t ∧ rd t (.tmt k) hRESULT = 0x14 + 65536 * tag.toNat)) ∧
  (∀ (s : State) (tag : BitVec 16), Admitted s 0 (.tmt 8) →
    let n := arg s (.tmt 8) 0 % 16
    let masks := (List.range n).map (fun i => rd s (.tmt 8) (tmt_PORT_MASK_s + 4 * i) % 65536)
    n = 1 ∨ n = 2 ∨ n = 4 ∨ n = 8 → (∀ k < layoutN s, slotIdle s k = true) →
    (arg s (.tmt 8) 0).testBit 4 = false ∨ masksApart masks = true →
    ∃ t, exec (.layout 0 tag) s = .next t ∧ layoutN t = n ∧ busy t (.tmt 8) = true ∧ busy t .wipH = true ∧
      t.masks = (if (arg s (.tmt 8) 0).testBit 4 = true then masks else []) ∧
      ∀ k < layoutN s, getSlot t k = SlotSt.reset ∧ ∀ d ∈ diesOf s k, busy t (.wip d) = true ∧
        ∀ a < 2 ^ 43, rdByte t (d <<< 43 + a) = 0 ∧ rdByte t (hbmAddr d a) = 0) ∧
  ∀ (s : State) (w : Fin 9) (us : W32), busy s (wipPage w) = true → rd s (wipPage w) wip_STATE % 4 ≠ 3 →
    (∃ t, exec (.wipeComplete w us true) s = .next t ∧ busy t (wipPage w) = false ∧
      rd t (wipPage w) wip_LAST_US = us.toNat ∧ rd t (wipPage w) wip_COUNT = min (rd s (wipPage w) wip_COUNT + 1) 0xFFFFFFFF ∧
      (w.val < 8 → rd t (wipPage w) wip_STATE = 4 + 8 * b2n (wipeFailed s w)) ∧ t.mem = s.mem) ∧
    ∃ t, exec (.wipeComplete w us false) s = .next t ∧ busy t (wipPage w) = false ∧
      (rd t (wipPage w) wip_STATE).testBit 3 = true ∧ (rd t (wipPage w) hEVT).testBit 1 = true ∧ t.mem = s.mem

/-- CORE_SWAP (R15, R352, R379, R451): the command is refused, or the page is busy until the swap takes effect: at once on a
partition that is not active, else at its window boundary and not before. Then the slot of the tract names the reserve site, and
the vacated site is the reserve, or is retired. -/
def Obligations.CoreSwapCommands : Prop :=
  ∀ (s : State) (fn : Func) (d : Die) (t : Fin 24) (tag : BitVec 16),
    let p : Page := .trc d t
    let n := arg s p 0 % 16
    let k := slotOf s d
    (Admitted s fn p →
      (14 < n ∨ slotSite s d t n = none → ∃ u, exec (.coreSwap fn d t tag) s = .next u ∧ rd u p hRESULT = 0x214 + 65536 * tag.toNat) ∧
      (n ≤ 14 → (slotSite s d t n).isSome = true → phase s k = 5 →
        ∃ u, exec (.coreSwap fn d t tag) s = .next u ∧ rd u p hRESULT = 0x314 + 65536 * tag.toNat) ∧
      (n ≤ 14 → (slotSite s d t n).isSome = true → phase s k ≠ 5 → reserveOf s d t = none → activePhase (phase s k) = true →
        ∃ u, exec (.coreSwap fn d t tag) s = .next u ∧ rd u p hRESULT = 0x414 + 65536 * tag.toNat) ∧
      (n ≤ 14 → (slotSite s d t n).isSome = true → phase s k ≠ 5 → (reserveOf s d t).isSome = true ∨ activePhase (phase s k) = false →
        ∃ u, exec (.coreSwap fn d t tag) s = .next u ∧ busy u p = true ∧ u.regs = s.regs ∧ u.mem = s.mem)) ∧
    (unfinished s p = true → (getSlot s k).loading = false → activePhase (phase s k) = true →
      ticking s k = false ∨ (roleNo s k ≠ 2 ∧ windowOver s k = false ∧ (getTick s k).bounded = false) →
      exec (.coreSwapApply d t) s = .next s) ∧
    ∀ ls rs, unfinished s p = true → (getSlot s k).loading = false → phase s k ≠ 5 →
      activePhase (phase s k) = false ∨ (ticking s k = true ∧ roleNo s k ≠ 2 ∧ windowOver s k = true) →
      n ≤ 14 → slotSite s d t n = some ls → reserveOf s d t = some rs →
      ∃ u c, exec (.coreSwapApply d t) s = .next u ∧ rd u p (trc_MAP_n + 4 * n) = 0x100 + rs ∧
        rd u p trc_SWAP_COUNT = min (rd s p trc_SWAP_COUNT + 1) 0xFFFFFFFF ∧ tfind u.cmds (pageBase p) = some c ∧ c.ready = true ∧
        (rd u p trc_RESERVE = 0x100 + ls ∨ (rd u p trc_SITE_STATE).testBit (localOf (siteAt t ls)) = true) ∧
        ((arg s p 0).testBit 8 = true → rd u p trc_RESERVE = 0 ∧ (rd u p trc_SITE_STATE).testBit (localOf (siteAt t ls)) = true)

/-- LOAD (R119 to R126, R148): an image with a failure leaves the partition as it was and reports the first one; an image without
any is only reported under CHECK; else, held, the partition is LOADED with the image at tick 0 of the next epoch and its engines
are off. Stated where no page of the image is under COW. -/
def Obligations.LoadImage : Prop :=
  ∀ (s : State) (fn : Func) (k : Slot) (im : Image) (tag : BitVec 16),
    let p : Page := .tmt k
    let base := arg s p 0 + 2 ^ 32 * (arg s p 1 % 65536)
    let rep := arg s p 4 + 2 ^ 32 * (arg s p 5 % 65536)
    let r := physRead s base 256
    let h := r.2.1
    let maskOf := fun q => match secFor h 1 q with
      | some e => (List.range (hdrDies h)).map (fun d => ofBytes (memRead r.1 (base + e.off + 45 * d) 45))
      | none => List.replicate (hdrDies h) 0
    let ends := fun (t : State) (code sub : Nat) => ∃ c, tfind t.cmds (pageBase p) = some c ∧ c.ready = true ∧
      c.result = code + 256 * sub + 65536 * tag.toNat
    let same := fun (t : State) => phase t k = phase s k ∧ epochOf t k = epochOf s k ∧ (getSlot t k).image = (getSlot s k).image ∧
      t.dies = s.dies
    Admitted s fn p → slotUsed s k = true → (getSlot s k).current.isSome = true → 2 ≤ rd s .lcs lcs_STATE % 8 →
    phase s k = 0 ∨ phase s k = 1 ∨ phase s k = 5 → wipeIncomplete s k = false →
    ownTier1 s k base (max (arg s p 2) 256) pageSize = true → ownTier1 s k rep 64 64 = true →
    (∀ sub f pl, judgeImage s k (arg s p 2) h maskOf im = .error (sub, f, pl) → 0 < sub → sub < 256 →
      ∃ t, exec (.load fn k im tag) s = .next t ∧ ends t 0x0C sub ∧ same t ∧
        ∀ i < 64, rdByte t (rep + i) = (loadReport sub pl (epochOf s k) f).getD i 0) ∧
    ∀ x, judgeImage s k (arg s p 2) h maskOf im = .ok x →
      ((arg s p 3).testBit 0 = true → ∃ t, exec (.load fn k im tag) s = .next t ∧ ends t 0 0 ∧ same t) ∧
      ((arg s p 3).testBit 0 = false → (arg s p 3).testBit 1 = true →
        (∀ v ∈ loadPages x.im, pteCow (pteOf r.1 k v) = false) →
        ∃ t, exec (.load fn k im tag) s = .next t ∧ ends t 0 0 ∧ phase t k = 1 ∧ epochOf t k = (epochOf s k + 1) % 16 ∧
          tickNo t k = 0 ∧ rd t (.tckG k) tck_WINDOW_COUNT = 0 ∧ (getSlot t k).image = some (x.im, x.p) ∧
          rd t (.tckG k) tck_WINDOW = hdrWindow h % 2 ^ 32 ∧ ∀ d ∈ diesOf s k, (rd t (.tke d) hCTRL).testBit 0 = false)

/-- The sampler (R274 to R276, R282 to R284): a sample adds 1 to the bin of each queue's depth, of the link queues the flits that
the tokens in flight fill and those that the command brings (log entry 65), and to the busy count of each core on which a task
is RUNNING, and nothing while the sampler is off; CLEAR empties the counts. -/
def Obligations.SamplerCounts : Prop :=
  (∀ (s : State) (d : Die) (links : List Nat), (rd s (.smp d) hCTRL).testBit 0 = false → exec (.samplerSample d links) s = .next s) ∧
  (∀ (s : State) (d : Die) (links : List Nat), (rd s (.smp d) hCTRL).testBit 0 = true → (rd s (.smp d) hCTRL).testBit 1 = false →
    ∃ t, exec (.samplerSample d links) s = .next t ∧ rd t (.smp d) smp_SAMPLES = min (rd s (.smp d) smp_SAMPLES + 1) 0xFFFFFFFF ∧
      t.mem = s.mem ∧ t.cores = s.cores ∧
      ∀ l < 360, ∀ key, coreOf s d l = some key →
        let c := getCore s key
        (∀ kind < 6,
          let depth := if kind = 0 then feederDepth c else if kind = 5 then stageDepth c else
            linkDepth (flow s s.net []).2 d (key % 384) (kind - 1) + links.getD (4 * l + kind - 1) 0
          let i := (l * 6 + kind) * 16 + smpBin (smpShift s d kind) depth
          tget 0 (getDie t d).hist i = min (tget 0 (getDie s d).hist i + 1) 0xFFFFFFFF) ∧
        (taskRuns s key = true → tget 0 (getDie t d).busyCnt l = min (tget 0 (getDie s d).busyCnt l + 1) 0xFFFFFFFF) ∧
        (taskRuns s key = false → tget 0 (getDie t d).busyCnt l = tget 0 (getDie s d).busyCnt l)) ∧
  ∀ (s : State) (fn : Func) (d : Die) (tag : BitVec 16), Admitted s fn (.smp d) →
    ∃ t, exec (.clear fn d tag) s = .next t ∧ (getDie t d).hist = [] ∧ (getDie t d).busyCnt = [] ∧ rd t (.smp d) smp_SAMPLES = 0 ∧
      rd t (.smp d) hRESULT = 65536 * tag.toNat

/-! ## Translation tables and memory (R189 to R224) -/

/-- INIT, REGION, POOL, QUOTA and WALK (R204 to R206, R219): what each leaves in the tables of the partition; and that INIT of a
partition with tables and WALK of one without are refused, REGION where the tables have no room or pages of another job lie in
the region, POOL of an extent that may not be added, and QUOTA beyond the pools or below what the job uses. REGION, POOL and
WALK wait with nothing done while CALIBRATE stalls the stack of the table area, and an INIT waits for the stack of its new area
(R223). -/
def Obligations.PageTableSetup : Prop :=
  ∀ (s : State) (fn : Func) (d : Die) (tag : BitVec 16),
    let p : Page := .pgt d
    let k := slotOf s d
    let x := getSlot s k
    let va := pgtVa (argsOf s p)
    let stalls := busy s (.mem (tableStack s k))
    let waits := fun (t : State) => cmdActive t p = true ∧ t.regs = s.regs ∧ t.mem = s.mem ∧ (getSlot t k).ptes = x.ptes ∧
      (getSlot t k).regions = x.regions ∧ (getSlot t k).pools = x.pools
    let ok := fun (t : State) => rd t p hRESULT = 65536 * tag.toNat
    let no := fun (t : State) (r : Nat) => rd t p hRESULT = 0x14 + 256 * r + 65536 * tag.toNat ∧ t.slots = s.slots ∧ t.mem = s.mem
    (Admitted s fn p → cmdActive s p = false → homeDie s k = d → pgtEnabled s k = false →
      (arg s p 1 < 65536 → va % pageSize = 0 → 2 ≤ arg s p 2 → arg s p 2 ≤ 1024 → va / 2 ^ 46 = 1 →
        ownPhys s k va (arg s p 2 * pageSize) = true →
        (stalled s va = true → ∃ t, exec (.init fn d tag) s = .next t ∧ waits t) ∧ (stalled s va = false →
        ∃ t, exec (.init fn d tag) s = .next t ∧ ok t ∧ pgtEnabled t k = true ∧ rd t p pgt_ROOT_LO = va % 2 ^ 32 ∧
          rd t p pgt_ROOT_HI = va / 2 ^ 32 ∧ (∀ j < 64, quotaOf t k j = 0) ∧ (getSlot t k).areaPages = arg s p 2 ∧
          (getSlot t k).ptes = [] ∧ (getSlot t k).pools = [] ∧ (getSlot t k).regions = [])) ∧
      ∃ t, exec (.walk fn d tag) s = .next t ∧ no t 0x09) ∧
    (PgtReady s fn d →
      (stalled s va = false → ∃ t, exec (.init fn d tag) s = .next t ∧ no t 0x09) ∧
      (stalls = true → (∃ t, exec (.region fn d tag) s = .next t ∧ waits t) ∧ (∃ t, exec (.pool fn d tag) s = .next t ∧ waits t) ∧
        ∃ t, exec (.walk fn d tag) s = .next t ∧ waits t) ∧
      (stalls = false → arg s p 0 < 2 ^ 19 → arg s p 1 < 64 →
        let r := arg s p 0
        let set := fun (t : State) => ok t ∧ tfind (getSlot t k).regions r = some (arg s p 1) ∧
          ∀ q, q ≠ r → tfind (getSlot t k).regions q = tfind x.regions q
        let need := tablesUsed x + 1 + (if (tfind x.l1 (r / 8192)).isSome then 0 else 1)
        (tfind x.regions r = none → need ≤ tableRoom x → ∃ t, exec (.region fn d tag) s = .next t ∧ set t) ∧
        (tfind x.regions r = none → tableRoom x < need → ∃ t, exec (.region fn d tag) s = .next t ∧ no t 0x0E) ∧
        (∀ j, tfind x.regions r = some j → j ≠ arg s p 1 → (∃ e ∈ x.ptes, e.1 / 8192 = r) →
          ∃ t, exec (.region fn d tag) s = .next t ∧ no t 0x05)) ∧
      (stalls = false → arg s p 1 < 65536 → va % 4096 = 0 → arg s p 2 ≠ 0 →
        (arg s p 3 = 0 → badExtent s k va (arg s p 2) = none → ∃ t, exec (.pool fn d tag) s = .next t ∧ ok t ∧
          (getSlot t k).pools = x.pools ++ [⟨va / 2 ^ 46, va / 4096, arg s p 2⟩] ∧ (getSlot t k).ptes = x.ptes) ∧
        (∀ r, arg s p 3 = 0 → badExtent s k va (arg s p 2) = some r → ∃ t, exec (.pool fn d tag) s = .next t ∧ no t r) ∧
        (arg s p 3 = 1 → badRemoval s k va (arg s p 2) = none → ∃ t, exec (.pool fn d tag) s = .next t ∧ ok t ∧
          (getSlot t k).ptes = x.ptes ∧ ∀ sec, (∃ e ∈ (getSlot t k).pools, e.base ≤ sec ∧ sec < e.base + e.n) ↔
            (∃ e ∈ x.pools, e.base ≤ sec ∧ sec < e.base + e.n) ∧ (sec < va / 4096 ∨ va / 4096 + arg s p 2 ≤ sec))) ∧
      (arg s p 0 < 64 →
        let excess := (poolSectors x 1 + poolSectors x 2 < (quotaSum s k - quotaOf s k (arg s p 0) + arg s p 1) * 16) ∨
          arg s p 1 < usedPages x (arg s p 0)
        (¬ excess → ∃ t, exec (.quota fn d tag) s = .next t ∧ ok t ∧ quotaOf t k (arg s p 0) = arg s p 1) ∧
        (excess → ∃ t, exec (.quota fn d tag) s = .next t ∧ no t 0x06)) ∧
      (stalls = false → arg s p 1 < 65536 → va % pageSize = 0 → ∃ t, exec (.walk fn d tag) s = .next t ∧ ok t ∧
        rd t p pgt_WALK_LO = pteOf s k (va / pageSize) % 2 ^ 32 ∧
        rd t p pgt_WALK_HI = pteOf s k (va / pageSize) / 2 ^ 32 % 2 ^ 32 ∧ (getSlot t k).ptes = x.ptes ∧ (getSlot t k).tlb = x.tlb ∧
        t.mem = s.mem))

/-- MAP, UNMAP, ATTR and MIGRATE (R207, R208, R213, R214, R219): the entries of exactly the named pages change, to what the command
says: with room in the pool that it names, a MAP creates each of its pages there, and with no room it is refused with POOL; an
UNMAP waits while a memory tag or a running checkpoint holds a page; with room in the target pool, a MIGRATE puts exactly its
pages in transit, in order, and it waits while a checkpoint or another move holds one or CALIBRATE stalls a stack. All four wait
while CALIBRATE stalls the stack of the tables, and a MAP for the stack on which it creates pages (R223). -/
def Obligations.PageMappingCommands : Prop :=
  ∀ (s : State) (fn : Func) (d : Die) (tag : BitVec 16), PgtReady s fn d →
    let p : Page := .pgt d
    let k := slotOf s d
    let a := argsOf s p
    let v0 := pgtVa a / pageSize
    let n := arg s p 2
    let a3 := arg s p 3
    let phys := mapPhys a
    let pages := pgtPages (pgtVa a) n
    let ok := fun (t : State) => rd t p hRESULT = 65536 * tag.toNat
    let rest := fun (t : State) => ∀ v, v ∉ pages → pteOf t k v = pteOf s k v
    let waits := fun (t : State) => cmdActive t p = true ∧ t.regs = s.regs ∧ (getSlot t k).ptes = (getSlot s k).ptes
    (pgtStalls s k 3 a = true → ∃ t, exec (.map fn d tag) s = .next t ∧ waits t) ∧
    (busy s (.mem (tableStack s k)) = true → (∃ t, exec (.unmap fn d tag) s = .next t ∧ waits t) ∧
      (∃ t, exec (.attr fn d tag) s = .next t ∧ waits t) ∧ ∃ t, exec (.migrate fn d tag) s = .next t ∧ waits t) ∧
    (pgtStalls s k 3 a = false → badMap s k a = none →
      (a3.testBit 9 = true → ∃ t, exec (.map fn d tag) s = .next t ∧ ok t ∧ rest t ∧ t.mem = s.mem ∧
        ∀ i < n, pteOf t k (v0 + i) = pteAt (mapAttr a3) (phys / 4096 + 16 * i) 16 false) ∧
      (a3.testBit 9 = false →
        let stack := if fld a3 4 2 = 1 then some (fld a3 6 3) else none
        let created := fun (t : State) => ok t ∧ rest t ∧ ∀ i < n, pteValid (pteOf t k (v0 + i)) = true ∧
          pteWrite (pteOf t k (v0 + i)) = a3.testBit 0 ∧ ∃ sec m coded, pteOf t k (v0 + i) = pteAt (mapAttr a3) sec m coded
        (RoomToMap (getSlot s k) (fld a3 4 2) stack n → ∃ t, exec (.map fn d tag) s = .next t ∧ created t) ∧
        (freeRanges (getSlot s k) (fld a3 4 2) stack = [] → ∃ t, exec (.map fn d tag) s = .next t ∧
          rd t p hRESULT = 0x714 + 65536 * tag.toNat ∧ t.slots = s.slots ∧ t.mem = s.mem) ∧
        ∃ t, exec (.map fn d tag) s = .next t ∧ (created t ∨
         (rd t p hRESULT = 0x714 + 65536 * tag.toNat ∧ t.slots = s.slots ∧ t.mem = s.mem)))) ∧
    (∀ r < 256, pgtStalls s k 3 a = false → badMap s k a = some r → ∃ t, exec (.map fn d tag) s = .next t ∧
      rd t p hRESULT = 0x14 + 256 * r + 65536 * tag.toNat ∧ t.slots = s.slots ∧ t.mem = s.mem) ∧
    (busy s (.mem (tableStack s k)) = false → badRange a = none → (∀ v ∈ pages, pteValid (pteOf s k v) = true) →
      ((∀ v ∈ pages, ptePinned (pteOf s k v) = false) ∨ (∀ e ∈ diesOf s k, (rd s (.tke e) hCTRL).testBit 0 = false) →
        ((∀ v ∈ pages, tagsOn s k v = false ∧ pageHeld s k v = false) → ∃ t, exec (.unmap fn d tag) s = .next t ∧ ok t ∧ rest t ∧
          t.mem = s.mem ∧ cmdActive t p = false ∧ ∀ v ∈ pages, pteOf t k v = 0) ∧
        ((∃ v ∈ pages, tagsOn s k v = true ∨ pageHeld s k v = true) → ∃ t, exec (.unmap fn d tag) s = .next t ∧ waits t)) ∧
      (a3 = fld a3 0 5 + 256 * fld a3 8 5 → fld a3 0 5 &&& fld a3 8 5 = 0 →
        ckpCopies s k = false ∨ (fld a3 0 5 ||| fld a3 8 5).testBit 1 = false →
        ∃ t, exec (.attr fn d tag) s = .next t ∧ ok t ∧ rest t ∧ t.mem = s.mem ∧ ∀ v ∈ pages,
          let e := pteOf s k v ||| attrBits (fld a3 0 5)
          pteOf t k v = e - (e &&& attrBits (fld a3 8 5))) ∧
      (a3 < 32 → fld a3 0 2 ≠ 3 → pgtStatic s k = false ∨ activePhase (phase s k) = false → fld a3 0 2 = 2 ∨ fld a3 2 3 ∈ diesOf s k →
        let stalls := (∃ v ∈ pages, stackStalls s (pteOf s k v) = true) ∨ (fld a3 0 2 = 1 ∧ busy s (.mem (fld a3 2 3)) = true)
        ((∀ v ∈ pages, pageHeld s k v = false) → ¬ stalls →
          RoomToMove (getSlot s k) (fld a3 0 2) (if fld a3 0 2 = 2 then none else some (fld a3 2 3)) n →
          ∃ t l, exec (.migrate fn d tag) s = .next t ∧ cmdActive t p = true ∧ (getSlot t k).ptes = (getSlot s k).ptes ∧
            (getSlot t k).transit = (getSlot s k).transit ++ l ∧ l.map (·.vpn) = pages ∧ ∀ q ∈ l, q.cause = 0) ∧
        ((∀ v ∈ pages, pageHeld s k v = false) → ¬ stalls → ∃ t, exec (.migrate fn d tag) s = .next t ∧ (getSlot t k).ptes = (getSlot s k).ptes ∧
          ((cmdActive t p = true ∧ ∀ v ∈ pages, ∃ q ∈ (getSlot t k).transit, q.vpn = v) ∨
           rd t p hRESULT = 0x714 + 65536 * tag.toNat)) ∧
        ((∃ v ∈ pages, pageHeld s k v = true) ∨ stalls → ∃ t, exec (.migrate fn d tag) s = .next t ∧ waits t)))

/-- The migrator and the memory controller (R209, R210, R213, R222 to R224, R366): a sweep ages the unpinned pages of the pools of
tiers 0 and 1; below the low mark of tier 0 the demotion puts the first page that may be demoted in transit to its own stack
where 16 sectors are free there (stated with the stack's codec off, so that the page stays raw), and it only ever puts pages in
transit that are valid, not PINNED and not under COW; a switch writes one entry (stated where nothing waits for it: no PGT
command, no host request, no DISCARD that a die owes); CALIBRATE leaves its status when it completes; the correction poll and
the temperature are recorded. What the calibration finds is a free value (log entry 4). -/
def Obligations.MigratorAndMemoryUnit : Prop :=
  (∀ (s : State) (k : Slot), slotUsed s k = true → pgtEnabled s k = true → pgtStatic s k = false →
    (rd s (homePgt s k) hCTRL).testBit 3 = true →
    ∃ t, exec (.migratorSweep k) s = .next t ∧ (getSlot t k).used = [] ∧ t.mem = s.mem ∧
      (∀ o, rd t (homePgt s k) o = rd s (homePgt s k) o) ∧ ∀ v,
      let e := pteOf s k v
      pteOf t k v = if pteValid e = true ∧ ptePinned e = false ∧ pteTier e < 2 ∧ inPool (getSlot s k) (pteRange e) = true
        then setFld e 8 6 (if (getSlot s k).used.contains v then 0 else min 63 (pteAge e + 1)) else e) ∧
  (∀ (s : State) (k : Slot), slotUsed s k = true → pgtEnabled s k = true → pgtStatic s k = false →
    (∃ t, exec (.demotion k) s = .next t ∧ (getSlot t k).ptes = (getSlot s k).ptes ∧
      (∀ q ∈ (getSlot s k).transit, q ∈ (getSlot t k).transit) ∧
      ∀ q ∈ (getSlot t k).transit, q ∈ (getSlot s k).transit ∨ (q.cause = 1 ∧ ∃ e, (q.vpn, e) ∈ (getSlot s k).ptes ∧
        pteValid e = true ∧ ptePinned e = false ∧ pteCow e = false ∧ pteTier e < 2)) ∧
    (∀ q rest, demotable (getSlot s k) 0 = q :: rest →
      let own := fld (pteAddr q.2) 43 3
      freeSectors (getSlot s k) 0 + freeing (getSlot s k) 0 < rd s (homePgt s k) pgt_T0_LOW →
      freeSectors (getSlot s k) 0 + freeing (getSlot s k) 0 < rd s (homePgt s k) pgt_T0_HIGH →
      stackStalls s (pteOf s k q.1) = false → busy s (.mem own) = false → (rd s (.mem own) hCTRL).testBit 0 = false →
      (∃ r ∈ freeRanges (getSlot s k) 1 (some own), 16 ≤ r.2) →
      ∃ t, exec (.demotion k) s = .next t ∧ ∃ m ∈ (getSlot t k).transit, m.vpn = q.1 ∧ m.cause = 1) ∧
    (rd s (homePgt s k) pgt_T0_LOW ≤ freeSectors (getSlot s k) 0 + freeing (getSlot s k) 0 →
      rd s (homePgt s k) pgt_T1_LOW ≤ freeSectors (getSlot s k) 1 + freeing (getSlot s k) 1 →
      exec (.demotion k) s = .next s)) ∧
  (∀ (s : State) (k : Slot) (vpn : BitVec 32) (x : Transit), (getSlot s k).pgtWait = none → (∀ f < 9, (getFunc s f).waits = []) →
    (∀ e ∈ diesOf s k, (getDie s e).owed = []) →
    (getSlot s k).transit.find? (·.vpn == vpn.toNat) = some x → pteValid (pteOf s k vpn.toNat) = true →
    ∃ t, exec (.pageSwitch k vpn) s = .next t ∧ t.mem = s.mem ∧ (∀ q ∈ (getSlot t k).transit, q.vpn ≠ vpn.toNat) ∧
      pteOf t k vpn.toNat = pteAt (pteOf s k vpn.toNat) (pteSector x.entry) (pteSectors x.entry) (pteCoded x.entry) ∧
      (∀ v, v ≠ vpn.toNat → pteOf t k v = pteOf s k v) ∧
      (x.cause = 1 → rd t (homePgt s k) pgt_DEMOTE_COUNT = min (rd s (homePgt s k) pgt_DEMOTE_COUNT + 1) 0xFFFFFFFF)) ∧
  (∀ (s : State) (fn : Func) (d : Die) (tag : BitVec 16), Admitted s fn (.mem d) →
    ∃ t c, exec (.memCalibrate fn d tag) s = .next t ∧ busy t (.mem d) = true ∧ t.regs = s.regs ∧
      tfind t.cmds (pageBase (.mem d)) = some c ∧ c.ready = true ∧ c.result = 65536 * tag.toNat) ∧
  (∀ (s : State) (off : BitVec 26) (d : Nat) (c : CmdRun), pageOf off.toNat = some (.mem d) → tfind s.cmds (pageBase (.mem d)) = some c →
    c.long = true → c.ready = true → (getSlot s (slotOf s d)).pgtWait = none → (∀ f < 9, (getFunc s f).waits = []) →
    (∀ e ∈ diesOf s (slotOf s d), (getDie s e).owed = []) → ∃ t b, exec (.longOperationEnd off) s = .next t ∧ busy t (.mem d) = false ∧ b < 2 ∧
      rd t (.mem d) hRESULT = c.result % 2 ^ 32 ∧ rd t (.mem d) hEVT = (rd s (.mem d) hEVT ||| (c.evt &&& evtOf (.mem d))) ∧
      rd t (.mem d) mem_CAL_STATUS = b + 65536 * min 0xFFFF (rd s (.mem d) mem_CAL_STATUS / 65536 + 1) ∧
      (getDie t d).calTemp = rd s (.mem d) mem_TEMP % 256) ∧
  (∀ (s : State) (d : Die) (count : Nat), ∃ t, exec (.odeccPoll d count) s = .next t ∧
    rd t (.mem d) mem_ODECC_CE = min (rd s (.mem d) mem_ODECC_CE + count) 0xFFFFFFFF) ∧
  ∀ (s : State) (d : Die) (temp : BitVec 8), ∃ t, exec (.memTempUpdate d temp) s = .next t ∧
    rd t (.mem d) mem_TEMP = temp.toNat ∧ (95 ≤ temp.toNat → (rd t (.mem d) hEVT).testBit 2 = true) ∧
    (temp.toNat < 95 → (rd t (.mem d) hEVT) = rd s (.mem d) hEVT)

/-! ## Streams and gathers (R225 to R243) -/

/-- Commands of the STM and GCH pages (R229, R231, R242): an ARM starts an IDLE descriptor, waits in the shadow register of a busy
one, or overruns it (that the overrun of a host ARM counts OVERRUN_COUNT is the model's choice, log entry 59); RESTART ends a
halt; INVALIDATE empties the gather cache of the die. The end of an arm (R230, R242): the status is kept, the descriptor is IDLE
or takes the arm in its shadow register, the near range that the arm writes is ready, and the completion action satisfies a task
or signals a semaphore unless a rewind took it away. -/
def Obligations.DescriptorsAndArmEnds : Prop :=
  ((∀ (s : State) (fn : Func) (d : Die) (g : Bool) (tag : BitVec 16),
     let p := engPage d g
     let i := arg s p 0 % 1024
     let n := if g then 0 else arg s p 1 % 65536
     let x := getDesc s d g i
     let q : ArmReq := ⟨n, arg s p 2, false, none⟩
     let armIt : Instr := if g then .gchArm fn d tag else .stmArm fn d tag
     let restart : Instr := if g then .gchRestart fn d tag else .stmRestart fn d tag
     let code := fun (t : State) (c : Nat) => rd t p hRESULT = c + 65536 * tag.toNat
     Admitted s fn p →
       (g = true ∨ n < sArms x.bytes → (rd s p hCTRL).testBit 0 = true → descBad s d g x.bytes = false →
         (x.state = 0 → saves s d = false → ∃ t, exec armIt s = .next t ∧ code t 0 ∧ t.mem = s.mem ∧
           getDesc t d g i = { x with state := 1, arm := some (newArm q), nextArm := x.nextArm + 1 }) ∧
         (x.state ≠ 0 ∨ saves s d = true → x.shadow = none → ∃ t, exec armIt s = .next t ∧ code t 0 ∧ t.mem = s.mem ∧
           getDesc t d g i = { x with shadow := some q, nextArm := x.nextArm + 1 }) ∧
         (x.state ≠ 0 ∨ saves s d = true → x.shadow ≠ none → ∃ t, exec armIt s = .next t ∧ code t 0x0D ∧ getDesc t d g i = x ∧
           (g = false → rd t p stm_OVERRUN_COUNT = min (rd s p stm_OVERRUN_COUNT + 1) 0xFFFFFFFF))) ∧
       (g = true ∨ n < sArms x.bytes → (rd s p hCTRL).testBit 0 = false ∨ descBad s d g x.bytes = true →
         ∃ t, exec armIt s = .next t ∧ code t 0x14 ∧ getDesc t d g i = x) ∧
       (x.state = 2 → ∃ t, exec restart s = .next t ∧ code t 0 ∧ getDesc t d g i = match x.shadow with
         | some r => { x with state := 1, arm := some (newArm r), shadow := none }
         | none => { x with state := 0 }) ∧
       (x.state ≠ 2 → ∃ t, exec restart s = .next t ∧ code t 0x14 ∧ getDesc t d g i = x)) ∧
   ∀ (s : State) (fn : Func) (d : Die) (tag : BitVec 16), Admitted s fn (.gch d) →
     ∃ t, exec (.invalidate fn d tag) s = .next t ∧ (getDie t d).lines = [] ∧
       rd t (.gch d) gch_INVALIDATIONS = min (rd s (.gch d) gch_INVALIDATIONS + 1) 0xFFFFFFFF ∧
       rd t (.gch d) hRESULT = 65536 * tag.toNat) ∧
  (∀ (s : State) (d : Die) (g : Bool) (i : BitVec 10) (x : SDesc) (a : Arm), getDesc s d g i.toNat = x → x.arm = some a →
     x.state = 1 → a.moved = true →
     ∃ t, exec (.armComplete d g i) s = .next t ∧
       getDesc t d g i.toNat = (match if saves s d then none else x.shadow with
         | some q => { x with last := a.status, arm := some (newArm q), shadow := none }
         | none => { x with last := a.status, state := 0 }) ∧
       (∀ key, coreOf s d (dCore x.bytes) = some key →
         rangeReady (getCore t key) (nearWrites g x.bytes).1 (nearWrites g x.bytes).2 = true) ∧
       (g = false → rd t (.stm d) stm_ARMS_DONE = min (rd s (.stm d) stm_ARMS_DONE + 1) 0xFFFFFFFF) ∧
       (a.mute = false → dKind x.bytes = 1 →
         let y := getCtx s d (dTarget x.bytes % 8192)
         y.released = true → y.sample = a.req.sample → y.state = .waiting → 0 < y.dcur →
         (getCtx t d (dTarget x.bytes % 8192)).dcur = y.dcur - 1 ∧
         (getCtx t d (dTarget x.bytes % 8192)).state = (if y.dcur = 1 then .ready else .waiting)) ∧
       (∀ key, a.mute = false → dKind x.bytes = 2 → coreOf s d (dTarget x.bytes % 512) = some key →
         tget 0 (getCore t key).sem (fld (dTarget x.bytes) 9 5) =
           (semSum (tget 0 (getCore s key).sem (fld (dTarget x.bytes) 9 5)) 1).1) ∧
       (a.mute = true → ∀ j, getCtx t d j = getCtx s d j))

/-- A stream arm of one run (R227, R228, R230): a LOAD puts the far bytes into the core's SRAM, whose flags are then not ready; a
STORE puts the near bytes into memory; nothing else in memory changes; an arm without bytes moves none; an access that faults
halts the descriptor and the partition, and so does a near range that has come to lie outside data SRAM. The model's choices: a
far address counts modulo 2^48 (log entry 30), the state of a descriptor after such a fault (31), and that a STORE reads its
near range without its ready flags (59). -/
def Obligations.StreamArmMoves : Prop :=
  ∀ (s : State) (d : Die) (i : BitVec 10) (x : SDesc) (a : Arm) (key : Nat), ArmReady s d false i.toNat x a key →
    let b := x.bytes
    let k := slotOf s d
    let far := (dFar b + a.req.arm * bytesAt b 25 3 * 1024) % 2 ^ 48
    let moved := fun (t : State) (st : Nat) => ∃ a', getDesc t d false i.toNat = { x with arm := some a' } ∧ a'.moved = true ∧
      a'.status = st ∧ a'.req = a.req
    (sTotal b = 0 → ∃ t, exec (.streamArmStart d i) s = .next t ∧ moved t 1 ∧ t.mem = s.mem) ∧
    (sCnt1 b = 1 → sCnt2 b = 1 → sLen b < pageSize → inData (dNear b) (sLen b) = true → pgtPromote s k = false →
      (∀ f, sStore b = false → sAhead b = 0 → (getDie s d).lines = [] → FlatAt s k far (sLen b) false f →
        ∃ t, exec (.streamArmStart d i) s = .next t ∧ moved t 0 ∧ OnlyBytes s t (coreAddr key (dNear b)) (sLen b) ∧
          (∀ o < sLen b, rdByte t (coreAddr key (dNear b) + o) = rdByte s (f + o)) ∧
          rangeReady (getCore t key) (dNear b) (sLen b) = false) ∧
      (∀ f, sStore b = true → FlatAt s k far (sLen b) true f →
        ∃ t, exec (.streamArmStart d i) s = .next t ∧ moved t 0 ∧ OnlyBytes s t f (sLen b) ∧
          ∀ o < sLen b, rdByte t (f + o) = rdByte s (coreAddr key (dNear b) + o))) ∧
    (0 < sTotal b → inData (dNear b) (sTotal b) = false → ∃ t, exec (.streamArmStart d i) s = .next t ∧
      (getDesc t d false i.toNat).state = 2 ∧ (getDesc t d false i.toNat).last = 4 ∧
      rd t (.stm d) stm_LAST_FAULT = 0x0B + 256 * i.toNat ∧ phase t k = 5 ∧ t.mem = s.mem) ∧
    (∀ c r, sCnt1 b = 1 → sCnt2 b = 1 → 0 < sLen b → inData (dNear b) (sLen b) = true → far % pageSize + sLen b ≤ pageSize →
      look s k d (far / pageSize) (sStore b) false = .fault c r →
      ∃ t, exec (.streamArmStart d i) s = .next t ∧ (getDesc t d false i.toNat).state = 2 ∧ (getDesc t d false i.toNat).last = 4 ∧
        rd t (.stm d) stm_LAST_FAULT = c + 256 * i.toNat ∧ phase t k = 5 ∧
        rd t (.pgt d) pgt_FAULT_COUNT = min (rd s (.pgt d) pgt_FAULT_COUNT + 1) 0xFFFFFFFF)

/-- A gather arm of one row (R234, R235): the null index gives a row of zeros, an index past the table too under OOB_ZERO, and any
other the row of the table, here through an empty cache and one line; nothing else in memory changes. -/
def Obligations.GatherArmMoves : Prop :=
  ∀ (s : State) (d : Die) (i : BitVec 10) (x : SDesc) (a : Arm) (key : Nat), ArmReady s d true i.toNat x a key →
    let b := x.bytes
    let k := slotOf s d
    let idx := bytesAt (memRead s (coreAddr key (gIdx b)) (gWidth b)) 0 (gWidth b)
    let near := coreAddr key (dNear b)
    let moved := fun (t : State) (st : Nat) => ∃ a', getDesc t d true i.toNat = { x with arm := some a' } ∧ a'.moved = true ∧
      a'.status = st ∧ a'.req = a.req
    (gCount b = 0 → ∃ t, exec (.gatherArmStart d i) s = .next t ∧ moved t 1 ∧ t.mem = s.mem) ∧
    (gCount b = 1 → gGen b = 0 → inData (gIdx b) (gWidth b) = true → inData (dNear b) (gRow b) = true →
      (idx = 256 ^ gWidth b - 1 → ∃ t, exec (.gatherArmStart d i) s = .next t ∧ moved t 0 ∧ OnlyBytes s t near (gRow b) ∧
        (∀ o < gRow b, rdByte t (near + o) = 0) ∧
        rd t (.gch d) gch_NULL_ROWS = min (rd s (.gch d) gch_NULL_ROWS + 1) 0xFFFFFFFF) ∧
      (idx ≠ 256 ^ gWidth b - 1 → gRows b ≤ idx → gOobZero b = true → ∃ t, exec (.gatherArmStart d i) s = .next t ∧ moved t 0 ∧
        OnlyBytes s t near (gRow b) ∧ (∀ o < gRow b, rdByte t (near + o) = 0) ∧
        rd t (.gch d) gch_OOB_ROWS = min (rd s (.gch d) gch_OOB_ROWS + 1) 0xFFFFFFFF) ∧
      (idx ≠ 256 ^ gWidth b - 1 → gRows b ≤ idx → gOobZero b = false → ∃ t, exec (.gatherArmStart d i) s = .next t ∧
        (getDesc t d true i.toNat).state = 2 ∧ rd t (.gch d) gch_LAST_FAULT = 0x0B + 256 * i.toNat ∧ phase t k = 5) ∧
      (∀ f, idx ≠ 256 ^ gWidth b - 1 → idx < gRows b → (getDie s d).lines = [] → pgtPromote s k = false →
        (rd s (.gch d) hCTRL).testBit 1 = false → dFar b + gRows b * gStride b ≤ 2 ^ 48 →
        let va := dFar b + idx * gStride b
        va % 256 + gRow b ≤ 256 → va + gRow b ≤ dFar b + gRows b * gStride b → FlatAt s k va (gRow b) false f →
        ∃ t, exec (.gatherArmStart d i) s = .next t ∧ moved t 0 ∧ OnlyBytes s t near (gRow b) ∧
          (∀ o < gRow b, rdByte t (near + o) = rdByte s (f + o)) ∧
          rd t (.gch d) gch_MISSES = min (rd s (.gch d) gch_MISSES + 1) 0xFFFFFFFF))

/-! ## Collectives (R309 to R318) -/

/-- Posts and groups (R309, R311, R317, R318): GROUP_WRITE stores the entry with BROKEN clear; a post that a disabled engine or a
table without the operation refuses is counted; one that is not the last adds to POSTS in the entry; the last one starts the
run; a post that completes a further run's parts while one is in progress makes it PENDING, and one more is ARM_OVERRUN. Stated
of an entry in an uncoded page without error; the run of a BARRIER. -/
def Obligations.CollectivePosts : Prop :=
  (∀ (s : State) (fn : Func) (k : Slot) (tag : BitVec 16), Admitted s fn (.clv k) →
    let p : Page := .clv k
    let g := rd s p clv_GRP_SEL % 4096
    (slotUsed s k = true → inGroups s k g = true →
      ((∀ r ∈ (getSlot s k).runs, r.group ≠ g) ∨ grpBroken (groupOf s k g) = true) →
      ∃ t, exec (.groupWrite fn k tag) s = .next t ∧ rd t p hRESULT = 65536 * tag.toNat ∧
        grpValid (groupOf t k g) = (arg s p 0).testBit 0 ∧ grpBroken (groupOf t k g) = false ∧
        grpVersion (groupOf t k g) = arg s p 0 / 256 % 256 ∧ grpN (groupOf t k g) = arg s p 1 % 2 ^ 18 + 1 ∧
        grpRank (groupOf t k g) = arg s p 2 % 2 ^ 18 ∧ grpNext (groupOf t k g) = arg s p 3 % 2 ^ 18 ∧
        grpPrev (groupOf t k g) = arg s p 4 % 2 ^ 18 ∧ ∀ h, h ≠ g → groupOf t k h = groupOf s k h) ∧
    (slotUsed s k = false ∨ inGroups s k g = false → ∃ t, exec (.groupWrite fn k tag) s = .next t ∧
      rd t p hRESULT = 0x14 + 65536 * tag.toNat ∧ t.slots = s.slots)) ∧
  ∀ (s : State) (fn : Func) (k : Slot) (tag : BitVec 16), Admitted s fn (.clv k) →
    let p : Page := .clv k
    let op := arg s p 0 % 4096
    (slotUsed s k = false ∨ (rd s p hCTRL).testBit 0 = false ∨ opVa s k op = none →
      ∃ t, exec (.post fn k tag) s = .next t ∧ rd t p hRESULT = 0x14 + 65536 * tag.toNat ∧
        rd t p clv_POST_REFUSED = min (rd s p clv_POST_REFUSED + 1) 0xFFFFFFFF ∧ t.mem = s.mem) ∧
    ∀ va A, slotUsed s k = true → (rd s p hCTRL).testBit 0 = true → opVa s k op = some va → FlatAt s k va 64 true A →
      s.synd = [] → s.hard = [] →
      let E := memRead s A 64
      let total := min (opPosts E + 1) 65535
      (opPending E = true → opState E = 2 → ∃ t, exec (.post fn k tag) s = .next t ∧ rd t p hRESULT = 0x0D + 65536 * tag.toNat ∧
        rd t p clv_POST_REFUSED = min (rd s p clv_POST_REFUSED + 1) 0xFFFFFFFF ∧ ∀ x, rdByte t x = rdByte s x) ∧
      (opPending E = false → opLegal s k E = true → opParts E ≤ total → opState E = 2 → ∃ t, exec (.post fn k tag) s = .next t ∧
        rd t p hRESULT = 65536 * tag.toNat ∧ opPending (memRead t A 64) = true ∧ opPosts (memRead t A 64) = 0 ∧
        opRun (memRead t A 64) = opRun E ∧ OnlyBytes s t (A + 48) 5) ∧
      (opPending E = false → opLegal s k E = true → (total < opParts E → ∃ t, exec (.post fn k tag) s = .next t ∧ rd t p hRESULT = 65536 * tag.toNat ∧
        opPosts (memRead t A 64) = total ∧ opRun (memRead t A 64) = opRun E ∧ OnlyBytes s t (A + 48) 5) ∧
      (opParts E ≤ total → opState E ≠ 2 → (getSlot s k).saving = none → grpValid (groupOf s k (opGroup E)) = true →
        grpBroken (groupOf s k (opGroup E)) = false → opKind E = 5 → runOfOp s k op = none →
        ∃ t r, exec (.post fn k tag) s = .next t ∧ rd t p hRESULT = 65536 * tag.toNat ∧ runOfOp t k op = some r ∧
          r.run = (opRun E + 1) % 65536 ∧ opState (memRead t A 64) = 2 ∧ opRun (memRead t A 64) = (opRun E + 1) % 65536 ∧
          opPending (memRead t A 64) = decide (2 * opParts E ≤ total) ∧
          opPosts (memRead t A 64) = (if 2 * opParts E ≤ total then total - 2 * opParts E else total - opParts E) ∧
          OnlyBytes s t (A + 48) 5))

/-- Segments that arrive (R313 to R317): the DATA of the last step is stored, reduced with this member's own data in a
REDUCE_SCATTER; a GRANT adds to the credit of its ring; a BARRIER counts as passed after its second round; without their run a
GRANT and a BARRIER wait; a segment of another membership is refused. Stated of a run that holds nothing back. A run completes
(R316): once it has done everything its entry is IDLE, it is counted, and its completion action satisfies the target. Stated of
an operation that advances no generation, and of an entry in an uncoded page without error. -/
def Obligations.CollectiveRuns : Prop :=
  (∀ (s : State) (p : Port) (k : Slot) (i : Nat) (b : List Byte),
     let taken := fun (t : State) => (getPort t p).inbox = ldel (getPort s p).inbox i
     let runs := fun (r : CollRun) => runOfOp s k (segOp b) = some r ∧ r.run = segRun b ∧ r.group = segGroup b
     let bare := fun (r : CollRun) => r.planned = true ∧ r.sends = [] ∧ r.copies = [] ∧ r.staged = []
     let none_ := ∀ r, ¬ runs r
     (∀ r, SegmentAt s p 0 k i b → runs r → bare r → s.synd = [] → s.hard = [] → ckPhase s k = 0 → r.n ≤ segStep b + 1 →
       (segData b).length = segLength b →
       let at_ := chunkByte r (segChunk b) + segOffset b
       (∀ A, opKind r.entry = 2 → FlatAt s k (opDst r.entry + at_) (segLength b) true A →
         ∃ t r', exec (.collDataSegment p) s = .next t ∧ taken t ∧ OnlyBytes s t A (segLength b) ∧
           (∀ o < segLength b, rdByte t (A + o) = (segData b).getD o 0) ∧ runOfOp t k (segOp b) = some r' ∧
           r'.due = r.due - segLength b ∧
           rd t (.clv k) clv_BYTES_IN = min (rd s (.clv k) clv_BYTES_IN + cdiv (segLength b) 64) 0xFFFFFFFF) ∧
       (∀ A B, opKind r.entry = 1 → FlatAt s k (opSrc r.entry + at_) (segLength b) false B →
         FlatAt s k (opDst r.entry + segOffset b) (segLength b) true A →
         let v := reduceBytes (opType r.entry) (segData b) (memRead s B (segLength b))
         ∃ t r', exec (.collDataSegment p) s = .next t ∧ taken t ∧ OnlyBytes s t A (segLength b) ∧
           (∀ o < v.length, rdByte t (A + o) = v.getD o 0) ∧ runOfOp t k (segOp b) = some r' ∧ r'.due = r.due - segLength b)) ∧
     (∀ r, SegmentAt s p 1 k i b → runs r → bare r →
       ∃ t r', exec (.collGrant p) s = .next t ∧ taken t ∧ runOfOp t k (segOp b) = some r' ∧
         tget 0 r'.credit (2 * segSrank b + segRing b) = tget 0 r.credit (2 * segSrank b + segRing b) + segOffset b) ∧
     (∀ r, SegmentAt s p 2 k i b → runs r →
       ∃ t r', exec (.collBarrier p) s = .next t ∧ runOfOp t k (segOp b) = some r' ∧
         r'.passed = (r.passed || decide (r.n < segStep b)) ∧ t.mem = s.mem) ∧
     (none_ → (SegmentAt s p 1 k i b → ∃ t, exec (.collGrant p) s = .next t ∧ taken t ∧
         (getSlot t k).earlySegs = (getSlot s k).earlySegs ++ [b]) ∧
       (SegmentAt s p 2 k i b → ∃ t, exec (.collBarrier p) s = .next t ∧ taken t ∧
         (getSlot t k).earlySegs = (getSlot s k).earlySegs ++ [b]) ∧
       (SegmentAt s p 0 k i b → ∃ t, exec (.collDataSegment p) s = .next t ∧ taken t ∧ t.mem = s.mem)) ∧
     ∀ cls, firstSeg (getPort s p) = some (i, cls, b) → segKind b = 0 → portSlot s p = some k.val → segDest b = moduleNo s →
       segVersion b ≠ grpVersion (groupOf s k (segGroup b)) →
       ∃ t, exec (.collDataSegment p) s = .next t ∧ taken t ∧ t.mem = s.mem ∧ (rd t (.clv k) hEVT).testBit 1 = true ∧
         rd t (.clv k) clv_VERSION_REFUSED = min (rd s (.clv k) clv_VERSION_REFUSED + 1) 0xFFFFFFFF) ∧
  (∀ (s : State) (k : Slot) (op : BitVec 12) (r : CollRun) (va A : Nat), runOfOp s k op.toNat = some r → runDone s k r = true →
     (∀ q ∈ (getSlot s k).runs, q.op = op.toNat → q = r) →
     opVa s k op.toNat = some va → FlatAt s k va 64 true A → s.synd = [] → s.hard = [] → opKind r.entry = 0 ∨ opKind r.entry = 1 ∨ opKind r.entry = 5 →
     let E := memRead s A 64
     opPending E = false → opPosts E = 0 →
     ∃ t, exec (.collectiveRunComplete k op) s = .next t ∧ runOfOp t k op.toNat = none ∧ opState (memRead t A 64) = 0 ∧
       OnlyBytes s t (A + 48) 5 ∧ rd t (.clv k) clv_RUNS = min (rd s (.clv k) clv_RUNS + 1) 0xFFFFFFFF ∧
       let d := homeDie s k + opCdie r.entry % diesPer s
       ∀ n, opCkind r.entry = 1 → r.sample = some n →
         let y := getCtx s d (opTarget r.entry % 8192)
         y.released = true → y.sample = n → y.state = .waiting → 0 < y.dcur →
         (getCtx t d (opTarget r.entry % 8192)).dcur = y.dcur - 1)

/-! ## Flidric (R295 to R307, R320 to R323) and checkpoints (R338 to R351, R359) -/

/-- Flits and tokens of a port (R299 to R302, R307): a bad flit is counted and asks for a replay, and so does one whose number is
not the next; of those that stand where the next flit is due the eighth in a row takes the port down; while a replay is awaited
others are passed over, and in life-cycle state DIAGNOSTIC every payload; a sound flit of the next number is received, its
payload enters its stream, and a whole token the inbox; a NAK is answered by the replay; a heartbeat names the module and the
port; a token from another module enters its slot, or is refused; one that its endpoint has no room for stays in the port. -/
def Obligations.FlidricFlits : Prop :=
  (∀ (s : State) (p : Port) (b : List Byte), portLive s p = true →
    let x := getPort s p
    let key := flVc b * 2 + flCls b
    let due := flVc b ≠ 3 ∧ (x.skipping = false ∨ flSeq b = x.expect)
    let carries := rd s .lcs lcs_STATE % 8 ≠ 3
    let gap := carries ∧ flGood b = true ∧ flVc b ≠ 3 ∧ flSeq b ≠ x.expect
    (flGood b = false ∨ (gap ∧ x.skipping = false) →
      (¬ due → ∃ t f, exec (.flitReceive p b) s = .next t ∧ (getPort t p).bad = x.bad ∧ (getPort t p).wire = x.wire ++ [f] ∧
        flNak f = true ∧ portState t p = portState s p) ∧
      (due → x.bad + 1 < 8 → ∃ t f, exec (.flitReceive p b) s = .next t ∧ (getPort t p).bad = x.bad + 1 ∧
        (getPort t p).wire = x.wire ++ [f] ∧ flNak f = true ∧ portState t p = portState s p) ∧
      (due → 8 ≤ x.bad + 1 → ∃ t, exec (.flitReceive p b) s = .next t ∧ portState t p = 4)) ∧
    (flGood b = false → ∃ t, exec (.flitReceive p b) s = .next t ∧
      rd t (.fld p) fld_CRC_ERR = min (rd s (.fld p) fld_CRC_ERR + 1) 0xFFFFFFFF) ∧
    (carries → flGood b = true → flVc b ≠ 3 → flSeq b = x.expect →
      ∃ t, exec (.flitReceive p b) s = .next t ∧ (getPort t p).expect = (x.expect + 1) % 4096 ∧ (getPort t p).bad = 0 ∧
        rd t (.fld p) fld_RX_FLITS = min (rd s (.fld p) fld_RX_FLITS + 1) 0xFFFFFFFF ∧
        ((tget [] x.rx key ++ flPayload b).length < 32 → tget [] (getPort t p).rx key = tget [] x.rx key ++ flPayload b ∧
          (getPort t p).inbox = x.inbox) ∧
        (tget [] x.rx key = [] → tfind x.void key = none → 32 ≤ (flPayload b).length → unitSize (flVc b) (flPayload b) = (flPayload b).length → flVc b < 2 →
          (getPort t p).inbox = x.inbox ++ [(flVc b, flCls b, flPayload b)])) ∧
    (gap ∧ x.skipping = true ∨ (¬ carries ∧ flGood b = true ∧ flVc b ≠ 3) → ∃ t, exec (.flitReceive p b) s = .next t ∧ t.ports = s.ports ∧ t.net = s.net ∧
      rd t (.fld p) fld_RX_FLITS = rd s (.fld p) fld_RX_FLITS) ∧
    (flGood b = true → flVc b = 3 → ∃ t, exec (.flitReceive p b) s = .next t ∧ (getPort t p).expect = x.expect ∧
      (getPort t p).nakIn = (x.nakIn || flNak b) ∧
      (flHb b = true → rd t (.fld p) fld_PEER = flHbId b + 2 ^ 18 * flHbPort b ∧ rd t (.fld p) fld_HB_AGE = 0)) ∧
    (carries → x.nakIn = true → ∃ t l, exec (.nakReplay p) s = .next t ∧ (getPort t p).wire = x.wire ++ l ∧ l.length = x.replay.length ∧
      (∀ i < l.length, ∀ f, x.replay[i]? = some f → flSeq (l.getD i []) = f.seq % 4096) ∧ (getPort t p).replay = x.replay ∧
      (getPort t p).nakIn = false ∧ rd t (.fld p) fld_REPLAYS = min (rd s (.fld p) fld_REPLAYS + 1) 0xFFFFFFFF) ∧
    (∃ t f l, exec (.heartbeatSend p) s = .next t ∧ (getPort t p).wire = x.wire ++ f :: l ∧ flHb f = true ∧ flHbId f = moduleNo s ∧
      flHbPort f = p.val)) ∧
  (∀ (s : State) (p : Port), firstToken s p = none → exec (.flidricTokenArrive p) s = .next s) ∧
  ∀ (s : State) (p : Port) (i cls : Nat) (b : List Byte), firstToken s p = some (i, cls, b) →
    let tok := tokenFrom b
    let gone := fun (t : State) => (getPort t p).inbox = ldel (getPort s p).inbox i
    (portSlot s p = none → ∃ t, exec (.flidricTokenArrive p) s = .next t ∧ gone t ∧ t.net = s.net ∧
      rd t (.fld p) fld_DISCARDED = min (rd s (.fld p) fld_DISCARDED + 1) 0xFFFFFFFF) ∧
    (∀ k, portSlot s p = some k → tok.dest.mod = moduleNo s → tok.kind = 2 ∨ 6 ≤ tok.kind →
      ∃ t, exec (.flidricTokenArrive p) s = .next t ∧ gone t ∧ t.net = s.net ∧
        rd t (routePage k) fld_UNROUTABLE = min (rd s (routePage k) fld_UNROUTABLE + 1) 0xFFFFFFFF) ∧
    ∀ k, portSlot s p = some k → tok.dest.mod = moduleNo s → tok.kind ≠ 2 → tok.kind < 6 →
      ((tok.dest.die < 8 ∧ slotOf s tok.dest.die = k) ∨ (tok.dest.die = 8 ∧ tok.dest.core = 0x168 + k) →
        ∃ t, exec (.flidricTokenArrive p) s = .next t ∧ gone t ∧ t.net = s.net ++ [⟨tok, .nobody, k⟩]) ∧
      ((tok.dest.die < 8 ∧ slotOf s tok.dest.die ≠ k) ∨ 8 < tok.dest.die ∨ (tok.dest.die = 8 ∧ tok.dest.core ≠ 0x168 + k) →
        ∃ t, exec (.flidricTokenArrive p) s = .next t ∧ gone t ∧ t.net = s.net ∧
          rd t (routePage k) fld_FOREIGN_REFUSED = min (rd s (routePage k) fld_FOREIGN_REFUSED + 1) 0xFFFFFFFF)

/-- States of the links (R302, R304, R320, R322, R288, R294): a port without heartbeat goes DOWN and its peer is lost where no other
port is UP to it; LINK_RETRAIN trains a port that is enabled, and the training ends in UP, MAINT or DOWN, or OFF where the port
has been turned off; MAINT takes a port out of service; a replay over a saddle and a resend on the mesh are counted. That the
command ends with LINK_DOWN on a port that must stay OFF is the model's choice (log entry 80). -/
def Obligations.LinkStates : Prop :=
  (∀ (s : State) (p : Port), portState s p = 2 → ∃ t, exec (.heartbeatTimeout p) s = .next t ∧ portState t p = 4 ∧
    rd t (.fld p) fld_HB_AGE = 64 ∧ (rd t (.fld p) hEVT).testBit 0 = true ∧
    ((∀ q < 16, q ≠ p.val → portState s q ≠ 2 ∨ rd s (.fld q) fld_PEER % 2 ^ 18 ≠ rd s (.fld p) fld_PEER % 2 ^ 18) →
      (rd t (.fld p) hEVT).testBit 1 = true)) ∧
  (∀ (s : State) (fn : Func) (p : Port) (tag : BitVec 16), Admitted s fn (.fld p) →
    ((rd s (.fld p) hCTRL).testBit 0 = true → portState s p = 3 ∨ portState s p = 4 ∨ (portState s p = 0 ∧ s.board.node.isSome = true) →
      ∃ t, exec (.linkRetrain fn p tag) s = .next t ∧ portState t p = 1 ∧ busy t (.fld p) = true) ∧
    ((rd s (.fld p) hCTRL).testBit 0 = false → portState s p = 0 ∨ portState s p = 3 ∨ portState s p = 4 →
      ∃ t c, exec (.linkRetrain fn p tag) s = .next t ∧ portState t p = portState s p ∧
        tfind t.cmds (pageBase (.fld p)) = some c ∧ c.ready = true ∧ c.result = 0x0E + 65536 * tag.toNat) ∧
    (portState s p = 1 ∨ portState s p = 2 → ∃ t, exec (.linkRetrain fn p tag) s = .next t ∧ portState t p = portState s p ∧
      rd t (.fld p) hRESULT = 0x14 + 65536 * tag.toNat) ∧
    (∃ t, exec (.maintSet fn p) s = .next t ∧ (rd t (.fld p) hCTRL).testBit 2 = true ∧
      ((rd s (.fld p) hCTRL).testBit 0 = false → portState t p = 0) ∧
      (portState s p = 2 → (rd s (.fld p) hCTRL).testBit 0 = true → portState t p = 3))) ∧
  (∀ (s : State) (p : Port), portState s p = 1 →
    ((rd s (.fld p) hCTRL).testBit 0 = true →
      ∃ t, exec (.trainDone p true) s = .next t ∧ portState t p = (if (rd s (.fld p) hCTRL).testBit 2 then 3 else 2) ∧
      rd t (.fld p) fld_HB_AGE = 0 ∧ rd t (.fld p) fld_LANE_STATUS = 0xFF ∧ (rd t (.fld p) hEVT).testBit 2 = true ∧
      rd t (.fld p) fld_TRAIN_COUNT = min (rd s (.fld p) fld_TRAIN_COUNT + 1) 0xFFFFFFFF ∧
      ∀ c, tfind s.cmds (pageBase (.fld p)) = some c → c.long = true →
        ∃ c', tfind t.cmds (pageBase (.fld p)) = some c' ∧ c'.ready = true ∧ c'.result % 256 = 0) ∧
    ∃ t, exec (.trainDone p false) s = .next t ∧ portState t p = (if (rd s (.fld p) hCTRL).testBit 0 then 4 else 0) ∧
      (rd t (.fld p) hEVT).testBit 0 = true ∧ (rd t (.fld p) hEVT).testBit 2 = true) ∧
  (∀ (s : State) (k : Fin 12), hubUp s = true → (rd s .hub (hub_SADDLE_k_STATE + 16 * k)).testBit 7 = false →
    ∃ t, exec (.saddleFlitReplay k) s = .next t ∧
      rd t .hub (hub_SADDLE_k_CRC + 16 * k) = min (rd s .hub (hub_SADDLE_k_CRC + 16 * k) + 1) 0xFFFFFFFF ∧
      rd t .hub (hub_SADDLE_k_REPLAY + 16 * k) = min (rd s .hub (hub_SADDLE_k_REPLAY + 16 * k) + 1) 0xFFFFFFFF ∧ t.mem = s.mem) ∧
  ∀ (s : State) (c : CoreId), ∃ t, exec (.meshFlitResend c) s = .next t ∧
    rd t (.trc c.die (tractOf c.site)) hCE = min (rd s (.trc c.die (tractOf c.site)) hCE + 1) 0xFFFFFFFF ∧ t.mem = s.mem

/-- Taking a checkpoint (R338 to R345): CKPT_BEGIN arms it on the slot that is not LAST, and on a stopped or loaded partition is the
snapshot point itself; the hold, on a stopped or loaded partition or at the end of the window of one that runs, writes the
record and puts the pages under COW, and it waits while CALIBRATE stalls a stack; the copier makes the copy, clears COW and,
with every page copied, completes the slot; CKPT_CANCEL and an acknowledgement of the buddy. That copies are placed from the end
of the area downward is the model's choice (log entry 40). Stated of DEST LOCAL, pages of tiers 1 and 2 without capture, and raw
copies. -/
def Obligations.CheckpointTaking : Prop :=
  ∀ (s : State) (fn : Func) (k : Slot) (tag : BitVec 16),
    let p : Page := .ckp k
    let x := getCk s k
    (Admitted s fn p →
      (∀ j A, slotUsed s k = true → (rd s p hCTRL).testBit 0 = true → ckPhase s k = 0 →
        fld (rd s p hCTRL) 1 2 = 0 → (getSlot s k).current = some j → s.synd = [] → (getSlot s k).transit = [] →
        let va := arg s p 0 + 2 ^ 32 * (arg s p 1 % 65536)
        let n := arg s p 2
        let l := (List.range n).map (fun i => bytesAt (memRead s A (4 * n)) (4 * i) 4 % 2 ^ 19)
        va % 64 = 0 → 0 < n → n ≤ 8192 → FlatAt s k va (4 * n) false A → (∀ r ∈ l, tfind (getSlot s k).regions r = some j) →
        let armed := fun (t : State) => ∃ slot, ckPhase t k = 1 ∧ phase t k = phase s k ∧ busy t p = true ∧ t.mem = s.mem ∧
          slot = (if (rd s p ckp_STATE).testBit 4 then 0 else 1) ∧ (getCk t k).slot = slot ∧ ckSlot t k slot = 1 ∧
          (getCk t k).regions = l ∧ (getCk t k).dest = 0
        (phase s k = 3 ∨ phase s k = 4 → ∃ t, exec (.ckptBegin fn k tag) s = .next t ∧ armed t) ∧
        (phase s k = 0 ∨ phase s k = 1 → ∃ t u, exec (.ckptBegin fn k tag) s = .next t ∧ armed u ∧
          exec (.checkpointHold k) u = .next t)) ∧
      (slotUsed s k = false ∨ (rd s p hCTRL).testBit 0 = false ∨ ckPhase s k ≠ 0 →
        ∃ t, exec (.ckptBegin fn k tag) s = .next t ∧ rd t p hRESULT = 0x114 + 65536 * tag.toNat ∧ t.slots = s.slots) ∧
      (ckPhase s k = 3 → x.slot < 2 → (getSlot s k).pgtWait = none → ∃ t, exec (.ckptCancel fn k tag) s = .next t ∧ ckPhase t k = 0 ∧ ckSlot t k x.slot = 4 ∧
        (∀ q ∈ x.pages, pteCow (pteOf t k q.vpn) = false) ∧ rd t p hRESULT = 65536 * tag.toNat) ∧
      (ckPhase s k ≠ 3 → ∃ t, exec (.ckptCancel fn k tag) s = .next t ∧ rd t p hRESULT = 0x114 + 65536 * tag.toNat ∧ t.slots = s.slots)) ∧
    (slotUsed s k = true → ckPhase s k = 1 →
      let ended := (if roleNo s k = 2 then followerEmpty s k else windowOver s k || (getTick s k).bounded) = true
      let holds := fun (u : State) =>
        let pages := ckSet u k
        let y := getCk u k
        u.hard = [] → phase u k ≠ 2 → y.dest = 0 → y.slot < 2 → (getSlot u k).groups = [] → liveCaps u k = [] →
        (getSlot u k).captured = [] → pages ≠ [] → (∀ q ∈ pages, q.tier ≠ 0 ∧ pteValid (pteOf u k q.vpn) = true) →
        cdiv (makeRecord u k pages).2.length 4096 ≤ areaSectors u k →
        ∃ t, exec (.checkpointHold k) s = .next t ∧ ckPhase t k = 3 ∧ rd t p ckp_PAGES_TOTAL = pages.length % 2 ^ 32 ∧
          rd t p ckp_PAGES_RIDE = 0 ∧ (∀ q ∈ pages, pteCow (pteOf t k q.vpn) = true) ∧
          rd t p (ckp_SLOT_n_WINDOW + 16 * y.slot) = rd u (.tckG k) tck_WINDOW_COUNT ∧
          let r := memRead t (areaPart u k y.slot (homeDie u k)) 256
          recMagic r = true ∧ recNumber r = y.number % 2 ^ 32 ∧ recPages r = pages.length % 2 ^ 32 ∧ recLocalDone r = false
      (slotStalls s k = true → exec (.checkpointHold k) s = .next s) ∧
      (slotStalls s k = false →
        (phase s k = 0 ∨ phase s k = 1 → holds s) ∧
        (ticking s k = true → ended → holds (windowBoundary s k)) ∧
        (2 ≤ phase s k → ticking s k = false ∨ ¬ ended → exec (.checkpointHold k) s = .next s))) ∧
    (∀ q e sec, slotUsed s k = true → ckPhase s k = 3 → x.dest = 0 → x.slot < 2 → x.pages = [q] → q.made = false →
      288 ≤ x.record.length → (getSlot s k).cowNext = [] → (getSlot s k).transit = [] → (getSlot s k).pgtWait = none → s.synd = [] → s.hard = [] →
      pteOf s k q.vpn = e → pteValid e = true → pteTier e = 1 → pteCoded e = false →
      copyStalls s k q = false → (∀ f < 9, (getFunc s f).waits = []) →
      (rd s (.mem (copyStack s k e)) hCTRL).testBit 0 = false → areaPlace s k (copyStack s k e) 16 = some sec →
      ∃ t, exec (.cowCopy k) s = .next t ∧ ckPhase t k = 0 ∧ ckSlot t k x.slot = 2 ∧ pteCow (pteOf t k q.vpn) = false ∧
        rd t p ckp_COUNT = min (rd s p ckp_COUNT + 1) 0xFFFFFFFF ∧ (rd t p hEVT).testBit 0 = true ∧
        (rd t p ckp_STATE).testBit 4 = decide (x.slot = 1) ∧
        ∀ o < 65536, rdByte t (areaPart s k x.slot (copyStack s k e) + 4096 * sec + o) = rdByte s (pteAddr e + o)) ∧
    ∀ (port : Port) (i cls : Nat) (b : List Byte) (q : CkPage), firstSeg (getPort s port) = some (i, cls, b) → segKind b = 3 →
      segOp b = 1 → portSlot s port = some k.val → segDest b = moduleNo s → ckPhase s k = 3 → x.dest = 2 →
      buddyOf s k = some (segSrank b) → segRun b = x.number % 65536 → x.pages[segChunk b]? = some q →
      (∀ r ∈ x.pages, r.buddy ≠ 0) → (∃ j r, j ≠ segChunk b ∧ x.pages[j]? = some r ∧ r.buddy ≠ 2) →
      ∃ t, exec (.ckptAck port) s = .next t ∧ (getPort t port).inbox = ldel (getPort s port).inbox i ∧ ckPhase t k = 3 ∧
        (getCk t k).pages[segChunk b]? = some { q with buddy := 2 }

/-- Checkpoint segments (R346, R351): a COPY of the module that the slot holds for is stored in the held area, any other is refused;
CRC_REQ, PAGE_REQ and HELD_REQ are answered with the CRC, the page and the held bytes; a response goes to the command that waits
for it. How held bytes are laid out is the model's choice (log entry 54). -/
def Obligations.CheckpointSegments : Prop :=
  ∀ (s : State) (p : Port) (k : Slot) (i cls : Nat) (b : List Byte), firstSeg (getPort s p) = some (i, cls, b) → segKind b = 3 →
    portSlot s p = some k.val → segDest b = moduleNo s → s.synd = [] → s.hard = [] →
    let taken := fun (t : State) => (getPort t p).inbox = ldel (getPort s p).inbox i
    let n := segRun b % 2
    let held := (heldPart s k n).1
    let answered := fun (c : Instr) (op : Nat) (d : List Byte) => ∃ u, u.mem = s.mem ∧ taken u ∧
      exec c s = .next (ckSend u k op (segRun b) (segChunk b) (segSrank b) (segOffset b) d)
    (segOp b = 0 →
      (hostFor s k = some (segSrank b) → segChunk b = recChunk → inHeld s k n (segOffset b) (segData b).length = true →
        (held + segOffset b) / 2 ^ 46 = 1 → ∃ t, exec (.ckptCopy p) s = .next t ∧ taken t ∧
          OnlyBytes s t (held + segOffset b) (segData b).length ∧
          ∀ o < (segData b).length, rdByte t (held + segOffset b + o) = (segData b).getD o 0) ∧
      (hostFor s k ≠ some (segSrank b) → ∃ t, exec (.ckptCopy p) s = .next t ∧ taken t ∧ t.mem = s.mem ∧
        rd t (.ckp k) ckp_REFUSED = min (rd s (.ckp k) ckp_REFUSED + 1) 0xFFFFFFFF ∧ (rd t (.ckp k) hEVT).testBit 4 = true)) ∧
    (answersLive s k = true → (getSlot s k).transit = [] → (segData b).length = 4 →
      ∀ A, FlatAt s k (bytesAt (segData b) 0 4 * pageSize) pageSize false A →
        (segOp b = 2 → answered (.crcReq p) 3 (toBytes 8 (crc64 (memRead s A pageSize)))) ∧
        (segOp b = 4 → answered (.pageReq p) 5 (memRead s A pageSize))) ∧
    (segOp b = 6 → hostFor s k = some (segSrank b) → segChunk b = recChunk → segOffset b < (heldPart s k n).2 →
      let len := min 2048 ((heldPart s k n).2 - segOffset b)
      inHeld s k n (segOffset b) len = true → (held + segOffset b) / 2 ^ 46 = 1 →
      answered (.heldReq p) 7 (memRead s (held + segOffset b) len)) ∧
    ∀ t0, (getCk s k).task = some t0 →
      (∀ (c : CmdRun) (q : CkPage) (A : Nat), segOp b = 3 → t0.op = 4 → t0.want = 3 → t0.peer = segSrank b → t0.flags.testBit 1 = false →
        t0.buf = [] → t0.todo = [q] → q.ride = true → slotStalls s k = false → segLength b = 8 → (segData b).length = 8 → (getSlot s k).transit = [] →
        FlatAt s k (q.vpn * pageSize) pageSize false A → bytesAt (segData b) 0 8 = crc64 (memRead s A pageSize) →
        rd s (.ckp k) ckp_VERIFY_BAD = 0 → tfind s.cmds (pageBase (.ckp k)) = some c →
        ∃ t c', exec (.crcRsp p) s = .next t ∧ taken t ∧ (getCk t k).task = none ∧ ckPhase t k = 0 ∧
          rd t (.ckp k) ckp_VERIFY_PAGES = min (rd s (.ckp k) ckp_VERIFY_PAGES + 1) 0xFFFFFFFF ∧
          tfind t.cmds (pageBase (.ckp k)) = some c' ∧ c'.ready = true ∧ c'.result % 65536 = 0) ∧
      (segOp b = 5 → t0.want = 4 → t0.peer = segSrank b → 0 < segLength b → (t0.buf ++ segData b).length < 8 + pageSize →
        ∃ t, exec (.pageRsp p) s = .next t ∧ taken t ∧ t.mem = s.mem ∧ (getCk t k).task = some { t0 with buf := t0.buf ++ segData b }) ∧
      (segOp b = 7 → t0.want = 1 → buddyOf s k = some (segSrank b) → 0 < segLength b →
        (t0.buf ++ segData b).length < 256 ∨ (t0.buf ++ segData b).length < recLength (t0.buf ++ segData b) →
        ∃ t, exec (.heldRsp p) s = .next t ∧ t.mem = s.mem ∧ (getCk t k).task = some { t0 with buf := t0.buf ++ segData b }) ∧
      (∀ c, segOp b = 5 → t0.want = 4 → t0.peer = segSrank b → segLength b = 0 → tfind s.cmds (pageBase (.ckp k)) = some c →
        ∃ t c', exec (.pageRsp p) s = .next t ∧ (getCk t k).task = none ∧ tfind t.cmds (pageBase (.ckp k)) = some c' ∧
          c'.ready = true ∧ c'.result % 65536 = 0xB14)

/-- RESTORE, VERIFY and EXPOSE (R349, R351, R359): each is refused where the state of its partition or checkpoint forbids it,
RESTORE and VERIFY also where no copy can be used; RESTORE of the state of a local slot; VERIFY of a page that agrees with its
record; EXPOSE of a page that the slot holds for another module (where it lies there: log entry 54). Stated of one raw page
without error. -/
def Obligations.CheckpointReading : Prop :=
  ∀ (s : State) (fn : Func) (k : Slot) (tag : BitVec 16),
    let p : Page := .ckp k
    let a := arg s p 0
    let n := a % 2
    let no := fun (c : Instr) (r : Nat) => ∃ t, exec c s = .next t ∧ rd t p hRESULT = 0x14 + 256 * r + 65536 * tag.toNat ∧
      t.slots = s.slots
    let ends := fun (t : State) => ckPhase t k = 0 ∧ (getCk t k).task = none ∧ ∃ c, tfind t.cmds (pageBase p) = some c ∧ c.ready = true ∧
      c.result = 65536 * tag.toNat
    Admitted s fn p →
    (slotUsed s k = false ∨ phase s k ≠ 1 ∨ ckPhase s k ≠ 0 → no (.restore fn k tag) 1 ∧ no (.verify fn k tag) 1) ∧
    (slotUsed s k = false ∨ ckPhase s k ≠ 0 → no (.expose fn k tag) 1) ∧
    (slotUsed s k = true → phase s k = 1 → ckPhase s k = 0 → localUsable s k n = false →
      ((rd s (.tmt k) hCTRL).testBit 0 = false → a.testBit 1 = false → no (.restore fn k tag) 7) ∧
      (buddyOf s k = none → no (.verify fn k tag) 7)) ∧
    (slotUsed s k = true → ckPhase s k = 0 → s.synd = [] → s.hard = [] → (getSlot s k).transit = [] → slotStalls s k = false → ∀ r,
      (phase s k = 1 → localUsable s k n = true → (localRecord s k n).2 = some r →
        ((rd s (.tmt k) hCTRL).testBit 0 = false → a.testBit 1 = false → a.testBit 8 = false → a.testBit 10 = false →
          a.testBit 11 = false → a.testBit 12 = false → bytesAt r 16 1 % 128 = layoutN s + 16 * k → bytesAt r 12 4 % 2 ^ 18 = moduleNo s →
          ∃ t, exec (.restore fn k tag) s = .next t ∧ ends t ∧ t.mem = s.mem ∧
            (a.testBit 9 = true → rd t p ckp_CURSOR = bytesAt r 32 4 ∧ tickNo t k = bytesAt r 24 8 ∧
              rd t (.tckG k) tck_WINDOW_COUNT = bytesAt r 20 4)) ∧
        (∀ q A, recDir r = [q] → q.poison = false → a.testBit 1 = true ∨ q.ride = false → FlatAt s k (q.vpn * pageSize) pageSize false A →
          crc64 (memRead s A pageSize) = q.crc →
          ∃ t, exec (.verify fn k tag) s = .next t ∧ ends t ∧ t.mem = s.mem ∧ rd t p ckp_VERIFY_PAGES = 1 ∧
            rd t p ckp_VERIFY_BAD = 0)) ∧
      (∀ q A, (getSlot s k).current.isSome = true → (hostFor s k).isSome = true → inHeld s k n 0 256 = true →
        (readRecord s (heldPart s k n).1).2 = some r → recBuddyDone r = true → recDir r = [q] → q.coded = false → q.poison = false → q.sectors = 16 →
        q.vpn = (arg s p 1 + 2 ^ 32 * (arg s p 2 % 65536)) / pageSize → arg s p 3 = 1 → heldPage s k n 0 / 2 ^ 46 = 1 →
        let dst := (arg s p 4 + 2 ^ 32 * (arg s p 5 % 65536)) / pageSize
        FlatAt s k (dst * pageSize) pageSize true A → inPool (getSlot s k) (pteRange (pteOf s k dst)) = false →
        ∃ t, exec (.expose fn k tag) s = .next t ∧ ends t ∧ OnlyBytes s t A pageSize ∧
          ∀ o < pageSize, rdByte t (A + o) = rdByte s (heldPage s k n 0 + o)))

/-! ## Protection, firmware, power, host (R361 to R461) -/

/-- LOG_ADD, WIPE_SITE, SCRUB_PASS and LC_CHANGE (R373 to R379, R383 to R389, R392): what each enters, starts or refuses; a pass
mends a correctable word; an accepted life-cycle change wipes the module before it takes effect, a refused one leaves the state;
either way the next change needs a new NONCE (its values are open, log entry 7). -/
def Obligations.ProtectionCommands : Prop :=
  (∀ (s : State) (fn : Func) (tag : BitVec 16), Admitted s fn .fus →
    let a0 := arg s .fus 0
    let a1 := arg s .fus 1
    let e : Repair := ⟨fld a0 0 4, fld a0 8 3, fld a0 16 9, fld a1 0 8, fld a1 16 11, arg s .fus 2, s.repairs.length % 65536, true⟩
    let known := ∃ r ∈ s.repairs, r.kind = e.kind ∧ r.die = e.die ∧ r.site = e.site ∧ r.mac = e.mac ∧ r.index = e.index ∧ r.hword = e.hword
    let code := fun (t : State) (c : Nat) => rd t .fus hRESULT = c + 65536 * tag.toNat
    (badEntry a0 a1 (arg s .fus 2) = true → ∃ t, exec (.logAdd fn tag) s = .next t ∧ code t 0x214 ∧ t.repairs = s.repairs) ∧
    (badEntry a0 a1 (arg s .fus 2) = false →
      (known → ∃ t, exec (.logAdd fn tag) s = .next t ∧ code t 0 ∧ t.repairs = s.repairs) ∧
      (¬ known → s.repairs.length < 4096 → ∃ t, exec (.logAdd fn tag) s = .next t ∧ code t 0 ∧ t.repairs = s.repairs ++ [e]) ∧
      (¬ known → 4096 ≤ s.repairs.length → ∃ t, exec (.logAdd fn tag) s = .next t ∧ code t 0x114 ∧ t.repairs = s.repairs ∧
        (rd t .fus hEVT).testBit 0 = true)) ∧
    let d := a0 % 8
    let site := fld a0 8 9
    (384 ≤ site → ∃ t, exec (.wipeSite fn tag) s = .next t ∧ code t 0x214) ∧
    (site < 384 → roleOf s d site ≠ 1 → ∃ t, exec (.wipeSite fn tag) s = .next t ∧ code t 0x314) ∧
    (site < 384 → roleOf s d site = 1 → busy s (.wip d) = false → ∃ t, exec (.wipeSite fn tag) s = .next t ∧ busy t .fus = true ∧
      busy t (.wip d) = true ∧ rd t (.wip d) wip_STATE % 4 = 3) ∧
    (site < 384 → roleOf s d site = 1 → busy s (.wip d) = true → ∃ t, exec (.wipeSite fn tag) s = .next t ∧ busy t .fus = true ∧
      ∀ a < siteBytes, rdByte t (coreAddr (384 * d + site) a) = 0)) ∧
  (∀ (s : State) (w : Fin 9) (hbm : Bool),
    let p : Page := if w.val < 8 then .scb w else .scbH
    (rd s p hCTRL).testBit 0 = true →
    (w.val < 8 → (getSlot s (slotOf s w)).saving = none ∧ busy s (.wip w) = false ∧ rd s .lcs lcs_STATE % 8 ≠ 4) →
    w.val < 8 ∨ hbm = false →
    (∃ t, exec (.scrubPass w hbm) s = .next t ∧ (rd t p hEVT).testBit 0 = true ∧
      rd t p (if hbm then scb_HBM_PASSES else scb_SRAM_PASSES) =
        min (rd s p (if hbm then scb_HBM_PASSES else scb_SRAM_PASSES) + 1) 0xFFFFFFFF ∧
      rd t p (if hbm then scb_HBM_POS else scb_SRAM_POS) = 0 ∧ (s.synd = [] → t.mem = s.mem)) ∧
    ∀ i x n, hbm = false → w.val < 8 → s.synd = [(i, x)] → fld (8 * i) 43 3 = w → fld (8 * i) 46 2 = 0 →
      roleOf s w (fld (8 * i) 34 9) ≠ 2 → syndBit x = some n → n < 64 →
      ∃ t, exec (.scrubPass w hbm) s = .next t ∧ t.synd = [] ∧
        rdByte t (8 * i + n / 8) = rdByte s (8 * i + n / 8) ^^^ BitVec.ofNat 8 (2 ^ (n % 8)) ∧
        ∀ a, a ≠ 8 * i + n / 8 → rdByte t a = rdByte s a) ∧
  ∀ (s : State) (fn : Func) (tag : BitVec 16), Admitted s fn .lcs →
    (∀ r, lcReason s = some r → r < 6 → ∃ t, exec (.lcChange fn tag) s = .next t ∧ rd t .lcs lcs_STATE = rd s .lcs lcs_STATE ∧
      rd t .lcs hRESULT = 0x14 + 256 * r + 65536 * tag.toNat ∧ (rd t .lcs hEVT).testBit 1 = true ∧ t.mem = s.mem ∧
      t.board.nonce = s.free) ∧
    (lcReason s = none ∨ lcReason s = some 4 → (∀ w < 9, busy s (wipPage w) = false) → ∃ t, exec (.lcChange fn tag) s = .next t ∧
      rd t .lcs lcs_STATE = rd s .lcs lcs_STATE ∧ t.board.nonce = s.free ∧ busy t .lcs = (lcReason s).isNone ∧ (lcReason s = none → busy t .wipH = true ∧
      ∀ k < layoutN s, ∀ d ∈ diesOf s k, busy t (.wip d) = true ∧
        ∀ a < 2 ^ 43, rdByte t (d <<< 43 + a) = 0 ∧ rdByte t (hbmAddr d a) = 0))

/-- Firmware (R441, R448, R449, R460): FW_STAGE refuses an image whose place or header is malformed and writes any other one to the
inactive area and marks it by what it finds; FW_ACTIVATE names an area that verifies; the switch happens at an idle point; a
firmware without a heartbeat is reverted with an alert; SEQ_UPDATE is refused while the partition of a named die is active, and
changes the version of no die that is not named. What a firmware header holds and what verifies it are open in the spec, and so
free values of the model (log entry 67). -/
def Obligations.FirmwareCommands : Prop :=
  let p : Page := .kld 8
  (∀ (s : State) (fn : Func) (tag : BitVec 16), Admitted s fn p →
    let a := arg s p 0 + 2 ^ 32 * (arg s p 1 % 65536)
    let n := arg s p 2
    let area := 1 - fwActive s
    let code := fun (t : State) (c : Nat) => rd t p hRESULT = c + 65536 * tag.toNat
    let ends := fun (t : State) (c : Nat) => ∃ q, tfind t.cmds (pageBase p) = some q ∧ q.ready = true ∧ q.result = c + 65536 * tag.toNat
    (n = 0 ∨ fwMax < n ∨ a % 4096 ≠ 0 ∨ (a / 2 ^ 46 ≠ 1 ∧ a / 2 ^ 46 ≠ 2) → ∀ ok, ∃ t, exec (.fwStage fn tag ok) s = .next t ∧ code t 0x214) ∧
    (0 < n → n ≤ fwMax → a % 4096 = 0 → a / 2 ^ 46 = 1 → s.synd = [] → Config.firmwareFormed (memRead s a n) = false → ∀ ok,
      ∃ t, exec (.fwStage fn tag ok) s = .next t ∧ code t 0x214 ∧ t.board = s.board) ∧
    (0 < n → n ≤ fwMax → a % 4096 = 0 → a / 2 ^ 46 = 1 → s.synd = [] → Config.firmwareFormed (memRead s a n) = true →
      (∃ t, exec (.fwStage fn tag false) s = .next t ∧ ends t 0x514 ∧ fwBit t (1 + area) = false ∧ fwBit t 3 = false ∧
        fwActive t = fwActive s) ∧
      let good := Config.firmwareOk (memRead s a n)
      ∃ t, exec (.fwStage fn tag true) s = .next t ∧ ends t (if good then 0 else 0x114) ∧ fwBit t (1 + area) = good ∧ fwBit t 3 = good ∧
        fwActive t = fwActive s ∧ tfind t.board.flash area = some ⟨Config.firmwareVersion (memRead s a n), false, n,
          Config.firmwareSign (memRead s a n), memRead s a n⟩) ∧
    (fwBit s (1 + arg s p 0 % 2) = true → ∃ t, exec (.fwActivate fn tag) s = .next t ∧ code t 0 ∧
      t.board.fwNext = some (arg s p 0 % 2) ∧ fwActive t = fwActive s) ∧
    (fwBit s (1 + arg s p 0 % 2) = false → ∃ t, exec (.fwActivate fn tag) s = .next t ∧ code t 0x414 ∧ t.board = s.board) ∧
    ((∃ d < 8, (arg s p 0).testBit d = true ∧ activePhase (phase s (slotOf s d)) = true) →
      ∃ t, exec (.seqUpdate fn tag) s = .next t ∧ code t 0x314) ∧
    ((∀ d < 8, (arg s p 0).testBit d = true → activePhase (phase s (slotOf s d)) = false) →
      ∃ t, exec (.seqUpdate fn tag) s = .next t ∧ ends t 0 ∧ t.mem = s.mem ∧
        ∀ d < 8, (arg s p 0).testBit d = false → rd t p (kld_SEQ_VER_d + 4 * d) = rd s p (kld_SEQ_VER_d + 4 * d))) ∧
  (∀ (s : State) (area : Nat), s.board.fwNext = some area → area < 2 →
    (busy s .lcs = false → busy s .fus = false → (∀ i < 9, busy s (.kld i) = false) → ∃ t, exec .fwSwitch s = .next t ∧
      fwActive t = area ∧ fwBit t 3 = false ∧ t.board.fwNext = none ∧ t.board.fwOld = some (fwActive s) ∧
      (rd t p hEVT).testBit 1 = true) ∧
    (busy s .lcs = true ∨ busy s .fus = true → exec .fwSwitch s = .next s)) ∧
  ∀ (s : State) (old : Nat), s.board.fwOld = some old → old < 2 → ∃ t, exec .fwRevert s = .next t ∧ fwActive t = old ∧
    fwBit t 4 = true ∧ t.board.fwOld = none ∧ t.board.alert.testBit 3 = true ∧ (rd t p hEVT).testBit 2 = true

/-- Power and resets (R425, R428, R441 to R444): which pins, rails and marks each step of the board leaves; without rails, or held
in reset, the module keeps no memory, core, engine or table; a reset keeps life cycle and repair log, but for an entry that is
lost in both copies; a PCIe conventional reset keeps the standby island and the counts of the HUB page, and the loss of the main
rails keeps the standby island. -/
def Obligations.PowerAndResets : Prop :=
  let dark := fun (t : State) => t.mem = [] ∧ t.cores = [] ∧ t.dies = [] ∧ t.slots = [] ∧ t.net = [] ∧ t.funcs = [] ∧ t.cmds = []
  let empty := fun (t : State) => t.mem = [] ∧ t.cores = [] ∧ t.dies = [] ∧ t.net = []
  ∀ (s : State) (slot : Fin 8) (fails : List Nat) (vin : BitVec 16),
    (∃ t, exec (.coldPowerOn slot) s = .next t ∧ dark t ∧ hubUp t = false ∧ t.board.input = true ∧ t.board.rails = false ∧
      t.board.slotId = slot ∧ t.board.alert = 0 ∧ t.board.flash = s.board.flash ∧ rd t .pwr pwr_FAULT_INFO = 0 ∧
      rd t .thmH thm_TRIP_LATCH = 0) ∧
    (s.board.input = true → 5900 ≤ vin.toNat → s.board.powerFault = false → s.board.trip = false →
      ∃ t, exec (.pwrEnAssert vin fails) s = .next t ∧ empty t ∧ t.board.pwrEn = true ∧ t.board.rails = true ∧
        hubUp t = (!s.board.modReset && !s.board.perst) ∧ regView t .pwr pwr_RAIL_STATUS = 0xFFFF ∧ rd t .pwr pwr_VIN = vin.toNat) ∧
    (s.board.input = false ∨ vin.toNat < 5900 ∨ s.board.powerFault = true ∨ s.board.trip = true →
      exec (.pwrEnAssert vin fails) s = .next { s with board := { s.board with pwrEn := true } }) ∧
    (∃ t, exec .pwrEnDeassert s = .next t ∧ dark t ∧ t.board.pwrEn = false ∧ t.board.rails = false ∧ regView t .pwr pwr_RAIL_STATUS = 0 ∧
      rd t .pwr pwr_CORE_MHZ = rd s .pwr pwr_CORE_MHZ) ∧
    (∃ t, exec .modResetAssert s = .next t ∧ dark t ∧ t.board.modReset = true ∧ t.board.rails = s.board.rails ∧
      rd t .lcs lcs_STATE = rd s .lcs lcs_STATE ∧ t.repairs = s.repairs) ∧
    (∃ t, exec (.moduleReset slot fails) s = .next t ∧ empty t ∧ t.board.modReset = false ∧ t.board.slotId = slot ∧
      rd t .lcs lcs_STATE = rd s .lcs lcs_STATE ∧
      (∀ i r, s.repairs[i]? = some r → (i, 0) ∉ s.fuses.badCopy ∨ (i, 1) ∉ s.fuses.badCopy →
        ∃ q ∈ t.repairs, { q with pending := r.pending } = r) ∧
      (s.board.rails = true → s.board.perst = false → hubUp t = true ∧ busy t .wipH = true ∧
        ∀ v, s.board.node = some v → rd t (.fld 16) fld_MODULE = slot + 8 * (v % 2 ^ 15))) ∧
    (∀ held, ∃ t, exec (.pcieConventionalReset held fails) s = .next t ∧ empty t ∧ t.board.perst = (s.board.perst || held) ∧
      rd t .lcs lcs_STATE = rd s .lcs lcs_STATE ∧ rd t .thmH thm_THROTTLE_C = rd s .thmH thm_THROTTLE_C ∧
      rd t .pwr pwr_FAULT_INFO = rd s .pwr pwr_FAULT_INFO ∧ rd t .hub hub_REJECT_COUNT = rd s .hub hub_REJECT_COUNT) ∧
    (s.board.perst = true → ∃ t, exec (.perstRelease fails) s = .next t ∧ t.board.perst = false ∧
      hubUp t = (s.board.rails && !s.board.modReset) ∧ (hubUp t = true → busy t .wipH = true)) ∧
    (s.board.perst = false → exec (.perstRelease fails) s = .next s) ∧
    (∃ t, exec .standbyRailLoss s = .next t ∧ dark t ∧ t.board.input = false ∧ t.board.rails = false ∧ t.board.node = none ∧
      t.board.alert = 0) ∧
    ∀ bad : List CoreId, hubUp s = true → s.repairs.length + bad.length ≤ 4096 → ∃ t, exec (.selfTestComplete bad) s = .next t ∧
      (rd t .hub hub_STATE).testBit 1 = true ∧ (rd t .hub hub_STATE).testBit 2 = !bad.isEmpty ∧ t.mem = s.mem ∧
      ∀ c ∈ bad, ∃ r ∈ t.repairs, r.kind = 3 ∧ r.die = c.die ∧ r.site = c.site

/-- Power faults and temperature (R429, R431, R432, R450, R454 to R456): each fault turns the rails off and records its cause;
THERMTRIP is latched until PWR_EN has been low and the junctions are cool; where both faults come, both latch and THERMTRIP is
the recorded cause; excursions and the alarm are counted; a thermal step records the hottest tract and sets each slot's
extension. -/
def Obligations.PowerFaultsAndTemperature : Prop :=
  (∀ (s : State) (rail : Fin 16) (c : Instr) (cause r : Nat), s.board.input = true → s.board.rails = true → s.board.trip = false →
    (c, cause, r) ∈ [(Instr.inputUndervoltage, 1, 0), (.inputOvervoltage, 2, 0), (.railOutOfRegulation rail, 3, rail.val),
      (.inputOvercurrent, 4, 0), (.converterOvertemperature, 5, 0)] →
    ∃ t, exec c s = .next t ∧ t.mem = [] ∧ t.cores = [] ∧ t.board.rails = false ∧ t.board.powerFault = true ∧
      t.board.alert.testBit 1 = true ∧ rd t .pwr pwr_FAULT_INFO = cause + 16 * r ∧ regView t .pwr pwr_RAIL_STATUS = 0 ∧
      fld (rd t .pwr hSTATUS) 8 8 = 0x13) ∧
  (∀ (s : State) (rail : Fin 16), s.board.trip = true → ∃ t, exec (.railOutOfRegulation rail) s = .next t ∧ t.board.trip = true ∧
    t.board.powerFault = true ∧ rd t .pwr pwr_FAULT_INFO = rd s .pwr pwr_FAULT_INFO) ∧
  (∀ (s : State) (w : Fin 9), s.board.rails = true ∨ s.board.powerFault = true → ∃ t, exec (.thermtrip w) s = .next t ∧ t.mem = [] ∧ t.board.rails = false ∧
    t.board.trip = true ∧ t.board.alert.testBit 2 = true ∧ rd t .thmH thm_TRIP_LATCH = 1 + 2 * w ∧ rd t .pwr pwr_FAULT_INFO = 6) ∧
  (∀ (s : State) (cool : Bool), (s.board.pwrEn = false → ∃ t, exec (.faultLatchClear cool) s = .next t ∧ t.board.powerFault = false ∧
      t.board.trip = (s.board.trip && !cool)) ∧
    (s.board.pwrEn = true → exec (.faultLatchClear cool) s = .next s)) ∧
  (∀ (s : State) (pin : BitVec 16), s.board.input = true →
    (∃ t, exec (.voltageExcursion false) s = .next t ∧ rd t .pwr pwr_UV_EVENTS = min (rd s .pwr pwr_UV_EVENTS + 1) 0xFFFFFFFF ∧
      (rd t .pwr hEVT).testBit 0 = true ∧ t.board = s.board) ∧
    (∃ t, exec (.voltageExcursion true) s = .next t ∧ rd t .pwr pwr_OV_EVENTS = min (rd s .pwr pwr_OV_EVENTS + 1) 0xFFFFFFFF ∧
      (rd t .pwr hEVT).testBit 1 = true ∧ t.board = s.board) ∧
    ∃ t, exec (.powerAlarm pin) s = .next t ∧ rd t .pwr pwr_PIN = pin.toNat ∧
      rd t .pwr pwr_PIN_MAX = max (rd s .pwr pwr_PIN_MAX) pin.toNat ∧
      (rd s .pwr pwr_PIN_ALARM ≤ pin.toNat → (rd t .pwr hEVT).testBit 2 = true) ∧
      (pin.toNat < rd s .pwr pwr_PIN_ALARM → rd t .pwr hEVT = rd s .pwr hEVT)) ∧
  ∀ (s : State) (temps : List Int) (hub inlet outlet : Int), s.board.rails = true →
    ∃ t, exec (.thermalStep temps hub inlet outlet) s = .next t ∧ rd t .thmH thm_HUB_TEMP = degC hub ∧
      (∀ d < 8, let l := tractTemps temps d
        rd t (.thm d) thm_DIE_MAX = degC (hottest l) ∧ rd t (.thm d) thm_DIE_HOT_TRACT = (l.findIdx? (· == hottest l)).getD 0) ∧
      ∀ k < layoutN s, let tj := hottest ((diesOf s k).flatMap (tractTemps temps))
        let th := hottest ((diesOf s k).map (fun d => (rd s (.mem d) mem_TEMP % 256 : Nat)))
        let old := rd s .thmH (thm_EXT_PCT_s + 4 * k)
        let new := rd t .thmH (thm_EXT_PCT_s + 4 * k)
        let thr : Int := rd s .thmH thm_THROTTLE_C
        let hbm : Int := rd s .thmH thm_HBM_THROTTLE_C
        let hyst : Int := rd s .thmH thm_HYST_C
        (105 ≤ tj ∨ 95 ≤ th → new = 100) ∧
        (tj < 105 → th < 95 → (rd s .thmH hCTRL).testBit 0 = true → thr ≤ tj ∨ hbm ≤ th →
          new = min 100 (old + rd s .thmH thm_STEP_PCT)) ∧
        (tj < 105 → th < 95 → tj < thr → th < hbm → tj ≤ thr - hyst → th ≤ hbm - hyst → new = old - rd s .thmH thm_STEP_PCT) ∧
        (tj < 105 → th < 95 → tj < thr → th < hbm → thr - hyst < tj ∨ hbm - hyst < th → new = old) ∧
        rd t (.tckG k) tck_THERM_EXT = min 1048576 (cdiv (rd s (.tckG k) tck_TICK_LEN % 2 ^ 21 * new) 100)

/-- Functions, messages and the link (R394, R395, R415, R423): a function level reset of the PF touches no partition, one of a VF
that exists resets its partition, the commands of the ports that its slot owns included; clearing VF Enable resets the VFs only,
which are gone; a message held back goes out when its vector is unmasked or the function enabled; a change of the link is
recorded. That a PF reset clears VF Enable is the model's reading (log entry 69), and that MSIX_ENABLE of a VF stands for the
host having enabled it the model's choice (log entry 25). -/
def Obligations.FunctionsAndMessages : Prop :=
  ∀ (s : State), hubUp s = true →
    (∃ t, exec .pfFlr s = .next t ∧ (∀ f < 9, getFunc t f = FuncSt.reset) ∧ t.slots = s.slots ∧ t.mem = s.mem ∧ t.cores = s.cores ∧
      t.dies = s.dies) ∧
    (∃ t, exec .vfEnableClear s = .next t ∧ (∀ f < 9, 0 < f → getFunc t f = FuncSt.reset ∧ present t f = false) ∧
      getFunc t 0 = getFunc s 0 ∧
      t.slots = s.slots ∧ t.mem = s.mem ∧ t.cores = s.cores ∧ t.dies = s.dies) ∧
    (∀ vf : Func, vf.val ≠ 0 → present s vf = false → exec (.vfFlr vf) s = .next s) ∧
    (∀ vf : Func, vf.val ≠ 0 → present s vf = true → ∃ t, exec (.vfFlr vf) s = .next t ∧ getFunc t vf = FuncSt.reset ∧
      (slotUsed s (vf - 1) = true → getSlot t (vf - 1) = SlotSt.reset ∧ epochOf t (vf - 1) = epochOf s (vf - 1) ∧
        (∀ q < 16, portSlot s q = some (vf.val - 1) → tfind t.cmds (pageBase (.fld q)) = none) ∧
        ∀ d ∈ diesOf s (vf - 1), busy t (.wip d) = true ∧
          ∀ a < 2 ^ 43, rdByte t (d <<< 43 + a) = 0 ∧ rdByte t (hbmAddr d a) = 0) ∧
      (slotUsed s (vf - 1) = false → t.mem = s.mem ∧ t.slots = s.slots)) ∧
    (∀ (fn : Func) (en mask : Bool), ∃ t, exec (.msixEnable fn en mask) s = .next t ∧ (getFunc t fn).msix = en ∧
      (getFunc t fn).fmask = mask ∧ (en = false ∨ mask = true → t.msgs = s.msgs) ∧
      (en = true → mask = false → (getFunc s fn).msix = false ∨ (getFunc s fn).fmask = true → ∀ n < 256, srcPending s n = true →
        ownsSrc s fn n = true → (vmapEntry s fn n).testBit 15 = true →
        (tget 1 (getFunc s fn).table (4 * (vmapEntry s fn n % 2048) + 3)).toNat.testBit 0 = false →
        ∃ m ∈ t.msgs, m.func = fn.val ∧ m.vector = vmapEntry s fn n % 2048)) ∧
    (∀ (fn : Func) (v : BitVec 11), hears s fn = true → v.toNat < msixEntries fn → ∃ t, exec (.msixVectorUnmask fn v) s = .next t ∧
      tget 1 (getFunc t fn).table (4 * v.toNat + 3) = 0 ∧ t.mem = s.mem ∧
      ((getFunc s fn).msix = true → (getFunc s fn).fmask = false → tget false (getFunc s fn).pba v.toNat = true →
        tget false (getFunc t fn).pba v.toNat = false ∧ ∃ m, t.msgs = s.msgs ++ [m] ∧ m.func = fn.val ∧ m.vector = v.toNat ∧
          m.addr = (tget 0 (getFunc s fn).table (4 * v.toNat)).toNat + 2 ^ 32 * (tget 0 (getFunc s fn).table (4 * v.toNat + 1)).toNat ∧
          m.data = (tget 0 (getFunc s fn).table (4 * v.toNat + 2)).toNat)) ∧
    ∀ (speed : BitVec 3) (width : BitVec 5) (flit l0p : Bool),
      let new := speed.toNat + 16 * width.toNat + 512 * b2n flit + 1024 * b2n l0p
      ∃ t, exec (.pcieLinkChange speed width flit l0p) s = .next t ∧ rd t (.pcx 0) pcx_LINK = new ∧ t.mem = s.mem ∧
        (fld (rd s (.pcx 0) pcx_LINK) 0 9 ≠ fld new 0 9 → (rd t (.pcx 0) hEVT).testBit 0 = true) ∧
        (rd s (.pcx 0) pcx_LINK = new → rd t (.pcx 0) hEVT = rd s (.pcx 0) hEVT)

/-- SMBus (R446, R447): what each command answers and changes while the standby rail is up, and that nothing happens without it or
on a bad PEC. Bit 0 of the alert response is a free value (log entry 4); the answer to an unaligned offset and what counts a
busy page's refusal are the model's choices (log entry 20). -/
def Obligations.SmbusCommands : Prop :=
  ∀ (s : State) (off : BitVec 26) (v : W32) (pec : Bool),
    (s.board.input = false → ∀ c ∈ [Instr.smbIdent, .smbStatus, .alertCause, .temps, .smbPower, .regRead off, .regWrite off v pec,
      .nodeConfig v pec, .alertResponse], exec c s = .next s) ∧
    (s.board.input = true →
      (∃ t, exec .smbIdent s = .next t ∧ t.answer.length = 16 ∧ bytesAt t.answer 0 4 = rd s .lcs lcs_ID_LO ∧
        bytesAt t.answer 4 4 = rd s .lcs lcs_ID_HI ∧ bytesAt t.answer 8 4 = rd s .hub hub_PART ∧
        bytesAt t.answer 12 4 = rd s (.kld 8) (if fwActive s = 0 then kld_FW_VER_A else kld_FW_VER_B) ∧ t.regs = s.regs ∧ t.mem = s.mem) ∧
      (s.board.slotId < 8 → ∃ t, exec .smbStatus s = .next t ∧ t.answer.length = 2 ∧ t.board = s.board ∧ t.regs = s.regs ∧
        let w := bytesAt t.answer 0 2
        w.testBit 0 = s.board.rails ∧ w.testBit 1 = (rd s .hub hub_STATE).testBit 0 ∧ w.testBit 2 = s.board.powerFault ∧
        w.testBit 3 = s.board.trip ∧ fld w 4 3 = rd s .lcs lcs_STATE % 8 ∧ fld w 7 3 = s.board.slotId ∧
        w.testBit 10 = s.board.node.isSome) ∧
      (∃ t, exec .alertCause s = .next t ∧ bytesAt t.answer 0 1 = s.board.alert % 256 ∧ t.board.alert = 0 ∧ t.regs = s.regs) ∧
      (∃ t, exec .temps s = .next t ∧ t.answer.length = 19 ∧ t.regs = s.regs ∧ bytesAt t.answer 8 1 = rd s .thmH thm_HUB_TEMP % 256 ∧
        bytesAt t.answer 17 1 = rd s .thmH thm_COOLANT % 256 ∧ bytesAt t.answer 18 1 = rd s .thmH thm_COOLANT / 256 % 256 ∧
        ∀ d < 8, bytesAt t.answer d 1 = rd s (.thm d) thm_DIE_MAX % 256 ∧ bytesAt t.answer (9 + d) 1 = rd s (.mem d) mem_TEMP % 256) ∧
      (∃ t, exec .smbPower s = .next t ∧ t.answer.length = 6 ∧ bytesAt t.answer 0 2 = rd s .pwr pwr_VIN % 65536 ∧
        bytesAt t.answer 2 2 = rd s .pwr pwr_IIN % 65536 ∧ bytesAt t.answer 4 2 = rd s .pwr pwr_PIN % 65536 ∧ t.regs = s.regs) ∧
      (∀ p, pageOf off.toNat = some p → off.toNat % 4 = 0 → off.toNat < msixTable → s.board.rails = true → answers s p = true →
        ∃ t, exec (.regRead off) s = .next t ∧ t.answer = toBytes 4 (regView s p (off.toNat % 4096)) ∧ t.mem = s.mem) ∧
      (off.toNat % 4 ≠ 0 → ∃ t, exec (.regRead off) s = .next t ∧ t.answer = List.replicate 4 255 ∧ t.regs = s.regs) ∧
      (off.toNat = pageBase .thmH + thm_THROTTLE_C → busy s .thmH = false → answers s .thmH = true → 60 ≤ v.toNat → v.toNat ≤ 100 →
        ∃ t, exec (.regWrite off v true) s = .next t ∧ rd t .thmH thm_THROTTLE_C = v.toNat ∧ t.mem = s.mem) ∧
      (∀ p, pageOf off.toNat = some p → smbPage p = false ∨ busy s p = true → ∃ t, exec (.regWrite off v true) s = .next t ∧ t.mem = s.mem ∧
        rd t (.kld 8) kld_SMB_REFUSED = min (rd s (.kld 8) kld_SMB_REFUSED + 1) 0xFFFFFFFF) ∧
      exec (.regWrite off v false) s = .next s ∧
      (∃ t, exec (.nodeConfig v true) s = .next t ∧ t.board.node = some (v.toNat % 2 ^ 30) ∧ t.mem = s.mem ∧
        rd t (.fld 16) fld_MODULE = rd s (.fld 16) fld_MODULE) ∧
      exec (.nodeConfig v false) s = .next s ∧
      (s.board.alert = 0 → ∃ t, exec .alertResponse s = .next t ∧ t.answer = []) ∧
      (s.board.alert ≠ 0 → s.board.slotId < 8 → ∃ t, exec .alertResponse s = .next t ∧ t.answer.length = 1 ∧
        bytesAt t.answer 0 1 / 2 = 0x58 + s.board.slotId ∧ t.board = s.board))

/-- The register window (R3 to R6, R397, R398, R404 to R410, R415, R422): reads, writes, the event registers, the vector map, the
AMAX slots, CORE_MHZ, an opcode that the page does not define, the end of a long operation, which no stack that calibrates holds
up (R223; that of CALIBRATE itself has its own statement), writes to a busy page, and that the pages of an unused slot take no
write of their event registers. A read is performed at once where no earlier request of the function waits. -/
def Obligations.RegisterWindow : Prop :=
  ∀ (s : State) (fn : Func) (off : BitVec 26) (v : W32) (p : Page), hears s fn = true → pageOf off.toNat = some p →
    let idle := (getFunc s fn).waits = []
    (∀ len (x : W64) full, wordAccess off.toNat len full = false →
      (∃ t, exec (.registerWrite fn off len x full) s = .next t ∧ t.mem = s.mem ∧
        rd t (.pcx fn) pcx_BAD_ACCESS = min (rd s (.pcx fn) pcx_BAD_ACCESS + 1) 0xFFFFFFFF) ∧
      (idle → ∃ t, exec (.rcRead fn off len full) s = .next t ∧ t.answer = List.replicate len 255 ∧
        rd t (.pcx fn) pcx_BAD_ACCESS = min (rd s (.pcx fn) pcx_BAD_ACCESS + 1) 0xFFFFFFFF)) ∧
    (idle → off.toNat % 4 = 0 → off.toNat < msixTable → owns s fn p = true → fn.val = 0 ∨ layoutRuns s = false → answers s p = true →
      ∃ t, exec (.rcRead fn off 4 true) s = .next t ∧ t.answer = toBytes 4 (regView s p (off.toNat % 4096)) ∧ t.mem = s.mem ∧
        ((∀ r, rowAt p (off.toNat % 4096) = some r → r.acc ≠ .rc) → t.regs = s.regs) ∧
        (∀ r, rowAt p (off.toNat % 4096) = some r → r.acc = .rc → rd t p (off.toNat % 4096) = 0)) ∧
    (∀ d n, p = .pgt d → n < 8 → Admitted s fn p → off.toNat = pageBase p + hARG + 4 * n →
      ∀ x : W64, ∃ t, exec (.registerWrite fn off 4 x true) s = .next t ∧ arg t p n = x.toNat % 2 ^ 32 ∧ t.mem = s.mem ∧
        ∀ m, m ≠ n → arg t p m = arg s p m) ∧
    (busy s p = true → off.toNat < msixTable → off.toNat % 4 = 0 → owns s fn p = true → fn.val = 0 ∨ layoutRuns s = false → answers s p = true →
      ∀ x : W64, ∃ t, exec (.registerWrite fn off 4 x true) s = .next t ∧ t.mem = s.mem ∧
        rd t .hub hub_REJECT_COUNT = min (rd s .hub hub_REJECT_COUNT + 1) 0xFFFFFFFF ∧
        rd t .hub hub_REJECT_LAST = off.toNat + 2 ^ 26 * fn) ∧
    (Admitted s fn p → spare s p = true → exec (.evtStatusWrite fn off v) s = .next s ∧ exec (.evtEnableWrite fn off v) s = .next s ∧
      exec (.evtForce fn off v) s = .next s) ∧
    (Admitted s fn p → spare s p = false → (∀ d i, p ≠ .wkc d i) →
      (∃ t, exec (.evtStatusWrite fn off v) s = .next t ∧ rd t p hEVT = rd s p hEVT - (rd s p hEVT &&& v.toNat) ∧ t.mem = s.mem) ∧
      (∃ t, exec (.evtEnableWrite fn off v) s = .next t ∧ rd t p hENABLE = v.toNat &&& evtOf p ∧ t.mem = s.mem) ∧
      (∃ t, exec (.evtForce fn off v) s = .next t ∧ rd t p hEVT = (rd s p hEVT ||| (v.toNat &&& evtOf p)) ∧ t.mem = s.mem) ∧
      (∀ (op : BitVec 8) (tag : BitVec 16), (opcodes s p).contains op.toNat = false → cmdActive s p = false →
        ∃ t, exec (.undefinedOpcode fn off op tag) s = .next t ∧ t.mem = s.mem ∧ rd t p hRESULT = 0x14 + 65536 * tag.toNat +
          256 * (match p with
            | .pgt d => if homeDie s (slotOf s d) ≠ d then 1 else if pgtEnabled s (slotOf s d) = true then 0 else 9
            | _ => 0))) ∧
    (∀ (i : Func) (n : Fin 128), Admitted s fn (.pcx i) → ∃ t, exec (.vmapWrite fn i n v) s = .next t ∧ t.mem = s.mem ∧
      ∀ h < 2, vmapEntry t i (2 * n + h) =
        if ownsSrc s i (2 * n + h) = true ∧ fld v.toNat (16 * h) 11 < msixEntries i
        then fld v.toNat (16 * h) 16 &&& 0x87FF else vmapEntry s i (2 * n + h)) ∧
    (∀ (c : CoreId) (n : Fin 16), Admitted s fn (corPage (cid c)) → ∃ t, exec (.amaxWrite fn c n v) s = .next t ∧
      rd t (corPage (cid c)) (cor_AMAX_n + 4 * n) = v.toNat ∧ t.mem = s.mem ∧ t.cores = s.cores) ∧
    (Admitted s fn .pwr →
      let m := v.toNat % 2048
      let can := (∀ k < layoutN s, quiet s k = true) ∧ (∀ e ∈ s.cmds, e.2.long = false) ∧ 600 ≤ m ∧ m ≤ 1000 ∧ m % 25 = 0
      (can → ∃ t, exec (.coreMhzWrite fn v) s = .next t ∧ rd t .pwr pwr_CORE_MHZ = m) ∧
      (¬ can → exec (.coreMhzWrite fn v) s = .next s)) ∧
    ∀ c, tfind s.cmds (pageBase p) = some c → c.long = true →
      (c.ready = true → stalledOp s p = false → (∀ d, p ≠ .mem d) → ∃ t, exec (.longOperationEnd off) s = .next t ∧ busy t p = false ∧ rd t p hRESULT = c.result % 2 ^ 32 ∧
        rd t p hEVT = (rd s p hEVT ||| (c.evt &&& evtOf p)) ∧ t.mem = s.mem) ∧
      (c.ready = false ∨ stalledOp s p = true → exec (.longOperationEnd off) s = .next s)

/-- The memory window (R381, R416 to R418): a read answers the bytes, without EP, a write changes exactly its own, and an access
that cannot be served is counted and changes no memory, a read being answered with all ones, on the WIP page of each die too
where a wipe runs; a write that meets a page under COW waits, and the function's next request waits behind it (that a register
write does not wait behind it is the model's choice, log entry 23). Stated of a range in one uncoded page of a stack, without
error. -/
def Obligations.MemoryWindow : Prop :=
  ∀ (s : State) (fn : Func) (off : BitVec 38), hears s fn = true → (getFunc s fn).waits = [] →
    let va := windowVa s fn off.toNat
    (∀ k A, windowSlot s fn = some k → (∀ d ∈ diesOf s k, busy s (.wip d) = false) → s.synd = [] →
      (∀ n, FlatAt s k va n false A → ∃ t, exec (.memoryWindowRead fn off n) s = .next t ∧ t.answer = memRead s A n ∧ t.ep = false ∧ t.mem = s.mem) ∧
      (∀ bs : List Byte, s.hard = [] → FlatAt s k va bs.length true A → ∃ t, exec (.memoryWindowWrite fn off bs) s = .next t ∧
        OnlyBytes s t A bs.length ∧ ∀ i < bs.length, rdByte t (A + i) = bs.getD i 0)) ∧
    (∀ k e, windowSlot s fn = some k → (∀ d ∈ diesOf s k, busy s (.wip d) = false) → pteOf s k (va / pageSize) = e → pteTier e = 1 →
      (∀ c, look s k c (va / pageSize) true false = .cow) → ∀ bs : List Byte, 0 < bs.length → va % pageSize + bs.length ≤ pageSize →
      ∃ t, exec (.memoryWindowWrite fn off bs) s = .next t ∧ t.mem = s.mem ∧ (getFunc t fn).waits = [.memWrite k va bs] ∧
        ∀ n, ∃ u, exec (.memoryWindowRead fn off n) t = .next u ∧ u.mem = s.mem ∧
          (getFunc u fn).waits = [.memWrite k va bs, .memRead off.toNat n]) ∧
    (∀ k, windowSlot s fn = some k → ∀ d ∈ diesOf s k, busy s (.wip d) = true →
      let counts := fun (t : State) => t.mem = s.mem ∧
        rd t (.pcx fn) pcx_MW_REFUSED = min (rd s (.pcx fn) pcx_MW_REFUSED + 1) 0xFFFFFFFF ∧
        rd t (.wip d) wip_REFUSED = min (rd s (.wip d) wip_REFUSED + 1) 0xFFFFFFFF
      (∀ n, ∃ t, exec (.memoryWindowRead fn off n) s = .next t ∧ t.answer = List.replicate n 255 ∧ counts t) ∧
      ∀ bs : List Byte, ∃ t, exec (.memoryWindowWrite fn off bs) s = .next t ∧ counts t) ∧
    (windowSlot s fn = none →
      (∀ n, ∃ t, exec (.memoryWindowRead fn off n) s = .next t ∧ t.answer = List.replicate n 255 ∧ t.mem = s.mem ∧
        rd t (.pcx fn) pcx_MW_REFUSED = min (rd s (.pcx fn) pcx_MW_REFUSED + 1) 0xFFFFFFFF) ∧
      ∀ bs : List Byte, ∃ t, exec (.memoryWindowWrite fn off bs) s = .next t ∧ t.mem = s.mem ∧
        rd t (.pcx fn) pcx_MW_REFUSED = min (rd s (.pcx fn) pcx_MW_REFUSED + 1) 0xFFFFFFFF)

/-! ## The whole machine -/

/-- What reset leaves (R14, R155, R251, R381, R420): one partition of eight dies, every generator STOPPED with the tick registers at
their reset values, every tract with slot n on its n-th local site and the last as the reserve, nothing pending, no wipe READY.
The unrepaired part is the model's choice (log entry 7), as is empty memory's one form (log entry 2). -/
def Obligations.ResetState : Prop :=
  let s := State.reset
  layoutN s = 1 ∧ diesOf s 0 = List.range 8 ∧ homeDie s 0 = 0 ∧ (∀ k < 8, slotUsed s k = (k == 0)) ∧
  (∀ k < 8, phase s k = 0 ∧ epochOf s k = 0 ∧ rd s (.tckG k) tck_TICK_LEN = 4096 ∧ rd s (.tckG k) tck_STRETCH_LIMIT = 0 ∧
    rd s (.tckG k) tck_ALIGN = 0x40 ∧ rd s (.tckG k) tck_GUARD = 0x80 ∧ rd s (.tckG k) tck_WINDOW = 0 ∧ rd s (.tckG k) tck_DEPTH = 0) ∧
  (∀ d < 8, ∀ t < 24, (∀ n < 15, siteOf s d (15 * t + n) = some (siteAt t n)) ∧ roleOf s d (siteAt t 15) = 1 ∧
    ∀ n < 15, roleOf s d (siteAt t n) = 0) ∧
  (∀ w < 9, busy s (wipPage w) = false ∧ (rd s (wipPage w) wip_STATE).testBit 2 = false) ∧
  rd s .hub hub_STATE = 0 ∧ rd s .hub hub_PART = 0x417200 ∧ rd s .hub hub_REJECT_COUNT = 0 ∧
  hubUp s = true ∧ s.pending = [] ∧ QueueWf s = true ∧ Memory.wf s.mem = true

/-- A virtual function cannot act on what it does not own (R398, R419): a command written to a page of another owner, or to any page
while LAYOUT runs, changes nothing but the function's own PCX page, where it is counted; a read answers zero; a function that
does not exist, or is in D3hot, commands nothing (R393 to R395). So does an unassigned offset, which the PF may read and write
without effect. -/
def Obligations.VirtualFunctionIsolation : Prop :=
  (∀ (s : State) (c : Instr) (fn : Func) (p : Page), commandPage c = some (fn, p) → hears s fn = true →
    owns s fn p = false ∨ (fn.val ≠ 0 ∧ layoutRuns s = true) → ∃ t, exec c s = .next t ∧ t.pending = s.pending ∧ Untouched s t fn) ∧
  (∀ (s : State) (c : Instr) (fn : Func) (p : Page), commandPage c = some (fn, p) → hears s fn = false → exec c s = .next s) ∧
  (∀ (s : State) (fn : Func) (off : BitVec 26) (p : Page), hears s fn = true → (getFunc s fn).waits = [] → off.toNat % 4 = 0 → off.toNat < msixTable →
    pageOf off.toNat = some p → owns s fn p = false ∨ (fn.val ≠ 0 ∧ layoutRuns s = true) →
    ∃ t, exec (.rcRead fn off 4 true) s = .next t ∧ t.answer = [0, 0, 0, 0] ∧ Untouched s t fn) ∧
  (∀ (s : State) (fn : Func) (off : BitVec 26), hears s fn = true → (getFunc s fn).waits = [] → off.toNat % 4 = 0 → pageOf off.toNat = none →
    off.toNat < msixTable ∨ (msixTable + 16 * msixEntries fn ≤ off.toNat ∧ off.toNat < msixPba) ∨ msixPba + msixEntries fn / 8 ≤ off.toNat →
    (∃ t, exec (.rcRead fn off 4 true) s = .next t ∧ t.answer = [0, 0, 0, 0] ∧
      (fn.val = 0 → t = { s with answer := [0, 0, 0, 0] }) ∧ (fn.val ≠ 0 → Untouched s t fn)) ∧
    ∀ x : W64, ∃ t, exec (.registerWrite fn off 4 x true) s = .next t ∧ (fn.val = 0 → t = s) ∧ (fn.val ≠ 0 → Untouched s t fn)) ∧
  ∀ (s : State) (off : BitVec 26) (p : Page), pageOf off.toNat = some p → owns s 0 p = true ∧ fld (regView s p 4) 24 4 = ownerOf s p ∧
    ∀ fn : Func, fn.val ≠ 0 → (owns s fn p = true ↔ fld (regView s p 4) 24 4 = fn.val - 1)

/-- Memory keeps its one form: whatever command a step takes, addresses stay strictly rising and no listed byte is zero (the form is
the model's own, log entry 2). -/
def Obligations.MemoryStaysCanonical : Prop :=
  ∀ (s t : State), Memory.wf s.mem = true → step s = .next t → Memory.wf t.mem = true

/-- No command stops the module (R405, R419): every command of the table completes, from every state and with every operand, so
every step answers a next state with the rest of the queue, every run is safe, a queue of n commands has been taken after n
steps, and the module then idles (log entry 1). -/
def Obligations.EveryRunDrains : Prop :=
  (∀ (s : State) (c : Instr), ∃ t, exec c s = .next t ∧ t.pending = s.pending) ∧
  (∀ (s : State) (k : Nat), SafeFor k s) ∧
  (∀ s : State, ∃ t, Sys2Proof.core.run s.pending.length s = .next t ∧ t.pending = [] ∧ step t = .next t) ∧
  ∀ (s t : State), QueueWf s = true → step s = .next t → QueueWf t = true ∧ t.pending = s.pending.drop 1
end

