-- ==== Sys2Proof/Laws/Code.lean ====
section
/-! SUPPORT. Laws/Code.lean: the code of R362 corrects every single-bit error: its 72 columns are distinct and of odd weight. -/
namespace Sys2Proof.Machine

theorem oddBytes_facts : 64 ≤ oddBytes.length ∧ oddBytes.Nodup ∧ ∀ x ∈ oddBytes, weight x % 2 = 1 ∧ 1 < weight x := by
  have hn : ((List.range 256).map (BitVec.ofNat 8)).Nodup := by
    refine List.pairwise_map.mpr (List.pairwise_lt_range.imp_of_mem fun {x y} hx hy h e => ?_)
    have e := congrArg BitVec.toNat e
    simp only [BitVec.toNat_ofNat] at e
    have := List.mem_range.mp hx
    have := List.mem_range.mp hy
    omega
  exact ⟨by decide +kernel, hn.filter _, fun x hx => by simpa using (List.mem_filter.mp hx).2⟩

theorem pickColumns_facts (m i : Nat) (rest : List Byte) (hm : m ≤ rest.length) (hn : rest.Nodup) :
    (pickColumns m i rest).length = m ∧ (pickColumns m i rest).Nodup ∧ ∀ x ∈ pickColumns m i rest, x ∈ rest := by
  induction m generalizing i rest with
  | zero => simp [pickColumns]
  | succ m ih =>
    have hc : rest.getD (Config.columnChoice i % rest.length) 0 ∈ rest := by
      have hl : Config.columnChoice i % rest.length < rest.length := Nat.mod_lt _ (by omega)
      rw [List.getD_eq_getElem?_getD, List.getElem?_eq_getElem hl]
      exact List.getElem_mem hl
    have h := ih (i + 1) _ (by rw [List.length_erase_of_mem hc]; omega) (hn.erase (rest.getD (Config.columnChoice i % rest.length) 0))
    refine ⟨congrArg (· + 1) h.1, List.nodup_cons.mpr ⟨fun hx => ?_, h.2.1⟩, fun x hx => ?_⟩
    · exact hn.not_mem_erase (h.2.2 _ hx)
    · rcases List.mem_cons.mp hx with e | e
      · rw [e]; exact hc
      · exact List.mem_of_mem_erase (h.2.2 x e)

theorem dataColumns_facts : (pickColumns 64 0 oddBytes).length = 64 ∧ (pickColumns 64 0 oddBytes).Nodup ∧
    ∀ x ∈ pickColumns 64 0 oddBytes, weight x % 2 = 1 ∧ 1 < weight x :=
  have h := pickColumns_facts 64 0 oddBytes oddBytes_facts.1 oddBytes_facts.2.1
  ⟨h.1, h.2.1, fun x hx => oddBytes_facts.2.2 x (h.2.2 x hx)⟩

theorem column_data (n : Nat) (h : n < 64) : ∃ hl : n < (pickColumns 64 0 oddBytes).length, column n = (pickColumns 64 0 oddBytes)[n] := by
  have hl : n < (pickColumns 64 0 oddBytes).length := by rw [dataColumns_facts.1]; exact h
  exact ⟨hl, by rw [column, if_pos h, List.getD_eq_getElem?_getD, List.getElem?_eq_getElem hl]; rfl⟩

theorem column_check (n : Nat) (h : ¬ n < 64) (h2 : n < 72) : weight (column n) = 1 ∧ column n = BitVec.ofNat 8 (2 ^ (n - 64)) := by
  have hc : column n = BitVec.ofNat 8 (2 ^ (n - 64)) := by rw [column, if_neg h]
  refine ⟨?_, hc⟩
  rw [hc]
  have : ∀ j < 8, weight (BitVec.ofNat 8 (2 ^ j)) = 1 := by decide
  exact this _ (by omega)

theorem column_inj (n m : Nat) (hn : n < 72) (hm : m < 72) (h : column n = column m) : n = m := by
  by_cases a : n < 64 <;> by_cases b : m < 64
  · obtain ⟨ha, ea⟩ := column_data n a
    obtain ⟨hb, eb⟩ := column_data m b
    rw [ea, eb] at h
    exact (List.getElem_inj dataColumns_facts.2.1).mp h
  · obtain ⟨ha, ea⟩ := column_data n a
    have hw := (dataColumns_facts.2.2 _ (List.getElem_mem ha)).2
    rw [← ea, h, (column_check m b hm).1] at hw
    exact absurd hw (by decide)
  · obtain ⟨hb, eb⟩ := column_data m b
    have hw := (dataColumns_facts.2.2 _ (List.getElem_mem hb)).2
    rw [← eb, ← h, (column_check n a hn).1] at hw
    exact absurd hw (by decide)
  · rw [(column_check n a hn).2, (column_check m b hm).2] at h
    have : ∀ i < 8, ∀ j < 8, BitVec.ofNat 8 (2 ^ i) = BitVec.ofNat 8 (2 ^ j) → i = j := by decide
    have := this (n - 64) (by omega) (m - 64) (by omega) h
    omega

theorem column_odd (n : Nat) (h : n < 72) : weight (column n) % 2 = 1 := by
  by_cases a : n < 64
  · obtain ⟨ha, ea⟩ := column_data n a
    rw [ea]
    exact (dataColumns_facts.2.2 _ (List.getElem_mem ha)).1
  · rw [(column_check n a h).1]

/-- R362: the code corrects any single-bit error in the 72 stored bits. -/
theorem syndBit_column (n : Nat) (h : n < 72) : syndBit (column n) = some n := by
  rw [syndBit, if_pos (column_odd n h), List.find?_eq_some_iff_getElem]
  refine ⟨beq_self_eq_true _, n, by rw [List.length_range]; exact h, List.getElem_range _, fun j hj => ?_⟩
  rw [List.getElem_range, Bool.not_eq_true', beq_eq_false_iff_ne]
  exact fun e => absurd (column_inj _ _ (by omega) h e) (by omega)

end Sys2Proof.Machine
end

