-- ==== Sys2Proof/Laws/Tables.lean ====
section
/-! SUPPORT. Laws/Tables.lean: reading after writing a table, and the canonical form of tables. -/
namespace Sys2Proof.Laws
open Sys2Proof.Machine

variable {α : Type}

theorem tfind_tdel_same (t : Tab α) (k : Nat) : tfind (tdel t k) k = none := by
  match t with
  | [] => rfl
  | (a, v) :: t =>
    have ih := tfind_tdel_same t k
    by_cases h : k = a <;> simp [tdel, tfind, h] <;> simpa [h] using ih

theorem tfind_tdel_ne (t : Tab α) {k j : Nat} (h : j ≠ k) : tfind (tdel t k) j = tfind t j := by
  match t with
  | [] => rfl
  | (a, v) :: t =>
    have ih := tfind_tdel_ne t h
    by_cases hk : k = a
    · subst hk; simpa [tdel, tfind, h] using ih
    · by_cases hj : j = a <;> simp [tdel, tfind, hk, hj]; simpa using ih

theorem tfind_tins_same (t : Tab α) (k : Nat) (x : α) (h : tfind t k = none) : tfind (tins t k x) k = some x := by
  match t, h with
  | [], h => simp [tins, tfind]
  | (a, v) :: t, h =>
    have ih := tfind_tins_same t k x
    by_cases hk : k = a
    · simp [tfind, hk] at h
    · simp only [tfind, hk, if_false] at h
      by_cases hl : k < a <;> simp [tins, tfind, hl, hk, ih h]

theorem tfind_tins_ne (t : Tab α) {k j : Nat} (x : α) (h : j ≠ k) : tfind (tins t k x) j = tfind t j := by
  match t with
  | [] => simp [tins, tfind, h]
  | (a, v) :: t =>
    have ih := tfind_tins_ne t x h
    by_cases hl : k < a
    · simp [tins, tfind, hl, h]
    · by_cases hj : j = a <;> simp [tins, tfind, hl, hj, ih]

theorem tfind_tput_same (t : Tab α) (k : Nat) (x : α) : tfind (tput t k x) k = some x :=
  tfind_tins_same _ _ _ (tfind_tdel_same t k)

theorem tfind_tput_ne (t : Tab α) {k j : Nat} (x : α) (h : j ≠ k) : tfind (tput t k x) j = tfind t j := by
  rw [tput, tfind_tins_ne _ x h, tfind_tdel_ne t h]

/-- Reading the key just listed. -/
@[simp] theorem tget_tput_same (d : α) (t : Tab α) (k : Nat) (x : α) : tget d (tput t k x) k = x := by
  simp [tget, tfind_tput_same]

theorem tget_tput_ne (d : α) (t : Tab α) {k j : Nat} (x : α) (h : j ≠ k) : tget d (tput t k x) j = tget d t j := by
  simp [tget, tfind_tput_ne t x h]

@[simp] theorem tget_nil (d : α) (k : Nat) : tget d [] k = d := rfl

/-- The first key of a table in canonical form is not above a bound that every key is not above. -/
def tlo : Nat → Tab α → Bool
  | _, [] => true
  | n, (k, _) :: _ => decide (n ≤ k)

theorem tlo_mono {n m : Nat} (h : m ≤ n) {t : Tab α} (ht : tlo n t = true) : tlo m t = true := by
  match t, ht with
  | [], ht => rfl
  | (a, b) :: t, ht =>
    simp [tlo] at *; omega

theorem tlo_tins (n k : Nat) (x : α) (t : Tab α) (hn : n ≤ k) (h : tlo n t = true) : tlo n (tins t k x) = true := by
  match t, h with
  | [], h => simp [tins, tlo, hn]
  | (a, v) :: t, h =>
    simp only [tlo, decide_eq_true_eq] at h
    by_cases hl : k < a <;> simp [tins, hl, tlo, hn, h]

theorem tfind_tkeep (p : Nat → Bool) (t : Tab α) (k : Nat) :
    tfind (tkeep p t) k = if p k then tfind t k else none := by
  match t with
  | [] => simp [tkeep, tfind]
  | (a, v) :: t =>
    have ih := tfind_tkeep p t k
    by_cases hp : p a = true
    · have he : tkeep p ((a, v) :: t) = (a, v) :: tkeep p t := by simp [tkeep, hp]
      rw [he]
      by_cases hk : k = a
      · simp [tfind, hk, hp]
      · simp [tfind, hk, ih]
    · have he : tkeep p ((a, v) :: t) = tkeep p t := by simp [tkeep, hp]
      rw [he, ih]
      by_cases hk : k = a
      · simp [hk, hp]
      · simp [tfind, hk]

/-- Reading a table of which some keys were kept. -/
theorem tget_tkeep (d : α) (p : Nat → Bool) (t : Tab α) (k : Nat) :
    tget d (tkeep p t) k = if p k then tget d t k else d := by
  unfold tget
  rw [tfind_tkeep]
  by_cases h : p k = true <;> simp [h]

variable [DecidableEq α]

/-- Reading the key just written. -/
@[simp] theorem tget_tset_same (d : α) (t : Tab α) (k : Nat) (x : α) : tget d (tset d t k x) k = x := by
  by_cases h : x = d
  · simp [tset, h, tget, tfind_tdel_same]
  · simp [tset, h]

/-- Reading another key than the one written. -/
theorem tget_tset_ne (d : α) (t : Tab α) {k j : Nat} (x : α) (h : j ≠ k) : tget d (tset d t k x) j = tget d t j := by
  by_cases hx : x = d
  · simp [tset, hx, tget, tfind_tdel_ne t h]
  · rw [tset, if_neg hx, tget_tput_ne d t x h]

theorem twf_cons (d : Nat → α) (k : Nat) (v : α) (t : Tab α) :
    twf d ((k, v) :: t) = (decide (v ≠ d k) && tlo (k + 1) t && twf d t) := by
  match t with
  | [] => simp only [twf, tlo, Bool.and_true]
  | (a, b) :: t =>
    rfl

theorem tlo_tdel {d : Nat → α} (n k : Nat) (t : Tab α) (hl : tlo n t = true) (h : twf d t = true) :
    tlo n (tdel t k) = true := by
  match t, hl, h with
  | [], hl, h => rfl
  | (a, v) :: t, hl, h =>
    have ih := fun m => tlo_tdel (d := d) m k t
    rw [twf_cons] at h
    simp only [Bool.and_eq_true] at h
    simp only [tlo, decide_eq_true_eq] at hl
    by_cases hk : k = a
    · simp only [tdel, hk, if_true]
      rw [← hk]
      exact ih n (tlo_mono (by omega) h.1.2) h.2
    · simp [tdel, hk, tlo, hl]

/-- Removing a key keeps the canonical form. -/
theorem twf_tdel {d : Nat → α} (k : Nat) (t : Tab α) (h : twf d t = true) : twf d (tdel t k) = true := by
  match t, h with
  | [], h => rfl
  | (a, v) :: t, h =>
    have ih := twf_tdel (d := d) k t
    have h' := h
    rw [twf_cons] at h'
    simp only [Bool.and_eq_true] at h'
    by_cases hk : k = a
    · simp only [tdel, hk, if_true]; rw [← hk]; exact ih h'.2
    · simp only [tdel, hk, if_false]
      rw [twf_cons]
      simp only [Bool.and_eq_true]
      exact ⟨⟨h'.1.1, tlo_tdel _ _ _ h'.1.2 h'.2⟩, ih h'.2⟩

theorem twf_tins {d : Nat → α} (k : Nat) (x : α) (t : Tab α) (hx : x ≠ d k) (hk : tfind t k = none)
    (h : twf d t = true) : twf d (tins t k x) = true := by
  match t, hk, h with
  | [], hk, h => simp [tins, twf, hx]
  | (a, v) :: t, hk, h =>
    have ih := twf_tins (d := d) k x t hx
    have h' := h
    rw [twf_cons] at h'
    simp only [Bool.and_eq_true] at h'
    have hka : k ≠ a := by intro he; simp [tfind, he] at hk
    simp only [tfind, hka, if_false] at hk
    by_cases hl : k < a
    · simp only [tins, hl, if_true]
      rw [twf_cons]
      simp only [Bool.and_eq_true]
      exact ⟨⟨by simp [hx], by simp [tlo]; omega⟩, h⟩
    · simp only [tins, hl, if_false]
      rw [twf_cons]
      simp only [Bool.and_eq_true]
      exact ⟨⟨h'.1.1, tlo_tins _ _ _ _ (by omega) h'.1.2⟩, ih hk h'.2⟩

/-- Writing a value keeps the canonical form, where every unlisted key reads as one value. -/
theorem twf_tset (d : α) (t : Tab α) (k : Nat) (x : α) (h : twf (fun _ => d) t = true) :
    twf (fun _ => d) (tset d t k x) = true := by
  by_cases hx : x = d
  · simpa [tset, hx] using twf_tdel k t h
  · simpa [tset, hx, tput] using twf_tins k x _ hx (tfind_tdel_same t k) (twf_tdel k t h)

/-- The same where the value of an unlisted key depends on the key. -/
theorem twf_tset_at (d : Nat → α) (t : Tab α) (k : Nat) (x : α) (h : twf d t = true) :
    twf d (tset (d k) t k x) = true := by
  by_cases hx : x = d k
  · simpa [tset, hx] using twf_tdel k t h
  · simpa [tset, hx, tput] using twf_tins k x _ hx (tfind_tdel_same t k) (twf_tdel k t h)

theorem tlo_tkeep {d : Nat → α} (n : Nat) (p : Nat → Bool) (t : Tab α) (hl : tlo n t = true) (h : twf d t = true) :
    tlo n (tkeep p t) = true := by
  match t, hl, h with
  | [], hl, h => rfl
  | (a, v) :: t, hl, h =>
    have ih := fun m => tlo_tkeep (d := d) m p t
    rw [twf_cons] at h
    simp only [Bool.and_eq_true] at h
    simp only [tlo, decide_eq_true_eq] at hl
    by_cases hp : p a = true
    · simp [tkeep, hp, tlo, hl]
    · have := ih n (tlo_mono (by omega) h.1.2) h.2
      simpa [tkeep, hp] using this

/-- Keeping some keys keeps the canonical form. -/
theorem twf_tkeep {d : Nat → α} (p : Nat → Bool) (t : Tab α) (h : twf d t = true) : twf d (tkeep p t) = true := by
  match t, h with
  | [], h => rfl
  | (a, v) :: t, h =>
    have ih := twf_tkeep (d := d) p t
    have h' := h
    rw [twf_cons] at h'
    simp only [Bool.and_eq_true] at h'
    by_cases hp : p a = true
    · have he : tkeep p ((a, v) :: t) = (a, v) :: tkeep p t := by simp [tkeep, hp]
      rw [he, twf_cons]
      simp only [Bool.and_eq_true]
      exact ⟨⟨h'.1.1, tlo_tkeep _ _ _ h'.1.2 h'.2⟩, ih h'.2⟩
    · have he : tkeep p ((a, v) :: t) = tkeep p t := by simp [tkeep, hp]
      rw [he]; exact ih h'.2

end Sys2Proof.Laws
end

