-- ==== Sys2Proof/Laws/State.lean ====
section
/-! SUPPORT. Laws/State.lean: what each update of a part of the state leaves of every field, and what a part reads after an
update of it. -/
namespace Sys2Proof.Laws
open Sys2Proof.Machine

@[simp] theorem setRegAt_pending (s : State) (o v : Nat) : (setRegAt s o v).pending = s.pending := rfl
@[simp] theorem setRegAt_cores (s : State) (o v : Nat) : (setRegAt s o v).cores = s.cores := rfl
@[simp] theorem setRegAt_dies (s : State) (o v : Nat) : (setRegAt s o v).dies = s.dies := rfl
@[simp] theorem setRegAt_slots (s : State) (o v : Nat) : (setRegAt s o v).slots = s.slots := rfl
@[simp] theorem setRegAt_mem (s : State) (o v : Nat) : (setRegAt s o v).mem = s.mem := rfl
@[simp] theorem setRegAt_synd (s : State) (o v : Nat) : (setRegAt s o v).synd = s.synd := rfl
@[simp] theorem setRegAt_net (s : State) (o v : Nat) : (setRegAt s o v).net = s.net := rfl
@[simp] theorem setRegAt_ports (s : State) (o v : Nat) : (setRegAt s o v).ports = s.ports := rfl
@[simp] theorem setRegAt_msgs (s : State) (o v : Nat) : (setRegAt s o v).msgs = s.msgs := rfl
@[simp] theorem setRegAt_funcs (s : State) (o v : Nat) : (setRegAt s o v).funcs = s.funcs := rfl
@[simp] theorem setRegAt_vfs (s : State) (o v : Nat) : (setRegAt s o v).vfs = s.vfs := rfl
@[simp] theorem setRegAt_vfOn (s : State) (o v : Nat) : (setRegAt s o v).vfOn = s.vfOn := rfl
@[simp] theorem setRegAt_cmds (s : State) (o v : Nat) : (setRegAt s o v).cmds = s.cmds := rfl
@[simp] theorem setRegAt_logN (s : State) (o v : Nat) : (setRegAt s o v).logN = s.logN := rfl
@[simp] theorem setRegAt_masks (s : State) (o v : Nat) : (setRegAt s o v).masks = s.masks := rfl
@[simp] theorem setRegAt_repairs (s : State) (o v : Nat) : (setRegAt s o v).repairs = s.repairs := rfl
@[simp] theorem setRegAt_corr (s : State) (o v : Nat) : (setRegAt s o v).corr = s.corr := rfl
@[simp] theorem setRegAt_passes (s : State) (o v : Nat) : (setRegAt s o v).passes = s.passes := rfl
@[simp] theorem setRegAt_board (s : State) (o v : Nat) : (setRegAt s o v).board = s.board := rfl
@[simp] theorem setRegAt_hard (s : State) (o v : Nat) : (setRegAt s o v).hard = s.hard := rfl
@[simp] theorem setRegAt_hubErr (s : State) (o v : Nat) : (setRegAt s o v).hubErr = s.hubErr := rfl
@[simp] theorem setRegAt_answer (s : State) (o v : Nat) : (setRegAt s o v).answer = s.answer := rfl
@[simp] theorem setRegAt_ep (s : State) (o v : Nat) : (setRegAt s o v).ep = s.ep := rfl
@[simp] theorem setRegAt_wipes (s : State) (o v : Nat) : (setRegAt s o v).wipes = s.wipes := rfl
@[simp] theorem setRegAt_fuses (s : State) (o v : Nat) : (setRegAt s o v).fuses = s.fuses := rfl
@[simp] theorem setRegAt_free (s : State) (o v : Nat) : (setRegAt s o v).free = s.free := rfl

@[simp] theorem wr_pending (s : State) (p : Page) (o v : Nat) : (wr s p o v).pending = s.pending := rfl
@[simp] theorem wr_cores (s : State) (p : Page) (o v : Nat) : (wr s p o v).cores = s.cores := rfl
@[simp] theorem wr_dies (s : State) (p : Page) (o v : Nat) : (wr s p o v).dies = s.dies := rfl
@[simp] theorem wr_slots (s : State) (p : Page) (o v : Nat) : (wr s p o v).slots = s.slots := rfl
@[simp] theorem wr_mem (s : State) (p : Page) (o v : Nat) : (wr s p o v).mem = s.mem := rfl
@[simp] theorem wr_synd (s : State) (p : Page) (o v : Nat) : (wr s p o v).synd = s.synd := rfl
@[simp] theorem wr_net (s : State) (p : Page) (o v : Nat) : (wr s p o v).net = s.net := rfl
@[simp] theorem wr_ports (s : State) (p : Page) (o v : Nat) : (wr s p o v).ports = s.ports := rfl
@[simp] theorem wr_msgs (s : State) (p : Page) (o v : Nat) : (wr s p o v).msgs = s.msgs := rfl
@[simp] theorem wr_funcs (s : State) (p : Page) (o v : Nat) : (wr s p o v).funcs = s.funcs := rfl
@[simp] theorem wr_vfs (s : State) (p : Page) (o v : Nat) : (wr s p o v).vfs = s.vfs := rfl
@[simp] theorem wr_vfOn (s : State) (p : Page) (o v : Nat) : (wr s p o v).vfOn = s.vfOn := rfl
@[simp] theorem wr_cmds (s : State) (p : Page) (o v : Nat) : (wr s p o v).cmds = s.cmds := rfl
@[simp] theorem wr_logN (s : State) (p : Page) (o v : Nat) : (wr s p o v).logN = s.logN := rfl
@[simp] theorem wr_masks (s : State) (p : Page) (o v : Nat) : (wr s p o v).masks = s.masks := rfl
@[simp] theorem wr_repairs (s : State) (p : Page) (o v : Nat) : (wr s p o v).repairs = s.repairs := rfl
@[simp] theorem wr_corr (s : State) (p : Page) (o v : Nat) : (wr s p o v).corr = s.corr := rfl
@[simp] theorem wr_passes (s : State) (p : Page) (o v : Nat) : (wr s p o v).passes = s.passes := rfl
@[simp] theorem wr_board (s : State) (p : Page) (o v : Nat) : (wr s p o v).board = s.board := rfl
@[simp] theorem wr_hard (s : State) (p : Page) (o v : Nat) : (wr s p o v).hard = s.hard := rfl
@[simp] theorem wr_hubErr (s : State) (p : Page) (o v : Nat) : (wr s p o v).hubErr = s.hubErr := rfl
@[simp] theorem wr_answer (s : State) (p : Page) (o v : Nat) : (wr s p o v).answer = s.answer := rfl
@[simp] theorem wr_ep (s : State) (p : Page) (o v : Nat) : (wr s p o v).ep = s.ep := rfl
@[simp] theorem wr_wipes (s : State) (p : Page) (o v : Nat) : (wr s p o v).wipes = s.wipes := rfl
@[simp] theorem wr_fuses (s : State) (p : Page) (o v : Nat) : (wr s p o v).fuses = s.fuses := rfl
@[simp] theorem wr_free (s : State) (p : Page) (o v : Nat) : (wr s p o v).free = s.free := rfl

@[simp] theorem bump_pending (s : State) (p : Page) (o n : Nat) : (bump s p o n).pending = s.pending := rfl
@[simp] theorem bump_cores (s : State) (p : Page) (o n : Nat) : (bump s p o n).cores = s.cores := rfl
@[simp] theorem bump_dies (s : State) (p : Page) (o n : Nat) : (bump s p o n).dies = s.dies := rfl
@[simp] theorem bump_slots (s : State) (p : Page) (o n : Nat) : (bump s p o n).slots = s.slots := rfl
@[simp] theorem bump_mem (s : State) (p : Page) (o n : Nat) : (bump s p o n).mem = s.mem := rfl
@[simp] theorem bump_synd (s : State) (p : Page) (o n : Nat) : (bump s p o n).synd = s.synd := rfl
@[simp] theorem bump_net (s : State) (p : Page) (o n : Nat) : (bump s p o n).net = s.net := rfl
@[simp] theorem bump_ports (s : State) (p : Page) (o n : Nat) : (bump s p o n).ports = s.ports := rfl
@[simp] theorem bump_msgs (s : State) (p : Page) (o n : Nat) : (bump s p o n).msgs = s.msgs := rfl
@[simp] theorem bump_funcs (s : State) (p : Page) (o n : Nat) : (bump s p o n).funcs = s.funcs := rfl
@[simp] theorem bump_vfs (s : State) (p : Page) (o n : Nat) : (bump s p o n).vfs = s.vfs := rfl
@[simp] theorem bump_vfOn (s : State) (p : Page) (o n : Nat) : (bump s p o n).vfOn = s.vfOn := rfl
@[simp] theorem bump_cmds (s : State) (p : Page) (o n : Nat) : (bump s p o n).cmds = s.cmds := rfl
@[simp] theorem bump_logN (s : State) (p : Page) (o n : Nat) : (bump s p o n).logN = s.logN := rfl
@[simp] theorem bump_masks (s : State) (p : Page) (o n : Nat) : (bump s p o n).masks = s.masks := rfl
@[simp] theorem bump_repairs (s : State) (p : Page) (o n : Nat) : (bump s p o n).repairs = s.repairs := rfl
@[simp] theorem bump_corr (s : State) (p : Page) (o n : Nat) : (bump s p o n).corr = s.corr := rfl
@[simp] theorem bump_passes (s : State) (p : Page) (o n : Nat) : (bump s p o n).passes = s.passes := rfl
@[simp] theorem bump_board (s : State) (p : Page) (o n : Nat) : (bump s p o n).board = s.board := rfl
@[simp] theorem bump_hard (s : State) (p : Page) (o n : Nat) : (bump s p o n).hard = s.hard := rfl
@[simp] theorem bump_hubErr (s : State) (p : Page) (o n : Nat) : (bump s p o n).hubErr = s.hubErr := rfl
@[simp] theorem bump_answer (s : State) (p : Page) (o n : Nat) : (bump s p o n).answer = s.answer := rfl
@[simp] theorem bump_ep (s : State) (p : Page) (o n : Nat) : (bump s p o n).ep = s.ep := rfl
@[simp] theorem bump_wipes (s : State) (p : Page) (o n : Nat) : (bump s p o n).wipes = s.wipes := rfl
@[simp] theorem bump_fuses (s : State) (p : Page) (o n : Nat) : (bump s p o n).fuses = s.fuses := rfl
@[simp] theorem bump_free (s : State) (p : Page) (o n : Nat) : (bump s p o n).free = s.free := rfl

@[simp] theorem wrFld_pending (s : State) (p : Page) (o lo len v : Nat) : (wrFld s p o lo len v).pending = s.pending := rfl
@[simp] theorem wrFld_cores (s : State) (p : Page) (o lo len v : Nat) : (wrFld s p o lo len v).cores = s.cores := rfl
@[simp] theorem wrFld_dies (s : State) (p : Page) (o lo len v : Nat) : (wrFld s p o lo len v).dies = s.dies := rfl
@[simp] theorem wrFld_slots (s : State) (p : Page) (o lo len v : Nat) : (wrFld s p o lo len v).slots = s.slots := rfl
@[simp] theorem wrFld_mem (s : State) (p : Page) (o lo len v : Nat) : (wrFld s p o lo len v).mem = s.mem := rfl
@[simp] theorem wrFld_synd (s : State) (p : Page) (o lo len v : Nat) : (wrFld s p o lo len v).synd = s.synd := rfl
@[simp] theorem wrFld_net (s : State) (p : Page) (o lo len v : Nat) : (wrFld s p o lo len v).net = s.net := rfl
@[simp] theorem wrFld_ports (s : State) (p : Page) (o lo len v : Nat) : (wrFld s p o lo len v).ports = s.ports := rfl
@[simp] theorem wrFld_msgs (s : State) (p : Page) (o lo len v : Nat) : (wrFld s p o lo len v).msgs = s.msgs := rfl
@[simp] theorem wrFld_funcs (s : State) (p : Page) (o lo len v : Nat) : (wrFld s p o lo len v).funcs = s.funcs := rfl
@[simp] theorem wrFld_vfs (s : State) (p : Page) (o lo len v : Nat) : (wrFld s p o lo len v).vfs = s.vfs := rfl
@[simp] theorem wrFld_vfOn (s : State) (p : Page) (o lo len v : Nat) : (wrFld s p o lo len v).vfOn = s.vfOn := rfl
@[simp] theorem wrFld_cmds (s : State) (p : Page) (o lo len v : Nat) : (wrFld s p o lo len v).cmds = s.cmds := rfl
@[simp] theorem wrFld_logN (s : State) (p : Page) (o lo len v : Nat) : (wrFld s p o lo len v).logN = s.logN := rfl
@[simp] theorem wrFld_masks (s : State) (p : Page) (o lo len v : Nat) : (wrFld s p o lo len v).masks = s.masks := rfl
@[simp] theorem wrFld_repairs (s : State) (p : Page) (o lo len v : Nat) : (wrFld s p o lo len v).repairs = s.repairs := rfl
@[simp] theorem wrFld_corr (s : State) (p : Page) (o lo len v : Nat) : (wrFld s p o lo len v).corr = s.corr := rfl
@[simp] theorem wrFld_passes (s : State) (p : Page) (o lo len v : Nat) : (wrFld s p o lo len v).passes = s.passes := rfl
@[simp] theorem wrFld_board (s : State) (p : Page) (o lo len v : Nat) : (wrFld s p o lo len v).board = s.board := rfl
@[simp] theorem wrFld_hard (s : State) (p : Page) (o lo len v : Nat) : (wrFld s p o lo len v).hard = s.hard := rfl
@[simp] theorem wrFld_hubErr (s : State) (p : Page) (o lo len v : Nat) : (wrFld s p o lo len v).hubErr = s.hubErr := rfl
@[simp] theorem wrFld_answer (s : State) (p : Page) (o lo len v : Nat) : (wrFld s p o lo len v).answer = s.answer := rfl
@[simp] theorem wrFld_ep (s : State) (p : Page) (o lo len v : Nat) : (wrFld s p o lo len v).ep = s.ep := rfl
@[simp] theorem wrFld_wipes (s : State) (p : Page) (o lo len v : Nat) : (wrFld s p o lo len v).wipes = s.wipes := rfl
@[simp] theorem wrFld_fuses (s : State) (p : Page) (o lo len v : Nat) : (wrFld s p o lo len v).fuses = s.fuses := rfl
@[simp] theorem wrFld_free (s : State) (p : Page) (o lo len v : Nat) : (wrFld s p o lo len v).free = s.free := rfl

@[simp] theorem last_pending (s : State) (p : Page) (code : Nat) : (last s p code).pending = s.pending := rfl
@[simp] theorem last_cores (s : State) (p : Page) (code : Nat) : (last s p code).cores = s.cores := rfl
@[simp] theorem last_dies (s : State) (p : Page) (code : Nat) : (last s p code).dies = s.dies := rfl
@[simp] theorem last_slots (s : State) (p : Page) (code : Nat) : (last s p code).slots = s.slots := rfl
@[simp] theorem last_mem (s : State) (p : Page) (code : Nat) : (last s p code).mem = s.mem := rfl
@[simp] theorem last_synd (s : State) (p : Page) (code : Nat) : (last s p code).synd = s.synd := rfl
@[simp] theorem last_net (s : State) (p : Page) (code : Nat) : (last s p code).net = s.net := rfl
@[simp] theorem last_ports (s : State) (p : Page) (code : Nat) : (last s p code).ports = s.ports := rfl
@[simp] theorem last_msgs (s : State) (p : Page) (code : Nat) : (last s p code).msgs = s.msgs := rfl
@[simp] theorem last_funcs (s : State) (p : Page) (code : Nat) : (last s p code).funcs = s.funcs := rfl
@[simp] theorem last_vfs (s : State) (p : Page) (code : Nat) : (last s p code).vfs = s.vfs := rfl
@[simp] theorem last_vfOn (s : State) (p : Page) (code : Nat) : (last s p code).vfOn = s.vfOn := rfl
@[simp] theorem last_cmds (s : State) (p : Page) (code : Nat) : (last s p code).cmds = s.cmds := rfl
@[simp] theorem last_logN (s : State) (p : Page) (code : Nat) : (last s p code).logN = s.logN := rfl
@[simp] theorem last_masks (s : State) (p : Page) (code : Nat) : (last s p code).masks = s.masks := rfl
@[simp] theorem last_repairs (s : State) (p : Page) (code : Nat) : (last s p code).repairs = s.repairs := rfl
@[simp] theorem last_corr (s : State) (p : Page) (code : Nat) : (last s p code).corr = s.corr := rfl
@[simp] theorem last_passes (s : State) (p : Page) (code : Nat) : (last s p code).passes = s.passes := rfl
@[simp] theorem last_board (s : State) (p : Page) (code : Nat) : (last s p code).board = s.board := rfl
@[simp] theorem last_hard (s : State) (p : Page) (code : Nat) : (last s p code).hard = s.hard := rfl
@[simp] theorem last_hubErr (s : State) (p : Page) (code : Nat) : (last s p code).hubErr = s.hubErr := rfl
@[simp] theorem last_answer (s : State) (p : Page) (code : Nat) : (last s p code).answer = s.answer := rfl
@[simp] theorem last_ep (s : State) (p : Page) (code : Nat) : (last s p code).ep = s.ep := rfl
@[simp] theorem last_wipes (s : State) (p : Page) (code : Nat) : (last s p code).wipes = s.wipes := rfl
@[simp] theorem last_fuses (s : State) (p : Page) (code : Nat) : (last s p code).fuses = s.fuses := rfl
@[simp] theorem last_free (s : State) (p : Page) (code : Nat) : (last s p code).free = s.free := rfl

@[simp] theorem faultBit_pending (s : State) (p : Page) (b : Bool) : (faultBit s p b).pending = s.pending := rfl
@[simp] theorem faultBit_cores (s : State) (p : Page) (b : Bool) : (faultBit s p b).cores = s.cores := rfl
@[simp] theorem faultBit_dies (s : State) (p : Page) (b : Bool) : (faultBit s p b).dies = s.dies := rfl
@[simp] theorem faultBit_slots (s : State) (p : Page) (b : Bool) : (faultBit s p b).slots = s.slots := rfl
@[simp] theorem faultBit_mem (s : State) (p : Page) (b : Bool) : (faultBit s p b).mem = s.mem := rfl
@[simp] theorem faultBit_synd (s : State) (p : Page) (b : Bool) : (faultBit s p b).synd = s.synd := rfl
@[simp] theorem faultBit_net (s : State) (p : Page) (b : Bool) : (faultBit s p b).net = s.net := rfl
@[simp] theorem faultBit_ports (s : State) (p : Page) (b : Bool) : (faultBit s p b).ports = s.ports := rfl
@[simp] theorem faultBit_msgs (s : State) (p : Page) (b : Bool) : (faultBit s p b).msgs = s.msgs := rfl
@[simp] theorem faultBit_funcs (s : State) (p : Page) (b : Bool) : (faultBit s p b).funcs = s.funcs := rfl
@[simp] theorem faultBit_vfs (s : State) (p : Page) (b : Bool) : (faultBit s p b).vfs = s.vfs := rfl
@[simp] theorem faultBit_vfOn (s : State) (p : Page) (b : Bool) : (faultBit s p b).vfOn = s.vfOn := rfl
@[simp] theorem faultBit_cmds (s : State) (p : Page) (b : Bool) : (faultBit s p b).cmds = s.cmds := rfl
@[simp] theorem faultBit_logN (s : State) (p : Page) (b : Bool) : (faultBit s p b).logN = s.logN := rfl
@[simp] theorem faultBit_masks (s : State) (p : Page) (b : Bool) : (faultBit s p b).masks = s.masks := rfl
@[simp] theorem faultBit_repairs (s : State) (p : Page) (b : Bool) : (faultBit s p b).repairs = s.repairs := rfl
@[simp] theorem faultBit_corr (s : State) (p : Page) (b : Bool) : (faultBit s p b).corr = s.corr := rfl
@[simp] theorem faultBit_passes (s : State) (p : Page) (b : Bool) : (faultBit s p b).passes = s.passes := rfl
@[simp] theorem faultBit_board (s : State) (p : Page) (b : Bool) : (faultBit s p b).board = s.board := rfl
@[simp] theorem faultBit_hard (s : State) (p : Page) (b : Bool) : (faultBit s p b).hard = s.hard := rfl
@[simp] theorem faultBit_hubErr (s : State) (p : Page) (b : Bool) : (faultBit s p b).hubErr = s.hubErr := rfl
@[simp] theorem faultBit_answer (s : State) (p : Page) (b : Bool) : (faultBit s p b).answer = s.answer := rfl
@[simp] theorem faultBit_ep (s : State) (p : Page) (b : Bool) : (faultBit s p b).ep = s.ep := rfl
@[simp] theorem faultBit_wipes (s : State) (p : Page) (b : Bool) : (faultBit s p b).wipes = s.wipes := rfl
@[simp] theorem faultBit_fuses (s : State) (p : Page) (b : Bool) : (faultBit s p b).fuses = s.fuses := rfl
@[simp] theorem faultBit_free (s : State) (p : Page) (b : Bool) : (faultBit s p b).free = s.free := rfl

@[simp] theorem setPhase_pending (s : State) (k v : Nat) : (setPhase s k v).pending = s.pending := rfl
@[simp] theorem setPhase_cores (s : State) (k v : Nat) : (setPhase s k v).cores = s.cores := rfl
@[simp] theorem setPhase_dies (s : State) (k v : Nat) : (setPhase s k v).dies = s.dies := rfl
@[simp] theorem setPhase_slots (s : State) (k v : Nat) : (setPhase s k v).slots = s.slots := rfl
@[simp] theorem setPhase_mem (s : State) (k v : Nat) : (setPhase s k v).mem = s.mem := rfl
@[simp] theorem setPhase_synd (s : State) (k v : Nat) : (setPhase s k v).synd = s.synd := rfl
@[simp] theorem setPhase_net (s : State) (k v : Nat) : (setPhase s k v).net = s.net := rfl
@[simp] theorem setPhase_ports (s : State) (k v : Nat) : (setPhase s k v).ports = s.ports := rfl
@[simp] theorem setPhase_msgs (s : State) (k v : Nat) : (setPhase s k v).msgs = s.msgs := rfl
@[simp] theorem setPhase_funcs (s : State) (k v : Nat) : (setPhase s k v).funcs = s.funcs := rfl
@[simp] theorem setPhase_vfs (s : State) (k v : Nat) : (setPhase s k v).vfs = s.vfs := rfl
@[simp] theorem setPhase_vfOn (s : State) (k v : Nat) : (setPhase s k v).vfOn = s.vfOn := rfl
@[simp] theorem setPhase_cmds (s : State) (k v : Nat) : (setPhase s k v).cmds = s.cmds := rfl
@[simp] theorem setPhase_logN (s : State) (k v : Nat) : (setPhase s k v).logN = s.logN := rfl
@[simp] theorem setPhase_masks (s : State) (k v : Nat) : (setPhase s k v).masks = s.masks := rfl
@[simp] theorem setPhase_repairs (s : State) (k v : Nat) : (setPhase s k v).repairs = s.repairs := rfl
@[simp] theorem setPhase_corr (s : State) (k v : Nat) : (setPhase s k v).corr = s.corr := rfl
@[simp] theorem setPhase_passes (s : State) (k v : Nat) : (setPhase s k v).passes = s.passes := rfl
@[simp] theorem setPhase_board (s : State) (k v : Nat) : (setPhase s k v).board = s.board := rfl
@[simp] theorem setPhase_hard (s : State) (k v : Nat) : (setPhase s k v).hard = s.hard := rfl
@[simp] theorem setPhase_hubErr (s : State) (k v : Nat) : (setPhase s k v).hubErr = s.hubErr := rfl
@[simp] theorem setPhase_answer (s : State) (k v : Nat) : (setPhase s k v).answer = s.answer := rfl
@[simp] theorem setPhase_ep (s : State) (k v : Nat) : (setPhase s k v).ep = s.ep := rfl
@[simp] theorem setPhase_wipes (s : State) (k v : Nat) : (setPhase s k v).wipes = s.wipes := rfl
@[simp] theorem setPhase_fuses (s : State) (k v : Nat) : (setPhase s k v).fuses = s.fuses := rfl
@[simp] theorem setPhase_free (s : State) (k v : Nat) : (setPhase s k v).free = s.free := rfl

@[simp] theorem setCore_pending (s : State) (k : Nat) (c : Core) : (setCore s k c).pending = s.pending := rfl
@[simp] theorem setCore_regs (s : State) (k : Nat) (c : Core) : (setCore s k c).regs = s.regs := rfl
@[simp] theorem setCore_dies (s : State) (k : Nat) (c : Core) : (setCore s k c).dies = s.dies := rfl
@[simp] theorem setCore_slots (s : State) (k : Nat) (c : Core) : (setCore s k c).slots = s.slots := rfl
@[simp] theorem setCore_mem (s : State) (k : Nat) (c : Core) : (setCore s k c).mem = s.mem := rfl
@[simp] theorem setCore_synd (s : State) (k : Nat) (c : Core) : (setCore s k c).synd = s.synd := rfl
@[simp] theorem setCore_net (s : State) (k : Nat) (c : Core) : (setCore s k c).net = s.net := rfl
@[simp] theorem setCore_ports (s : State) (k : Nat) (c : Core) : (setCore s k c).ports = s.ports := rfl
@[simp] theorem setCore_msgs (s : State) (k : Nat) (c : Core) : (setCore s k c).msgs = s.msgs := rfl
@[simp] theorem setCore_funcs (s : State) (k : Nat) (c : Core) : (setCore s k c).funcs = s.funcs := rfl
@[simp] theorem setCore_vfs (s : State) (k : Nat) (c : Core) : (setCore s k c).vfs = s.vfs := rfl
@[simp] theorem setCore_vfOn (s : State) (k : Nat) (c : Core) : (setCore s k c).vfOn = s.vfOn := rfl
@[simp] theorem setCore_cmds (s : State) (k : Nat) (c : Core) : (setCore s k c).cmds = s.cmds := rfl
@[simp] theorem setCore_logN (s : State) (k : Nat) (c : Core) : (setCore s k c).logN = s.logN := rfl
@[simp] theorem setCore_masks (s : State) (k : Nat) (c : Core) : (setCore s k c).masks = s.masks := rfl
@[simp] theorem setCore_repairs (s : State) (k : Nat) (c : Core) : (setCore s k c).repairs = s.repairs := rfl
@[simp] theorem setCore_corr (s : State) (k : Nat) (c : Core) : (setCore s k c).corr = s.corr := rfl
@[simp] theorem setCore_passes (s : State) (k : Nat) (c : Core) : (setCore s k c).passes = s.passes := rfl
@[simp] theorem setCore_board (s : State) (k : Nat) (c : Core) : (setCore s k c).board = s.board := rfl
@[simp] theorem setCore_hard (s : State) (k : Nat) (c : Core) : (setCore s k c).hard = s.hard := rfl
@[simp] theorem setCore_hubErr (s : State) (k : Nat) (c : Core) : (setCore s k c).hubErr = s.hubErr := rfl
@[simp] theorem setCore_answer (s : State) (k : Nat) (c : Core) : (setCore s k c).answer = s.answer := rfl
@[simp] theorem setCore_ep (s : State) (k : Nat) (c : Core) : (setCore s k c).ep = s.ep := rfl
@[simp] theorem setCore_wipes (s : State) (k : Nat) (c : Core) : (setCore s k c).wipes = s.wipes := rfl
@[simp] theorem setCore_fuses (s : State) (k : Nat) (c : Core) : (setCore s k c).fuses = s.fuses := rfl
@[simp] theorem setCore_free (s : State) (k : Nat) (c : Core) : (setCore s k c).free = s.free := rfl

@[simp] theorem setDie_pending (s : State) (d : Nat) (x : DieSt) : (setDie s d x).pending = s.pending := rfl
@[simp] theorem setDie_regs (s : State) (d : Nat) (x : DieSt) : (setDie s d x).regs = s.regs := rfl
@[simp] theorem setDie_cores (s : State) (d : Nat) (x : DieSt) : (setDie s d x).cores = s.cores := rfl
@[simp] theorem setDie_slots (s : State) (d : Nat) (x : DieSt) : (setDie s d x).slots = s.slots := rfl
@[simp] theorem setDie_mem (s : State) (d : Nat) (x : DieSt) : (setDie s d x).mem = s.mem := rfl
@[simp] theorem setDie_synd (s : State) (d : Nat) (x : DieSt) : (setDie s d x).synd = s.synd := rfl
@[simp] theorem setDie_net (s : State) (d : Nat) (x : DieSt) : (setDie s d x).net = s.net := rfl
@[simp] theorem setDie_ports (s : State) (d : Nat) (x : DieSt) : (setDie s d x).ports = s.ports := rfl
@[simp] theorem setDie_msgs (s : State) (d : Nat) (x : DieSt) : (setDie s d x).msgs = s.msgs := rfl
@[simp] theorem setDie_funcs (s : State) (d : Nat) (x : DieSt) : (setDie s d x).funcs = s.funcs := rfl
@[simp] theorem setDie_vfs (s : State) (d : Nat) (x : DieSt) : (setDie s d x).vfs = s.vfs := rfl
@[simp] theorem setDie_vfOn (s : State) (d : Nat) (x : DieSt) : (setDie s d x).vfOn = s.vfOn := rfl
@[simp] theorem setDie_cmds (s : State) (d : Nat) (x : DieSt) : (setDie s d x).cmds = s.cmds := rfl
@[simp] theorem setDie_logN (s : State) (d : Nat) (x : DieSt) : (setDie s d x).logN = s.logN := rfl
@[simp] theorem setDie_masks (s : State) (d : Nat) (x : DieSt) : (setDie s d x).masks = s.masks := rfl
@[simp] theorem setDie_repairs (s : State) (d : Nat) (x : DieSt) : (setDie s d x).repairs = s.repairs := rfl
@[simp] theorem setDie_corr (s : State) (d : Nat) (x : DieSt) : (setDie s d x).corr = s.corr := rfl
@[simp] theorem setDie_passes (s : State) (d : Nat) (x : DieSt) : (setDie s d x).passes = s.passes := rfl
@[simp] theorem setDie_board (s : State) (d : Nat) (x : DieSt) : (setDie s d x).board = s.board := rfl
@[simp] theorem setDie_hard (s : State) (d : Nat) (x : DieSt) : (setDie s d x).hard = s.hard := rfl
@[simp] theorem setDie_hubErr (s : State) (d : Nat) (x : DieSt) : (setDie s d x).hubErr = s.hubErr := rfl
@[simp] theorem setDie_answer (s : State) (d : Nat) (x : DieSt) : (setDie s d x).answer = s.answer := rfl
@[simp] theorem setDie_ep (s : State) (d : Nat) (x : DieSt) : (setDie s d x).ep = s.ep := rfl
@[simp] theorem setDie_wipes (s : State) (d : Nat) (x : DieSt) : (setDie s d x).wipes = s.wipes := rfl
@[simp] theorem setDie_fuses (s : State) (d : Nat) (x : DieSt) : (setDie s d x).fuses = s.fuses := rfl
@[simp] theorem setDie_free (s : State) (d : Nat) (x : DieSt) : (setDie s d x).free = s.free := rfl

@[simp] theorem setSlot_pending (s : State) (k : Nat) (x : SlotSt) : (setSlot s k x).pending = s.pending := rfl
@[simp] theorem setSlot_regs (s : State) (k : Nat) (x : SlotSt) : (setSlot s k x).regs = s.regs := rfl
@[simp] theorem setSlot_cores (s : State) (k : Nat) (x : SlotSt) : (setSlot s k x).cores = s.cores := rfl
@[simp] theorem setSlot_dies (s : State) (k : Nat) (x : SlotSt) : (setSlot s k x).dies = s.dies := rfl
@[simp] theorem setSlot_mem (s : State) (k : Nat) (x : SlotSt) : (setSlot s k x).mem = s.mem := rfl
@[simp] theorem setSlot_synd (s : State) (k : Nat) (x : SlotSt) : (setSlot s k x).synd = s.synd := rfl
@[simp] theorem setSlot_net (s : State) (k : Nat) (x : SlotSt) : (setSlot s k x).net = s.net := rfl
@[simp] theorem setSlot_ports (s : State) (k : Nat) (x : SlotSt) : (setSlot s k x).ports = s.ports := rfl
@[simp] theorem setSlot_msgs (s : State) (k : Nat) (x : SlotSt) : (setSlot s k x).msgs = s.msgs := rfl
@[simp] theorem setSlot_funcs (s : State) (k : Nat) (x : SlotSt) : (setSlot s k x).funcs = s.funcs := rfl
@[simp] theorem setSlot_vfs (s : State) (k : Nat) (x : SlotSt) : (setSlot s k x).vfs = s.vfs := rfl
@[simp] theorem setSlot_vfOn (s : State) (k : Nat) (x : SlotSt) : (setSlot s k x).vfOn = s.vfOn := rfl
@[simp] theorem setSlot_cmds (s : State) (k : Nat) (x : SlotSt) : (setSlot s k x).cmds = s.cmds := rfl
@[simp] theorem setSlot_logN (s : State) (k : Nat) (x : SlotSt) : (setSlot s k x).logN = s.logN := rfl
@[simp] theorem setSlot_masks (s : State) (k : Nat) (x : SlotSt) : (setSlot s k x).masks = s.masks := rfl
@[simp] theorem setSlot_repairs (s : State) (k : Nat) (x : SlotSt) : (setSlot s k x).repairs = s.repairs := rfl
@[simp] theorem setSlot_corr (s : State) (k : Nat) (x : SlotSt) : (setSlot s k x).corr = s.corr := rfl
@[simp] theorem setSlot_passes (s : State) (k : Nat) (x : SlotSt) : (setSlot s k x).passes = s.passes := rfl
@[simp] theorem setSlot_board (s : State) (k : Nat) (x : SlotSt) : (setSlot s k x).board = s.board := rfl
@[simp] theorem setSlot_hard (s : State) (k : Nat) (x : SlotSt) : (setSlot s k x).hard = s.hard := rfl
@[simp] theorem setSlot_hubErr (s : State) (k : Nat) (x : SlotSt) : (setSlot s k x).hubErr = s.hubErr := rfl
@[simp] theorem setSlot_answer (s : State) (k : Nat) (x : SlotSt) : (setSlot s k x).answer = s.answer := rfl
@[simp] theorem setSlot_ep (s : State) (k : Nat) (x : SlotSt) : (setSlot s k x).ep = s.ep := rfl
@[simp] theorem setSlot_wipes (s : State) (k : Nat) (x : SlotSt) : (setSlot s k x).wipes = s.wipes := rfl
@[simp] theorem setSlot_fuses (s : State) (k : Nat) (x : SlotSt) : (setSlot s k x).fuses = s.fuses := rfl
@[simp] theorem setSlot_free (s : State) (k : Nat) (x : SlotSt) : (setSlot s k x).free = s.free := rfl

@[simp] theorem setFunc_pending (s : State) (f : Nat) (x : FuncSt) : (setFunc s f x).pending = s.pending := rfl
@[simp] theorem setFunc_regs (s : State) (f : Nat) (x : FuncSt) : (setFunc s f x).regs = s.regs := rfl
@[simp] theorem setFunc_cores (s : State) (f : Nat) (x : FuncSt) : (setFunc s f x).cores = s.cores := rfl
@[simp] theorem setFunc_dies (s : State) (f : Nat) (x : FuncSt) : (setFunc s f x).dies = s.dies := rfl
@[simp] theorem setFunc_slots (s : State) (f : Nat) (x : FuncSt) : (setFunc s f x).slots = s.slots := rfl
@[simp] theorem setFunc_mem (s : State) (f : Nat) (x : FuncSt) : (setFunc s f x).mem = s.mem := rfl
@[simp] theorem setFunc_synd (s : State) (f : Nat) (x : FuncSt) : (setFunc s f x).synd = s.synd := rfl
@[simp] theorem setFunc_net (s : State) (f : Nat) (x : FuncSt) : (setFunc s f x).net = s.net := rfl
@[simp] theorem setFunc_ports (s : State) (f : Nat) (x : FuncSt) : (setFunc s f x).ports = s.ports := rfl
@[simp] theorem setFunc_msgs (s : State) (f : Nat) (x : FuncSt) : (setFunc s f x).msgs = s.msgs := rfl
@[simp] theorem setFunc_vfs (s : State) (f : Nat) (x : FuncSt) : (setFunc s f x).vfs = s.vfs := rfl
@[simp] theorem setFunc_vfOn (s : State) (f : Nat) (x : FuncSt) : (setFunc s f x).vfOn = s.vfOn := rfl
@[simp] theorem setFunc_cmds (s : State) (f : Nat) (x : FuncSt) : (setFunc s f x).cmds = s.cmds := rfl
@[simp] theorem setFunc_logN (s : State) (f : Nat) (x : FuncSt) : (setFunc s f x).logN = s.logN := rfl
@[simp] theorem setFunc_masks (s : State) (f : Nat) (x : FuncSt) : (setFunc s f x).masks = s.masks := rfl
@[simp] theorem setFunc_repairs (s : State) (f : Nat) (x : FuncSt) : (setFunc s f x).repairs = s.repairs := rfl
@[simp] theorem setFunc_corr (s : State) (f : Nat) (x : FuncSt) : (setFunc s f x).corr = s.corr := rfl
@[simp] theorem setFunc_passes (s : State) (f : Nat) (x : FuncSt) : (setFunc s f x).passes = s.passes := rfl
@[simp] theorem setFunc_board (s : State) (f : Nat) (x : FuncSt) : (setFunc s f x).board = s.board := rfl
@[simp] theorem setFunc_hard (s : State) (f : Nat) (x : FuncSt) : (setFunc s f x).hard = s.hard := rfl
@[simp] theorem setFunc_hubErr (s : State) (f : Nat) (x : FuncSt) : (setFunc s f x).hubErr = s.hubErr := rfl
@[simp] theorem setFunc_answer (s : State) (f : Nat) (x : FuncSt) : (setFunc s f x).answer = s.answer := rfl
@[simp] theorem setFunc_ep (s : State) (f : Nat) (x : FuncSt) : (setFunc s f x).ep = s.ep := rfl
@[simp] theorem setFunc_wipes (s : State) (f : Nat) (x : FuncSt) : (setFunc s f x).wipes = s.wipes := rfl
@[simp] theorem setFunc_fuses (s : State) (f : Nat) (x : FuncSt) : (setFunc s f x).fuses = s.fuses := rfl
@[simp] theorem setFunc_free (s : State) (f : Nat) (x : FuncSt) : (setFunc s f x).free = s.free := rfl

@[simp] theorem setPort_pending (s : State) (p : Nat) (x : PortSt) : (setPort s p x).pending = s.pending := rfl
@[simp] theorem setPort_regs (s : State) (p : Nat) (x : PortSt) : (setPort s p x).regs = s.regs := rfl
@[simp] theorem setPort_cores (s : State) (p : Nat) (x : PortSt) : (setPort s p x).cores = s.cores := rfl
@[simp] theorem setPort_dies (s : State) (p : Nat) (x : PortSt) : (setPort s p x).dies = s.dies := rfl
@[simp] theorem setPort_slots (s : State) (p : Nat) (x : PortSt) : (setPort s p x).slots = s.slots := rfl
@[simp] theorem setPort_mem (s : State) (p : Nat) (x : PortSt) : (setPort s p x).mem = s.mem := rfl
@[simp] theorem setPort_synd (s : State) (p : Nat) (x : PortSt) : (setPort s p x).synd = s.synd := rfl
@[simp] theorem setPort_net (s : State) (p : Nat) (x : PortSt) : (setPort s p x).net = s.net := rfl
@[simp] theorem setPort_msgs (s : State) (p : Nat) (x : PortSt) : (setPort s p x).msgs = s.msgs := rfl
@[simp] theorem setPort_funcs (s : State) (p : Nat) (x : PortSt) : (setPort s p x).funcs = s.funcs := rfl
@[simp] theorem setPort_vfs (s : State) (p : Nat) (x : PortSt) : (setPort s p x).vfs = s.vfs := rfl
@[simp] theorem setPort_vfOn (s : State) (p : Nat) (x : PortSt) : (setPort s p x).vfOn = s.vfOn := rfl
@[simp] theorem setPort_cmds (s : State) (p : Nat) (x : PortSt) : (setPort s p x).cmds = s.cmds := rfl
@[simp] theorem setPort_logN (s : State) (p : Nat) (x : PortSt) : (setPort s p x).logN = s.logN := rfl
@[simp] theorem setPort_masks (s : State) (p : Nat) (x : PortSt) : (setPort s p x).masks = s.masks := rfl
@[simp] theorem setPort_repairs (s : State) (p : Nat) (x : PortSt) : (setPort s p x).repairs = s.repairs := rfl
@[simp] theorem setPort_corr (s : State) (p : Nat) (x : PortSt) : (setPort s p x).corr = s.corr := rfl
@[simp] theorem setPort_passes (s : State) (p : Nat) (x : PortSt) : (setPort s p x).passes = s.passes := rfl
@[simp] theorem setPort_board (s : State) (p : Nat) (x : PortSt) : (setPort s p x).board = s.board := rfl
@[simp] theorem setPort_hard (s : State) (p : Nat) (x : PortSt) : (setPort s p x).hard = s.hard := rfl
@[simp] theorem setPort_hubErr (s : State) (p : Nat) (x : PortSt) : (setPort s p x).hubErr = s.hubErr := rfl
@[simp] theorem setPort_answer (s : State) (p : Nat) (x : PortSt) : (setPort s p x).answer = s.answer := rfl
@[simp] theorem setPort_ep (s : State) (p : Nat) (x : PortSt) : (setPort s p x).ep = s.ep := rfl
@[simp] theorem setPort_wipes (s : State) (p : Nat) (x : PortSt) : (setPort s p x).wipes = s.wipes := rfl
@[simp] theorem setPort_fuses (s : State) (p : Nat) (x : PortSt) : (setPort s p x).fuses = s.fuses := rfl
@[simp] theorem setPort_free (s : State) (p : Nat) (x : PortSt) : (setPort s p x).free = s.free := rfl

@[simp] theorem wrByte_pending (s : State) (a : Nat) (b : Byte) : (wrByte s a b).pending = s.pending := rfl
@[simp] theorem wrByte_regs (s : State) (a : Nat) (b : Byte) : (wrByte s a b).regs = s.regs := rfl
@[simp] theorem wrByte_cores (s : State) (a : Nat) (b : Byte) : (wrByte s a b).cores = s.cores := rfl
@[simp] theorem wrByte_dies (s : State) (a : Nat) (b : Byte) : (wrByte s a b).dies = s.dies := rfl
@[simp] theorem wrByte_slots (s : State) (a : Nat) (b : Byte) : (wrByte s a b).slots = s.slots := rfl
@[simp] theorem wrByte_synd (s : State) (a : Nat) (b : Byte) : (wrByte s a b).synd = s.synd := rfl
@[simp] theorem wrByte_net (s : State) (a : Nat) (b : Byte) : (wrByte s a b).net = s.net := rfl
@[simp] theorem wrByte_ports (s : State) (a : Nat) (b : Byte) : (wrByte s a b).ports = s.ports := rfl
@[simp] theorem wrByte_msgs (s : State) (a : Nat) (b : Byte) : (wrByte s a b).msgs = s.msgs := rfl
@[simp] theorem wrByte_funcs (s : State) (a : Nat) (b : Byte) : (wrByte s a b).funcs = s.funcs := rfl
@[simp] theorem wrByte_vfs (s : State) (a : Nat) (b : Byte) : (wrByte s a b).vfs = s.vfs := rfl
@[simp] theorem wrByte_vfOn (s : State) (a : Nat) (b : Byte) : (wrByte s a b).vfOn = s.vfOn := rfl
@[simp] theorem wrByte_cmds (s : State) (a : Nat) (b : Byte) : (wrByte s a b).cmds = s.cmds := rfl
@[simp] theorem wrByte_logN (s : State) (a : Nat) (b : Byte) : (wrByte s a b).logN = s.logN := rfl
@[simp] theorem wrByte_masks (s : State) (a : Nat) (b : Byte) : (wrByte s a b).masks = s.masks := rfl
@[simp] theorem wrByte_repairs (s : State) (a : Nat) (b : Byte) : (wrByte s a b).repairs = s.repairs := rfl
@[simp] theorem wrByte_corr (s : State) (a : Nat) (b : Byte) : (wrByte s a b).corr = s.corr := rfl
@[simp] theorem wrByte_passes (s : State) (a : Nat) (b : Byte) : (wrByte s a b).passes = s.passes := rfl
@[simp] theorem wrByte_board (s : State) (a : Nat) (b : Byte) : (wrByte s a b).board = s.board := rfl
@[simp] theorem wrByte_hard (s : State) (a : Nat) (b : Byte) : (wrByte s a b).hard = s.hard := rfl
@[simp] theorem wrByte_hubErr (s : State) (a : Nat) (b : Byte) : (wrByte s a b).hubErr = s.hubErr := rfl
@[simp] theorem wrByte_answer (s : State) (a : Nat) (b : Byte) : (wrByte s a b).answer = s.answer := rfl
@[simp] theorem wrByte_ep (s : State) (a : Nat) (b : Byte) : (wrByte s a b).ep = s.ep := rfl
@[simp] theorem wrByte_wipes (s : State) (a : Nat) (b : Byte) : (wrByte s a b).wipes = s.wipes := rfl
@[simp] theorem wrByte_fuses (s : State) (a : Nat) (b : Byte) : (wrByte s a b).fuses = s.fuses := rfl
@[simp] theorem wrByte_free (s : State) (a : Nat) (b : Byte) : (wrByte s a b).free = s.free := rfl

@[simp] theorem memClear_pending (s : State) (a n : Nat) : (memClear s a n).pending = s.pending := rfl
@[simp] theorem memClear_regs (s : State) (a n : Nat) : (memClear s a n).regs = s.regs := rfl
@[simp] theorem memClear_cores (s : State) (a n : Nat) : (memClear s a n).cores = s.cores := rfl
@[simp] theorem memClear_dies (s : State) (a n : Nat) : (memClear s a n).dies = s.dies := rfl
@[simp] theorem memClear_slots (s : State) (a n : Nat) : (memClear s a n).slots = s.slots := rfl
@[simp] theorem memClear_net (s : State) (a n : Nat) : (memClear s a n).net = s.net := rfl
@[simp] theorem memClear_ports (s : State) (a n : Nat) : (memClear s a n).ports = s.ports := rfl
@[simp] theorem memClear_msgs (s : State) (a n : Nat) : (memClear s a n).msgs = s.msgs := rfl
@[simp] theorem memClear_funcs (s : State) (a n : Nat) : (memClear s a n).funcs = s.funcs := rfl
@[simp] theorem memClear_vfs (s : State) (a n : Nat) : (memClear s a n).vfs = s.vfs := rfl
@[simp] theorem memClear_vfOn (s : State) (a n : Nat) : (memClear s a n).vfOn = s.vfOn := rfl
@[simp] theorem memClear_cmds (s : State) (a n : Nat) : (memClear s a n).cmds = s.cmds := rfl
@[simp] theorem memClear_logN (s : State) (a n : Nat) : (memClear s a n).logN = s.logN := rfl
@[simp] theorem memClear_masks (s : State) (a n : Nat) : (memClear s a n).masks = s.masks := rfl
@[simp] theorem memClear_repairs (s : State) (a n : Nat) : (memClear s a n).repairs = s.repairs := rfl
@[simp] theorem memClear_corr (s : State) (a n : Nat) : (memClear s a n).corr = s.corr := rfl
@[simp] theorem memClear_passes (s : State) (a n : Nat) : (memClear s a n).passes = s.passes := rfl
@[simp] theorem memClear_board (s : State) (a n : Nat) : (memClear s a n).board = s.board := rfl
@[simp] theorem memClear_hard (s : State) (a n : Nat) : (memClear s a n).hard = s.hard := rfl
@[simp] theorem memClear_hubErr (s : State) (a n : Nat) : (memClear s a n).hubErr = s.hubErr := rfl
@[simp] theorem memClear_answer (s : State) (a n : Nat) : (memClear s a n).answer = s.answer := rfl
@[simp] theorem memClear_ep (s : State) (a n : Nat) : (memClear s a n).ep = s.ep := rfl
@[simp] theorem memClear_wipes (s : State) (a n : Nat) : (memClear s a n).wipes = s.wipes := rfl
@[simp] theorem memClear_fuses (s : State) (a n : Nat) : (memClear s a n).fuses = s.fuses := rfl
@[simp] theorem memClear_free (s : State) (a n : Nat) : (memClear s a n).free = s.free := rfl

@[simp] theorem setSynd_pending (s : State) (w : Nat) (x : Byte) : (setSynd s w x).pending = s.pending := rfl
@[simp] theorem setSynd_regs (s : State) (w : Nat) (x : Byte) : (setSynd s w x).regs = s.regs := rfl
@[simp] theorem setSynd_cores (s : State) (w : Nat) (x : Byte) : (setSynd s w x).cores = s.cores := rfl
@[simp] theorem setSynd_dies (s : State) (w : Nat) (x : Byte) : (setSynd s w x).dies = s.dies := rfl
@[simp] theorem setSynd_slots (s : State) (w : Nat) (x : Byte) : (setSynd s w x).slots = s.slots := rfl
@[simp] theorem setSynd_mem (s : State) (w : Nat) (x : Byte) : (setSynd s w x).mem = s.mem := rfl
@[simp] theorem setSynd_net (s : State) (w : Nat) (x : Byte) : (setSynd s w x).net = s.net := rfl
@[simp] theorem setSynd_ports (s : State) (w : Nat) (x : Byte) : (setSynd s w x).ports = s.ports := rfl
@[simp] theorem setSynd_msgs (s : State) (w : Nat) (x : Byte) : (setSynd s w x).msgs = s.msgs := rfl
@[simp] theorem setSynd_funcs (s : State) (w : Nat) (x : Byte) : (setSynd s w x).funcs = s.funcs := rfl
@[simp] theorem setSynd_vfs (s : State) (w : Nat) (x : Byte) : (setSynd s w x).vfs = s.vfs := rfl
@[simp] theorem setSynd_vfOn (s : State) (w : Nat) (x : Byte) : (setSynd s w x).vfOn = s.vfOn := rfl
@[simp] theorem setSynd_cmds (s : State) (w : Nat) (x : Byte) : (setSynd s w x).cmds = s.cmds := rfl
@[simp] theorem setSynd_logN (s : State) (w : Nat) (x : Byte) : (setSynd s w x).logN = s.logN := rfl
@[simp] theorem setSynd_masks (s : State) (w : Nat) (x : Byte) : (setSynd s w x).masks = s.masks := rfl
@[simp] theorem setSynd_repairs (s : State) (w : Nat) (x : Byte) : (setSynd s w x).repairs = s.repairs := rfl
@[simp] theorem setSynd_corr (s : State) (w : Nat) (x : Byte) : (setSynd s w x).corr = s.corr := rfl
@[simp] theorem setSynd_passes (s : State) (w : Nat) (x : Byte) : (setSynd s w x).passes = s.passes := rfl
@[simp] theorem setSynd_board (s : State) (w : Nat) (x : Byte) : (setSynd s w x).board = s.board := rfl
@[simp] theorem setSynd_hard (s : State) (w : Nat) (x : Byte) : (setSynd s w x).hard = s.hard := rfl
@[simp] theorem setSynd_hubErr (s : State) (w : Nat) (x : Byte) : (setSynd s w x).hubErr = s.hubErr := rfl
@[simp] theorem setSynd_answer (s : State) (w : Nat) (x : Byte) : (setSynd s w x).answer = s.answer := rfl
@[simp] theorem setSynd_ep (s : State) (w : Nat) (x : Byte) : (setSynd s w x).ep = s.ep := rfl
@[simp] theorem setSynd_wipes (s : State) (w : Nat) (x : Byte) : (setSynd s w x).wipes = s.wipes := rfl
@[simp] theorem setSynd_fuses (s : State) (w : Nat) (x : Byte) : (setSynd s w x).fuses = s.fuses := rfl
@[simp] theorem setSynd_free (s : State) (w : Nat) (x : Byte) : (setSynd s w x).free = s.free := rfl

@[simp] theorem startLong_pending (s : State) (p : Page) (tag : Nat) : (startLong s p tag).pending = s.pending := rfl
@[simp] theorem startLong_regs (s : State) (p : Page) (tag : Nat) : (startLong s p tag).regs = s.regs := rfl
@[simp] theorem startLong_cores (s : State) (p : Page) (tag : Nat) : (startLong s p tag).cores = s.cores := rfl
@[simp] theorem startLong_dies (s : State) (p : Page) (tag : Nat) : (startLong s p tag).dies = s.dies := rfl
@[simp] theorem startLong_slots (s : State) (p : Page) (tag : Nat) : (startLong s p tag).slots = s.slots := rfl
@[simp] theorem startLong_mem (s : State) (p : Page) (tag : Nat) : (startLong s p tag).mem = s.mem := rfl
@[simp] theorem startLong_synd (s : State) (p : Page) (tag : Nat) : (startLong s p tag).synd = s.synd := rfl
@[simp] theorem startLong_net (s : State) (p : Page) (tag : Nat) : (startLong s p tag).net = s.net := rfl
@[simp] theorem startLong_ports (s : State) (p : Page) (tag : Nat) : (startLong s p tag).ports = s.ports := rfl
@[simp] theorem startLong_msgs (s : State) (p : Page) (tag : Nat) : (startLong s p tag).msgs = s.msgs := rfl
@[simp] theorem startLong_funcs (s : State) (p : Page) (tag : Nat) : (startLong s p tag).funcs = s.funcs := rfl
@[simp] theorem startLong_vfs (s : State) (p : Page) (tag : Nat) : (startLong s p tag).vfs = s.vfs := rfl
@[simp] theorem startLong_vfOn (s : State) (p : Page) (tag : Nat) : (startLong s p tag).vfOn = s.vfOn := rfl
@[simp] theorem startLong_logN (s : State) (p : Page) (tag : Nat) : (startLong s p tag).logN = s.logN := rfl
@[simp] theorem startLong_masks (s : State) (p : Page) (tag : Nat) : (startLong s p tag).masks = s.masks := rfl
@[simp] theorem startLong_repairs (s : State) (p : Page) (tag : Nat) : (startLong s p tag).repairs = s.repairs := rfl
@[simp] theorem startLong_corr (s : State) (p : Page) (tag : Nat) : (startLong s p tag).corr = s.corr := rfl
@[simp] theorem startLong_passes (s : State) (p : Page) (tag : Nat) : (startLong s p tag).passes = s.passes := rfl
@[simp] theorem startLong_board (s : State) (p : Page) (tag : Nat) : (startLong s p tag).board = s.board := rfl
@[simp] theorem startLong_hard (s : State) (p : Page) (tag : Nat) : (startLong s p tag).hard = s.hard := rfl
@[simp] theorem startLong_hubErr (s : State) (p : Page) (tag : Nat) : (startLong s p tag).hubErr = s.hubErr := rfl
@[simp] theorem startLong_answer (s : State) (p : Page) (tag : Nat) : (startLong s p tag).answer = s.answer := rfl
@[simp] theorem startLong_ep (s : State) (p : Page) (tag : Nat) : (startLong s p tag).ep = s.ep := rfl
@[simp] theorem startLong_wipes (s : State) (p : Page) (tag : Nat) : (startLong s p tag).wipes = s.wipes := rfl
@[simp] theorem startLong_fuses (s : State) (p : Page) (tag : Nat) : (startLong s p tag).fuses = s.fuses := rfl
@[simp] theorem startLong_free (s : State) (p : Page) (tag : Nat) : (startLong s p tag).free = s.free := rfl

@[simp] theorem netTake_pending (s : State) (n : Nat) : (netTake s n).pending = s.pending := rfl
@[simp] theorem netTake_regs (s : State) (n : Nat) : (netTake s n).regs = s.regs := rfl
@[simp] theorem netTake_cores (s : State) (n : Nat) : (netTake s n).cores = s.cores := rfl
@[simp] theorem netTake_dies (s : State) (n : Nat) : (netTake s n).dies = s.dies := rfl
@[simp] theorem netTake_slots (s : State) (n : Nat) : (netTake s n).slots = s.slots := rfl
@[simp] theorem netTake_mem (s : State) (n : Nat) : (netTake s n).mem = s.mem := rfl
@[simp] theorem netTake_synd (s : State) (n : Nat) : (netTake s n).synd = s.synd := rfl
@[simp] theorem netTake_ports (s : State) (n : Nat) : (netTake s n).ports = s.ports := rfl
@[simp] theorem netTake_msgs (s : State) (n : Nat) : (netTake s n).msgs = s.msgs := rfl
@[simp] theorem netTake_funcs (s : State) (n : Nat) : (netTake s n).funcs = s.funcs := rfl
@[simp] theorem netTake_vfs (s : State) (n : Nat) : (netTake s n).vfs = s.vfs := rfl
@[simp] theorem netTake_vfOn (s : State) (n : Nat) : (netTake s n).vfOn = s.vfOn := rfl
@[simp] theorem netTake_cmds (s : State) (n : Nat) : (netTake s n).cmds = s.cmds := rfl
@[simp] theorem netTake_logN (s : State) (n : Nat) : (netTake s n).logN = s.logN := rfl
@[simp] theorem netTake_masks (s : State) (n : Nat) : (netTake s n).masks = s.masks := rfl
@[simp] theorem netTake_repairs (s : State) (n : Nat) : (netTake s n).repairs = s.repairs := rfl
@[simp] theorem netTake_corr (s : State) (n : Nat) : (netTake s n).corr = s.corr := rfl
@[simp] theorem netTake_passes (s : State) (n : Nat) : (netTake s n).passes = s.passes := rfl
@[simp] theorem netTake_board (s : State) (n : Nat) : (netTake s n).board = s.board := rfl
@[simp] theorem netTake_hard (s : State) (n : Nat) : (netTake s n).hard = s.hard := rfl
@[simp] theorem netTake_hubErr (s : State) (n : Nat) : (netTake s n).hubErr = s.hubErr := rfl
@[simp] theorem netTake_answer (s : State) (n : Nat) : (netTake s n).answer = s.answer := rfl
@[simp] theorem netTake_ep (s : State) (n : Nat) : (netTake s n).ep = s.ep := rfl
@[simp] theorem netTake_wipes (s : State) (n : Nat) : (netTake s n).wipes = s.wipes := rfl
@[simp] theorem netTake_fuses (s : State) (n : Nat) : (netTake s n).fuses = s.fuses := rfl
@[simp] theorem netTake_free (s : State) (n : Nat) : (netTake s n).free = s.free := rfl

@[simp] theorem setCtx_pending (s : State) (d i : Nat) (x : Ctx) : (setCtx s d i x).pending = s.pending := rfl
@[simp] theorem setCtx_regs (s : State) (d i : Nat) (x : Ctx) : (setCtx s d i x).regs = s.regs := rfl
@[simp] theorem setCtx_cores (s : State) (d i : Nat) (x : Ctx) : (setCtx s d i x).cores = s.cores := rfl
@[simp] theorem setCtx_slots (s : State) (d i : Nat) (x : Ctx) : (setCtx s d i x).slots = s.slots := rfl
@[simp] theorem setCtx_mem (s : State) (d i : Nat) (x : Ctx) : (setCtx s d i x).mem = s.mem := rfl
@[simp] theorem setCtx_synd (s : State) (d i : Nat) (x : Ctx) : (setCtx s d i x).synd = s.synd := rfl
@[simp] theorem setCtx_net (s : State) (d i : Nat) (x : Ctx) : (setCtx s d i x).net = s.net := rfl
@[simp] theorem setCtx_ports (s : State) (d i : Nat) (x : Ctx) : (setCtx s d i x).ports = s.ports := rfl
@[simp] theorem setCtx_msgs (s : State) (d i : Nat) (x : Ctx) : (setCtx s d i x).msgs = s.msgs := rfl
@[simp] theorem setCtx_funcs (s : State) (d i : Nat) (x : Ctx) : (setCtx s d i x).funcs = s.funcs := rfl
@[simp] theorem setCtx_vfs (s : State) (d i : Nat) (x : Ctx) : (setCtx s d i x).vfs = s.vfs := rfl
@[simp] theorem setCtx_vfOn (s : State) (d i : Nat) (x : Ctx) : (setCtx s d i x).vfOn = s.vfOn := rfl
@[simp] theorem setCtx_cmds (s : State) (d i : Nat) (x : Ctx) : (setCtx s d i x).cmds = s.cmds := rfl
@[simp] theorem setCtx_logN (s : State) (d i : Nat) (x : Ctx) : (setCtx s d i x).logN = s.logN := rfl
@[simp] theorem setCtx_masks (s : State) (d i : Nat) (x : Ctx) : (setCtx s d i x).masks = s.masks := rfl
@[simp] theorem setCtx_repairs (s : State) (d i : Nat) (x : Ctx) : (setCtx s d i x).repairs = s.repairs := rfl
@[simp] theorem setCtx_corr (s : State) (d i : Nat) (x : Ctx) : (setCtx s d i x).corr = s.corr := rfl
@[simp] theorem setCtx_passes (s : State) (d i : Nat) (x : Ctx) : (setCtx s d i x).passes = s.passes := rfl
@[simp] theorem setCtx_board (s : State) (d i : Nat) (x : Ctx) : (setCtx s d i x).board = s.board := rfl
@[simp] theorem setCtx_hard (s : State) (d i : Nat) (x : Ctx) : (setCtx s d i x).hard = s.hard := rfl
@[simp] theorem setCtx_hubErr (s : State) (d i : Nat) (x : Ctx) : (setCtx s d i x).hubErr = s.hubErr := rfl
@[simp] theorem setCtx_answer (s : State) (d i : Nat) (x : Ctx) : (setCtx s d i x).answer = s.answer := rfl
@[simp] theorem setCtx_ep (s : State) (d i : Nat) (x : Ctx) : (setCtx s d i x).ep = s.ep := rfl
@[simp] theorem setCtx_wipes (s : State) (d i : Nat) (x : Ctx) : (setCtx s d i x).wipes = s.wipes := rfl
@[simp] theorem setCtx_fuses (s : State) (d i : Nat) (x : Ctx) : (setCtx s d i x).fuses = s.fuses := rfl
@[simp] theorem setCtx_free (s : State) (d i : Nat) (x : Ctx) : (setCtx s d i x).free = s.free := rfl

@[simp] theorem getCore_setCore (s : State) (k : Nat) (x : Core) : getCore (setCore s k x) k = x := tget_tset_same _ _ _ _
theorem getCore_setCore_ne (s : State) (x : Core) {k j : Nat} (h : j ≠ k) : getCore (setCore s k x) j = getCore s j :=
  tget_tset_ne _ _ _ h
@[simp] theorem getCore_setRegAt (s : State) (o v : Nat) (u : Nat) : getCore (setRegAt s o v) u = getCore s u := rfl
@[simp] theorem getCore_wr (s : State) (p : Page) (o v : Nat) (u : Nat) : getCore (wr s p o v) u = getCore s u := rfl
@[simp] theorem getCore_bump (s : State) (p : Page) (o n : Nat) (u : Nat) : getCore (bump s p o n) u = getCore s u := rfl
@[simp] theorem getCore_wrFld (s : State) (p : Page) (o lo len v : Nat) (u : Nat) : getCore (wrFld s p o lo len v) u = getCore s u := rfl
@[simp] theorem getCore_last (s : State) (p : Page) (code : Nat) (u : Nat) : getCore (last s p code) u = getCore s u := rfl
@[simp] theorem getCore_faultBit (s : State) (p : Page) (b : Bool) (u : Nat) : getCore (faultBit s p b) u = getCore s u := rfl
@[simp] theorem getCore_setPhase (s : State) (k v : Nat) (u : Nat) : getCore (setPhase s k v) u = getCore s u := rfl
@[simp] theorem getCore_setDie (s : State) (d : Nat) (x : DieSt) (u : Nat) : getCore (setDie s d x) u = getCore s u := rfl
@[simp] theorem getCore_setSlot (s : State) (k : Nat) (x : SlotSt) (u : Nat) : getCore (setSlot s k x) u = getCore s u := rfl
@[simp] theorem getCore_setFunc (s : State) (f : Nat) (x : FuncSt) (u : Nat) : getCore (setFunc s f x) u = getCore s u := rfl
@[simp] theorem getCore_setPort (s : State) (p : Nat) (x : PortSt) (u : Nat) : getCore (setPort s p x) u = getCore s u := rfl
@[simp] theorem getCore_wrByte (s : State) (a : Nat) (b : Byte) (u : Nat) : getCore (wrByte s a b) u = getCore s u := rfl
@[simp] theorem getCore_memClear (s : State) (a n : Nat) (u : Nat) : getCore (memClear s a n) u = getCore s u := rfl
@[simp] theorem getCore_setSynd (s : State) (w : Nat) (x : Byte) (u : Nat) : getCore (setSynd s w x) u = getCore s u := rfl
@[simp] theorem getCore_startLong (s : State) (p : Page) (tag : Nat) (u : Nat) : getCore (startLong s p tag) u = getCore s u := rfl
@[simp] theorem getCore_netTake (s : State) (n : Nat) (u : Nat) : getCore (netTake s n) u = getCore s u := rfl
@[simp] theorem getCore_setCtx (s : State) (d i : Nat) (x : Ctx) (u : Nat) : getCore (setCtx s d i x) u = getCore s u := rfl

@[simp] theorem getDie_setDie (s : State) (k : Nat) (x : DieSt) : getDie (setDie s k x) k = x := tget_tset_same _ _ _ _
theorem getDie_setDie_ne (s : State) (x : DieSt) {k j : Nat} (h : j ≠ k) : getDie (setDie s k x) j = getDie s j :=
  tget_tset_ne _ _ _ h
@[simp] theorem getDie_setRegAt (s : State) (o v : Nat) (u : Nat) : getDie (setRegAt s o v) u = getDie s u := rfl
@[simp] theorem getDie_wr (s : State) (p : Page) (o v : Nat) (u : Nat) : getDie (wr s p o v) u = getDie s u := rfl
@[simp] theorem getDie_bump (s : State) (p : Page) (o n : Nat) (u : Nat) : getDie (bump s p o n) u = getDie s u := rfl
@[simp] theorem getDie_wrFld (s : State) (p : Page) (o lo len v : Nat) (u : Nat) : getDie (wrFld s p o lo len v) u = getDie s u := rfl
@[simp] theorem getDie_last (s : State) (p : Page) (code : Nat) (u : Nat) : getDie (last s p code) u = getDie s u := rfl
@[simp] theorem getDie_faultBit (s : State) (p : Page) (b : Bool) (u : Nat) : getDie (faultBit s p b) u = getDie s u := rfl
@[simp] theorem getDie_setPhase (s : State) (k v : Nat) (u : Nat) : getDie (setPhase s k v) u = getDie s u := rfl
@[simp] theorem getDie_setCore (s : State) (k : Nat) (c : Core) (u : Nat) : getDie (setCore s k c) u = getDie s u := rfl
@[simp] theorem getDie_setSlot (s : State) (k : Nat) (x : SlotSt) (u : Nat) : getDie (setSlot s k x) u = getDie s u := rfl
@[simp] theorem getDie_setFunc (s : State) (f : Nat) (x : FuncSt) (u : Nat) : getDie (setFunc s f x) u = getDie s u := rfl
@[simp] theorem getDie_setPort (s : State) (p : Nat) (x : PortSt) (u : Nat) : getDie (setPort s p x) u = getDie s u := rfl
@[simp] theorem getDie_wrByte (s : State) (a : Nat) (b : Byte) (u : Nat) : getDie (wrByte s a b) u = getDie s u := rfl
@[simp] theorem getDie_memClear (s : State) (a n : Nat) (u : Nat) : getDie (memClear s a n) u = getDie s u := rfl
@[simp] theorem getDie_setSynd (s : State) (w : Nat) (x : Byte) (u : Nat) : getDie (setSynd s w x) u = getDie s u := rfl
@[simp] theorem getDie_startLong (s : State) (p : Page) (tag : Nat) (u : Nat) : getDie (startLong s p tag) u = getDie s u := rfl
@[simp] theorem getDie_netTake (s : State) (n : Nat) (u : Nat) : getDie (netTake s n) u = getDie s u := rfl

@[simp] theorem getSlot_setSlot (s : State) (k : Nat) (x : SlotSt) : getSlot (setSlot s k x) k = x := tget_tset_same _ _ _ _
theorem getSlot_setSlot_ne (s : State) (x : SlotSt) {k j : Nat} (h : j ≠ k) : getSlot (setSlot s k x) j = getSlot s j :=
  tget_tset_ne _ _ _ h
@[simp] theorem getSlot_setRegAt (s : State) (o v : Nat) (u : Nat) : getSlot (setRegAt s o v) u = getSlot s u := rfl
@[simp] theorem getSlot_wr (s : State) (p : Page) (o v : Nat) (u : Nat) : getSlot (wr s p o v) u = getSlot s u := rfl
@[simp] theorem getSlot_bump (s : State) (p : Page) (o n : Nat) (u : Nat) : getSlot (bump s p o n) u = getSlot s u := rfl
@[simp] theorem getSlot_wrFld (s : State) (p : Page) (o lo len v : Nat) (u : Nat) : getSlot (wrFld s p o lo len v) u = getSlot s u := rfl
@[simp] theorem getSlot_last (s : State) (p : Page) (code : Nat) (u : Nat) : getSlot (last s p code) u = getSlot s u := rfl
@[simp] theorem getSlot_faultBit (s : State) (p : Page) (b : Bool) (u : Nat) : getSlot (faultBit s p b) u = getSlot s u := rfl
@[simp] theorem getSlot_setPhase (s : State) (k v : Nat) (u : Nat) : getSlot (setPhase s k v) u = getSlot s u := rfl
@[simp] theorem getSlot_setCore (s : State) (k : Nat) (c : Core) (u : Nat) : getSlot (setCore s k c) u = getSlot s u := rfl
@[simp] theorem getSlot_setDie (s : State) (d : Nat) (x : DieSt) (u : Nat) : getSlot (setDie s d x) u = getSlot s u := rfl
@[simp] theorem getSlot_setFunc (s : State) (f : Nat) (x : FuncSt) (u : Nat) : getSlot (setFunc s f x) u = getSlot s u := rfl
@[simp] theorem getSlot_setPort (s : State) (p : Nat) (x : PortSt) (u : Nat) : getSlot (setPort s p x) u = getSlot s u := rfl
@[simp] theorem getSlot_wrByte (s : State) (a : Nat) (b : Byte) (u : Nat) : getSlot (wrByte s a b) u = getSlot s u := rfl
@[simp] theorem getSlot_memClear (s : State) (a n : Nat) (u : Nat) : getSlot (memClear s a n) u = getSlot s u := rfl
@[simp] theorem getSlot_setSynd (s : State) (w : Nat) (x : Byte) (u : Nat) : getSlot (setSynd s w x) u = getSlot s u := rfl
@[simp] theorem getSlot_startLong (s : State) (p : Page) (tag : Nat) (u : Nat) : getSlot (startLong s p tag) u = getSlot s u := rfl
@[simp] theorem getSlot_netTake (s : State) (n : Nat) (u : Nat) : getSlot (netTake s n) u = getSlot s u := rfl
@[simp] theorem getSlot_setCtx (s : State) (d i : Nat) (x : Ctx) (u : Nat) : getSlot (setCtx s d i x) u = getSlot s u := rfl

@[simp] theorem getFunc_setFunc (s : State) (k : Nat) (x : FuncSt) : getFunc (setFunc s k x) k = x := tget_tset_same _ _ _ _
theorem getFunc_setFunc_ne (s : State) (x : FuncSt) {k j : Nat} (h : j ≠ k) : getFunc (setFunc s k x) j = getFunc s j :=
  tget_tset_ne _ _ _ h
@[simp] theorem getFunc_setRegAt (s : State) (o v : Nat) (u : Nat) : getFunc (setRegAt s o v) u = getFunc s u := rfl
@[simp] theorem getFunc_wr (s : State) (p : Page) (o v : Nat) (u : Nat) : getFunc (wr s p o v) u = getFunc s u := rfl
@[simp] theorem getFunc_bump (s : State) (p : Page) (o n : Nat) (u : Nat) : getFunc (bump s p o n) u = getFunc s u := rfl
@[simp] theorem getFunc_wrFld (s : State) (p : Page) (o lo len v : Nat) (u : Nat) : getFunc (wrFld s p o lo len v) u = getFunc s u := rfl
@[simp] theorem getFunc_last (s : State) (p : Page) (code : Nat) (u : Nat) : getFunc (last s p code) u = getFunc s u := rfl
@[simp] theorem getFunc_faultBit (s : State) (p : Page) (b : Bool) (u : Nat) : getFunc (faultBit s p b) u = getFunc s u := rfl
@[simp] theorem getFunc_setPhase (s : State) (k v : Nat) (u : Nat) : getFunc (setPhase s k v) u = getFunc s u := rfl
@[simp] theorem getFunc_setCore (s : State) (k : Nat) (c : Core) (u : Nat) : getFunc (setCore s k c) u = getFunc s u := rfl
@[simp] theorem getFunc_setDie (s : State) (d : Nat) (x : DieSt) (u : Nat) : getFunc (setDie s d x) u = getFunc s u := rfl
@[simp] theorem getFunc_setSlot (s : State) (k : Nat) (x : SlotSt) (u : Nat) : getFunc (setSlot s k x) u = getFunc s u := rfl
@[simp] theorem getFunc_setPort (s : State) (p : Nat) (x : PortSt) (u : Nat) : getFunc (setPort s p x) u = getFunc s u := rfl
@[simp] theorem getFunc_wrByte (s : State) (a : Nat) (b : Byte) (u : Nat) : getFunc (wrByte s a b) u = getFunc s u := rfl
@[simp] theorem getFunc_memClear (s : State) (a n : Nat) (u : Nat) : getFunc (memClear s a n) u = getFunc s u := rfl
@[simp] theorem getFunc_setSynd (s : State) (w : Nat) (x : Byte) (u : Nat) : getFunc (setSynd s w x) u = getFunc s u := rfl
@[simp] theorem getFunc_startLong (s : State) (p : Page) (tag : Nat) (u : Nat) : getFunc (startLong s p tag) u = getFunc s u := rfl
@[simp] theorem getFunc_netTake (s : State) (n : Nat) (u : Nat) : getFunc (netTake s n) u = getFunc s u := rfl
@[simp] theorem getFunc_setCtx (s : State) (d i : Nat) (x : Ctx) (u : Nat) : getFunc (setCtx s d i x) u = getFunc s u := rfl

@[simp] theorem getPort_setPort (s : State) (k : Nat) (x : PortSt) : getPort (setPort s k x) k = x := tget_tset_same _ _ _ _
theorem getPort_setPort_ne (s : State) (x : PortSt) {k j : Nat} (h : j ≠ k) : getPort (setPort s k x) j = getPort s j :=
  tget_tset_ne _ _ _ h
@[simp] theorem getPort_setRegAt (s : State) (o v : Nat) (u : Nat) : getPort (setRegAt s o v) u = getPort s u := rfl
@[simp] theorem getPort_wr (s : State) (p : Page) (o v : Nat) (u : Nat) : getPort (wr s p o v) u = getPort s u := rfl
@[simp] theorem getPort_bump (s : State) (p : Page) (o n : Nat) (u : Nat) : getPort (bump s p o n) u = getPort s u := rfl
@[simp] theorem getPort_wrFld (s : State) (p : Page) (o lo len v : Nat) (u : Nat) : getPort (wrFld s p o lo len v) u = getPort s u := rfl
@[simp] theorem getPort_last (s : State) (p : Page) (code : Nat) (u : Nat) : getPort (last s p code) u = getPort s u := rfl
@[simp] theorem getPort_faultBit (s : State) (p : Page) (b : Bool) (u : Nat) : getPort (faultBit s p b) u = getPort s u := rfl
@[simp] theorem getPort_setPhase (s : State) (k v : Nat) (u : Nat) : getPort (setPhase s k v) u = getPort s u := rfl
@[simp] theorem getPort_setCore (s : State) (k : Nat) (c : Core) (u : Nat) : getPort (setCore s k c) u = getPort s u := rfl
@[simp] theorem getPort_setDie (s : State) (d : Nat) (x : DieSt) (u : Nat) : getPort (setDie s d x) u = getPort s u := rfl
@[simp] theorem getPort_setSlot (s : State) (k : Nat) (x : SlotSt) (u : Nat) : getPort (setSlot s k x) u = getPort s u := rfl
@[simp] theorem getPort_setFunc (s : State) (f : Nat) (x : FuncSt) (u : Nat) : getPort (setFunc s f x) u = getPort s u := rfl
@[simp] theorem getPort_wrByte (s : State) (a : Nat) (b : Byte) (u : Nat) : getPort (wrByte s a b) u = getPort s u := rfl
@[simp] theorem getPort_memClear (s : State) (a n : Nat) (u : Nat) : getPort (memClear s a n) u = getPort s u := rfl
@[simp] theorem getPort_setSynd (s : State) (w : Nat) (x : Byte) (u : Nat) : getPort (setSynd s w x) u = getPort s u := rfl
@[simp] theorem getPort_startLong (s : State) (p : Page) (tag : Nat) (u : Nat) : getPort (startLong s p tag) u = getPort s u := rfl
@[simp] theorem getPort_netTake (s : State) (n : Nat) (u : Nat) : getPort (netTake s n) u = getPort s u := rfl
@[simp] theorem getPort_setCtx (s : State) (d i : Nat) (x : Ctx) (u : Nat) : getPort (setCtx s d i x) u = getPort s u := rfl

@[simp] theorem regAt_setCore (s : State) (k : Nat) (c : Core) (u : Nat) : regAt (setCore s k c) u = regAt s u := rfl
@[simp] theorem rd_setCore (s : State) (k : Nat) (c : Core) (q : Page) (u : Nat) : rd (setCore s k c) q u = rd s q u := rfl
@[simp] theorem regAt_setDie (s : State) (d : Nat) (x : DieSt) (u : Nat) : regAt (setDie s d x) u = regAt s u := rfl
@[simp] theorem rd_setDie (s : State) (d : Nat) (x : DieSt) (q : Page) (u : Nat) : rd (setDie s d x) q u = rd s q u := rfl
@[simp] theorem regAt_setSlot (s : State) (k : Nat) (x : SlotSt) (u : Nat) : regAt (setSlot s k x) u = regAt s u := rfl
@[simp] theorem rd_setSlot (s : State) (k : Nat) (x : SlotSt) (q : Page) (u : Nat) : rd (setSlot s k x) q u = rd s q u := rfl
@[simp] theorem regAt_setFunc (s : State) (f : Nat) (x : FuncSt) (u : Nat) : regAt (setFunc s f x) u = regAt s u := rfl
@[simp] theorem rd_setFunc (s : State) (f : Nat) (x : FuncSt) (q : Page) (u : Nat) : rd (setFunc s f x) q u = rd s q u := rfl
@[simp] theorem regAt_setPort (s : State) (p : Nat) (x : PortSt) (u : Nat) : regAt (setPort s p x) u = regAt s u := rfl
@[simp] theorem rd_setPort (s : State) (p : Nat) (x : PortSt) (q : Page) (u : Nat) : rd (setPort s p x) q u = rd s q u := rfl
@[simp] theorem regAt_wrByte (s : State) (a : Nat) (b : Byte) (u : Nat) : regAt (wrByte s a b) u = regAt s u := rfl
@[simp] theorem rd_wrByte (s : State) (a : Nat) (b : Byte) (q : Page) (u : Nat) : rd (wrByte s a b) q u = rd s q u := rfl
@[simp] theorem regAt_memClear (s : State) (a n : Nat) (u : Nat) : regAt (memClear s a n) u = regAt s u := rfl
@[simp] theorem rd_memClear (s : State) (a n : Nat) (q : Page) (u : Nat) : rd (memClear s a n) q u = rd s q u := rfl
@[simp] theorem regAt_setSynd (s : State) (w : Nat) (x : Byte) (u : Nat) : regAt (setSynd s w x) u = regAt s u := rfl
@[simp] theorem rd_setSynd (s : State) (w : Nat) (x : Byte) (q : Page) (u : Nat) : rd (setSynd s w x) q u = rd s q u := rfl
@[simp] theorem regAt_startLong (s : State) (p : Page) (tag : Nat) (u : Nat) : regAt (startLong s p tag) u = regAt s u := rfl
@[simp] theorem rd_startLong (s : State) (p : Page) (tag : Nat) (q : Page) (u : Nat) : rd (startLong s p tag) q u = rd s q u := rfl
@[simp] theorem regAt_netTake (s : State) (n : Nat) (u : Nat) : regAt (netTake s n) u = regAt s u := rfl
@[simp] theorem rd_netTake (s : State) (n : Nat) (q : Page) (u : Nat) : rd (netTake s n) q u = rd s q u := rfl
@[simp] theorem regAt_setCtx (s : State) (d i : Nat) (x : Ctx) (u : Nat) : regAt (setCtx s d i x) u = regAt s u := rfl
@[simp] theorem rd_setCtx (s : State) (d i : Nat) (x : Ctx) (q : Page) (u : Nat) : rd (setCtx s d i x) q u = rd s q u := rfl

@[simp] theorem rdByte_setRegAt (s : State) (o v : Nat) (u : Nat) : rdByte (setRegAt s o v) u = rdByte s u := rfl
@[simp] theorem rdByte_wr (s : State) (p : Page) (o v : Nat) (u : Nat) : rdByte (wr s p o v) u = rdByte s u := rfl
@[simp] theorem rdByte_bump (s : State) (p : Page) (o n : Nat) (u : Nat) : rdByte (bump s p o n) u = rdByte s u := rfl
@[simp] theorem rdByte_wrFld (s : State) (p : Page) (o lo len v : Nat) (u : Nat) : rdByte (wrFld s p o lo len v) u = rdByte s u := rfl
@[simp] theorem rdByte_last (s : State) (p : Page) (code : Nat) (u : Nat) : rdByte (last s p code) u = rdByte s u := rfl
@[simp] theorem rdByte_faultBit (s : State) (p : Page) (b : Bool) (u : Nat) : rdByte (faultBit s p b) u = rdByte s u := rfl
@[simp] theorem rdByte_setPhase (s : State) (k v : Nat) (u : Nat) : rdByte (setPhase s k v) u = rdByte s u := rfl
@[simp] theorem rdByte_setCore (s : State) (k : Nat) (c : Core) (u : Nat) : rdByte (setCore s k c) u = rdByte s u := rfl
@[simp] theorem rdByte_setDie (s : State) (d : Nat) (x : DieSt) (u : Nat) : rdByte (setDie s d x) u = rdByte s u := rfl
@[simp] theorem rdByte_setSlot (s : State) (k : Nat) (x : SlotSt) (u : Nat) : rdByte (setSlot s k x) u = rdByte s u := rfl
@[simp] theorem rdByte_setFunc (s : State) (f : Nat) (x : FuncSt) (u : Nat) : rdByte (setFunc s f x) u = rdByte s u := rfl
@[simp] theorem rdByte_setPort (s : State) (p : Nat) (x : PortSt) (u : Nat) : rdByte (setPort s p x) u = rdByte s u := rfl
@[simp] theorem rdByte_setSynd (s : State) (w : Nat) (x : Byte) (u : Nat) : rdByte (setSynd s w x) u = rdByte s u := rfl
@[simp] theorem rdByte_startLong (s : State) (p : Page) (tag : Nat) (u : Nat) : rdByte (startLong s p tag) u = rdByte s u := rfl
@[simp] theorem rdByte_netTake (s : State) (n : Nat) (u : Nat) : rdByte (netTake s n) u = rdByte s u := rfl
@[simp] theorem rdByte_setCtx (s : State) (d i : Nat) (x : Ctx) (u : Nat) : rdByte (setCtx s d i x) u = rdByte s u := rfl

@[simp] theorem getCtx_setRegAt (s : State) (o v : Nat) (e j : Nat) : getCtx (setRegAt s o v) e j = getCtx s e j := rfl
@[simp] theorem getCtx_wr (s : State) (p : Page) (o v : Nat) (e j : Nat) : getCtx (wr s p o v) e j = getCtx s e j := rfl
@[simp] theorem getCtx_bump (s : State) (p : Page) (o n : Nat) (e j : Nat) : getCtx (bump s p o n) e j = getCtx s e j := rfl
@[simp] theorem getCtx_wrFld (s : State) (p : Page) (o lo len v : Nat) (e j : Nat) : getCtx (wrFld s p o lo len v) e j = getCtx s e j := rfl
@[simp] theorem getCtx_last (s : State) (p : Page) (code : Nat) (e j : Nat) : getCtx (last s p code) e j = getCtx s e j := rfl
@[simp] theorem getCtx_faultBit (s : State) (p : Page) (b : Bool) (e j : Nat) : getCtx (faultBit s p b) e j = getCtx s e j := rfl
@[simp] theorem getCtx_setPhase (s : State) (k v : Nat) (e j : Nat) : getCtx (setPhase s k v) e j = getCtx s e j := rfl
@[simp] theorem getCtx_setCore (s : State) (k : Nat) (c : Core) (e j : Nat) : getCtx (setCore s k c) e j = getCtx s e j := rfl
@[simp] theorem getCtx_setSlot (s : State) (k : Nat) (x : SlotSt) (e j : Nat) : getCtx (setSlot s k x) e j = getCtx s e j := rfl
@[simp] theorem getCtx_setFunc (s : State) (f : Nat) (x : FuncSt) (e j : Nat) : getCtx (setFunc s f x) e j = getCtx s e j := rfl
@[simp] theorem getCtx_setPort (s : State) (p : Nat) (x : PortSt) (e j : Nat) : getCtx (setPort s p x) e j = getCtx s e j := rfl
@[simp] theorem getCtx_wrByte (s : State) (a : Nat) (b : Byte) (e j : Nat) : getCtx (wrByte s a b) e j = getCtx s e j := rfl
@[simp] theorem getCtx_memClear (s : State) (a n : Nat) (e j : Nat) : getCtx (memClear s a n) e j = getCtx s e j := rfl
@[simp] theorem getCtx_setSynd (s : State) (w : Nat) (x : Byte) (e j : Nat) : getCtx (setSynd s w x) e j = getCtx s e j := rfl
@[simp] theorem getCtx_startLong (s : State) (p : Page) (tag : Nat) (e j : Nat) : getCtx (startLong s p tag) e j = getCtx s e j := rfl
@[simp] theorem getCtx_netTake (s : State) (n : Nat) (e j : Nat) : getCtx (netTake s n) e j = getCtx s e j := rfl

@[simp] theorem getCtx_setCtx (s : State) (d i : Nat) (x : Ctx) : getCtx (setCtx s d i x) d i = x := by
  simp [getCtx, setCtx]

theorem getCtx_setCtx_ne (s : State) (x : Ctx) {d i e j : Nat} (h : e ≠ d ∨ j ≠ i) :
    getCtx (setCtx s d i x) e j = getCtx s e j := by
  by_cases hd : e = d
  · subst hd
    have hj : j ≠ i := by omega
    simp [getCtx, setCtx, tget_tput_ne _ _ _ hj]
  · simp [getCtx, setCtx, getDie_setDie_ne _ _ hd]

/-! Registers. -/

theorem regAt_setRegAt (s : State) (o v : Nat) : regAt (setRegAt s o v) o = v % 2 ^ 32 := by
  simp [regAt, setRegAt, w32]

theorem regAt_setRegAt_ne (s : State) (v : Nat) {o a : Nat} (h : a ≠ o) : regAt (setRegAt s o v) a = regAt s a := by
  simp only [regAt, setRegAt]
  by_cases hx : w32 v = regDefault o
  · rw [tset, if_pos hx]; simp [tget, tfind_tdel_ne _ h]
  · rw [tset, if_neg hx, tget_tput_ne _ _ _ h]

/-- The register that was written. -/
theorem rd_wr (s : State) (p : Page) (o v : Nat) : rd (wr s p o v) p o = v % 2 ^ 32 := regAt_setRegAt _ _ _

/-- Another register than the one written. -/
theorem rd_wr_ne (s : State) (v : Nat) {p q : Page} {o a : Nat} (h : pageBase q + a ≠ pageBase p + o) :
    rd (wr s p o v) q a = rd s q a := regAt_setRegAt_ne _ _ h

/-- A register holds 32 bits. -/
theorem rd_lt (s : State) (p : Page) (o : Nat) : rd s p o < 2 ^ 32 := by
  unfold rd regAt; exact BitVec.isLt _

/-- A register after an addition that stops at its top (R8). -/
theorem rd_bump (s : State) (p : Page) (o n : Nat) : rd (bump s p o n) p o = min (rd s p o + n) 0xFFFFFFFF := by
  rw [bump, rd_wr]; omega

theorem rd_bump_ne (s : State) (n : Nat) {p q : Page} {o a : Nat} (h : pageBase q + a ≠ pageBase p + o) :
    rd (bump s p o n) q a = rd s q a := rd_wr_ne s _ h

theorem rd_wrFld_ne (s : State) (lo len v : Nat) {p q : Page} {o a : Nat} (h : pageBase q + a ≠ pageBase p + o) :
    rd (wrFld s p o lo len v) q a = rd s q a := rd_wr_ne s _ h

/-! Memory. -/

@[simp] theorem rdByte_wrByte (s : State) (a : Nat) (b : Byte) : rdByte (wrByte s a b) a = b := tget_tset_same _ _ _ _

theorem rdByte_wrByte_ne (s : State) (b : Byte) {a x : Nat} (h : x ≠ a) : rdByte (wrByte s a b) x = rdByte s x :=
  tget_tset_ne _ _ _ h

theorem rdByte_memClear (s : State) (a n x : Nat) :
    rdByte (memClear s a n) x = if x < a ∨ a + n ≤ x then rdByte s x else 0 := by
  have := tget_tkeep (0 : Byte) (fun k => decide (k < a ∨ a + n ≤ k)) s.mem x
  simpa [rdByte, memClear] using this

end Sys2Proof.Laws
end

