-- ==== Sys2Proof/Laws/Events.lean ====
section
/-! SUPPORT. Laws/Events.lean: what setting event bits, sending messages and ending a command can change. -/
namespace Sys2Proof.Laws
open Sys2Proof.Machine

/-- What each step of a fold keeps holds after it. -/
theorem fold_keeps {α σ : Type} {P : σ → Prop} (f : σ → α → σ) (hf : ∀ s a, P s → P (f s a)) :
    ∀ (l : List α) (s : σ), P s → P (l.foldl f s)
  | [], _, h => h
  | a :: l, s, h => fold_keeps f hf l (f s a) (hf s a h)

/-- A part of the state that each step of a fold leaves is left by the fold. -/
theorem each_keep {α σ β : Type} (g : σ → β) (f : α → σ → σ) (h : ∀ a s, g (f a s) = g s) (l : List α) (s : σ) :
    g (each l f s) = g s :=
  fold_keeps (P := fun t => g t = g s) _ (fun t a ht => (h a t).trans ht) l s rfl

/-- The same of a fold over numbers. -/
theorem iter_keep {σ β : Type} (g : σ → β) (f : Nat → σ → σ) (h : ∀ i s, g (f i s) = g s) (n : Nat) (s : σ) :
    g (iter n f s) = g s :=
  fold_keeps (P := fun t => g t = g s) _ (fun t i ht => (h i t).trans ht) (List.range n) s rfl

/-- A message changes only the messages and the function state. -/
theorem sendMsi_eq (s : State) (f v : Nat) : ∃ ms fs, sendMsi s f v = { s with msgs := ms, funcs := fs } := by
  unfold sendMsi
  dsimp only
  split
  · split
    · exact ⟨s.msgs, _, rfl⟩
    · exact ⟨_, _, rfl⟩
  · exact ⟨s.msgs, s.funcs, rfl⟩

/-- A delivery changes only the messages and the function state. -/
theorem deliver_eq (s : State) (n : Nat) : ∃ ms fs, deliver s n = { s with msgs := ms, funcs := fs } := by
  refine fold_keeps (P := fun t => ∃ ms fs, t = { s with msgs := ms, funcs := fs }) _ ?_ _ s ⟨s.msgs, s.funcs, rfl⟩
  intro t f ⟨ms, fs, ht⟩
  unfold deliverTo
  dsimp only
  split
  · obtain ⟨m2, f2, h2⟩ := sendMsi_eq t f (vmapEntry t f n % 2 ^ 11)
    exact ⟨m2, f2, by rw [h2, ht]⟩
  · exact ⟨ms, fs, ht⟩

/-- Setting event bits changes one register, the messages and the function state. -/
theorem raise_eq (s : State) (p : Page) (b : Nat) : ∃ ms fs,
    raise s p b = { wr s p hEVT (rd s p hEVT ||| (b &&& evtOf p)) with msgs := ms, funcs := fs } := by
  unfold raise
  dsimp only
  split
  · exact deliver_eq _ _
  · exact ⟨s.msgs, s.funcs, rfl⟩

/-- The register of a page after event bits are set elsewhere. -/
theorem rd_raise_ne (s : State) (b : Nat) {p q : Page} {o : Nat} (h : pageBase q + o ≠ pageBase p + hEVT) :
    rd (raise s p b) q o = rd s q o := by
  obtain ⟨ms, fs, e⟩ := raise_eq s p b
  rw [e]; exact rd_wr_ne s _ h

/-- EVT_STATUS after event bits are set: the defined ones are added (R405). -/
theorem rd_raise (s : State) (p : Page) (b : Nat) :
    rd (raise s p b) p hEVT = (rd s p hEVT ||| (b &&& evtOf p)) % 2 ^ 32 := by
  obtain ⟨ms, fs, e⟩ := raise_eq s p b
  rw [e]; exact rd_wr s p hEVT _

@[simp] theorem raise_pending (s : State) (p : Page) (b : Nat) : (raise s p b).pending = s.pending := by
  obtain ⟨ms, fs, e⟩ := raise_eq s p b; rw [e]; rfl
@[simp] theorem raise_cores (s : State) (p : Page) (b : Nat) : (raise s p b).cores = s.cores := by
  obtain ⟨ms, fs, e⟩ := raise_eq s p b; rw [e]; rfl
@[simp] theorem raise_dies (s : State) (p : Page) (b : Nat) : (raise s p b).dies = s.dies := by
  obtain ⟨ms, fs, e⟩ := raise_eq s p b; rw [e]; rfl
@[simp] theorem raise_slots (s : State) (p : Page) (b : Nat) : (raise s p b).slots = s.slots := by
  obtain ⟨ms, fs, e⟩ := raise_eq s p b; rw [e]; rfl
@[simp] theorem raise_mem (s : State) (p : Page) (b : Nat) : (raise s p b).mem = s.mem := by
  obtain ⟨ms, fs, e⟩ := raise_eq s p b; rw [e]; rfl
@[simp] theorem raise_synd (s : State) (p : Page) (b : Nat) : (raise s p b).synd = s.synd := by
  obtain ⟨ms, fs, e⟩ := raise_eq s p b; rw [e]; rfl
@[simp] theorem raise_net (s : State) (p : Page) (b : Nat) : (raise s p b).net = s.net := by
  obtain ⟨ms, fs, e⟩ := raise_eq s p b; rw [e]; rfl
@[simp] theorem raise_ports (s : State) (p : Page) (b : Nat) : (raise s p b).ports = s.ports := by
  obtain ⟨ms, fs, e⟩ := raise_eq s p b; rw [e]; rfl
@[simp] theorem raise_cmds (s : State) (p : Page) (b : Nat) : (raise s p b).cmds = s.cmds := by
  obtain ⟨ms, fs, e⟩ := raise_eq s p b; rw [e]; rfl
@[simp] theorem raise_logN (s : State) (p : Page) (b : Nat) : (raise s p b).logN = s.logN := by
  obtain ⟨ms, fs, e⟩ := raise_eq s p b; rw [e]; rfl
@[simp] theorem raise_masks (s : State) (p : Page) (b : Nat) : (raise s p b).masks = s.masks := by
  obtain ⟨ms, fs, e⟩ := raise_eq s p b; rw [e]; rfl
@[simp] theorem raise_repairs (s : State) (p : Page) (b : Nat) : (raise s p b).repairs = s.repairs := by
  obtain ⟨ms, fs, e⟩ := raise_eq s p b; rw [e]; rfl
@[simp] theorem raise_corr (s : State) (p : Page) (b : Nat) : (raise s p b).corr = s.corr := by
  obtain ⟨ms, fs, e⟩ := raise_eq s p b; rw [e]; rfl
@[simp] theorem raise_passes (s : State) (p : Page) (b : Nat) : (raise s p b).passes = s.passes := by
  obtain ⟨ms, fs, e⟩ := raise_eq s p b; rw [e]; rfl
@[simp] theorem raise_board (s : State) (p : Page) (b : Nat) : (raise s p b).board = s.board := by
  obtain ⟨ms, fs, e⟩ := raise_eq s p b; rw [e]; rfl
@[simp] theorem raise_hard (s : State) (p : Page) (b : Nat) : (raise s p b).hard = s.hard := by
  obtain ⟨ms, fs, e⟩ := raise_eq s p b; rw [e]; rfl
@[simp] theorem raise_hubErr (s : State) (p : Page) (b : Nat) : (raise s p b).hubErr = s.hubErr := by
  obtain ⟨ms, fs, e⟩ := raise_eq s p b; rw [e]; rfl
@[simp] theorem raise_wipes (s : State) (p : Page) (b : Nat) : (raise s p b).wipes = s.wipes := by
  obtain ⟨ms, fs, e⟩ := raise_eq s p b; rw [e]; rfl
@[simp] theorem raise_fuses (s : State) (p : Page) (b : Nat) : (raise s p b).fuses = s.fuses := by
  obtain ⟨ms, fs, e⟩ := raise_eq s p b; rw [e]; rfl
@[simp] theorem raise_answer (s : State) (p : Page) (b : Nat) : (raise s p b).answer = s.answer := by
  obtain ⟨ms, fs, e⟩ := raise_eq s p b; rw [e]; rfl
@[simp] theorem raise_ep (s : State) (p : Page) (b : Nat) : (raise s p b).ep = s.ep := by
  obtain ⟨ms, fs, e⟩ := raise_eq s p b; rw [e]; rfl
@[simp] theorem raise_free (s : State) (p : Page) (b : Nat) : (raise s p b).free = s.free := by
  obtain ⟨ms, fs, e⟩ := raise_eq s p b; rw [e]; rfl
@[simp] theorem getCore_raise (s : State) (p : Page) (b : Nat) (u : Nat) : getCore (raise s p b) u = getCore s u := by
  simp [getCore]
@[simp] theorem getDie_raise (s : State) (p : Page) (b : Nat) (u : Nat) : getDie (raise s p b) u = getDie s u := by
  simp [getDie]
@[simp] theorem getSlot_raise (s : State) (p : Page) (b : Nat) (u : Nat) : getSlot (raise s p b) u = getSlot s u := by
  simp [getSlot]
@[simp] theorem getPort_raise (s : State) (p : Page) (b : Nat) (u : Nat) : getPort (raise s p b) u = getPort s u := by
  simp [getPort]
@[simp] theorem rdByte_raise (s : State) (p : Page) (b : Nat) (u : Nat) : rdByte (raise s p b) u = rdByte s u := by
  simp [rdByte]
@[simp] theorem getCtx_raise (s : State) (p : Page) (b : Nat) (d i : Nat) : getCtx (raise s p b) d i = getCtx s d i := by
  simp [getCtx]

@[simp] theorem condition_pending (s : State) (p : Page) (code b : Nat) : (condition s p code b).pending = s.pending := by
  rw [condition, raise_pending]; rfl
@[simp] theorem condition_cores (s : State) (p : Page) (code b : Nat) : (condition s p code b).cores = s.cores := by
  rw [condition, raise_cores]; rfl
@[simp] theorem condition_dies (s : State) (p : Page) (code b : Nat) : (condition s p code b).dies = s.dies := by
  rw [condition, raise_dies]; rfl
@[simp] theorem condition_slots (s : State) (p : Page) (code b : Nat) : (condition s p code b).slots = s.slots := by
  rw [condition, raise_slots]; rfl
@[simp] theorem condition_mem (s : State) (p : Page) (code b : Nat) : (condition s p code b).mem = s.mem := by
  rw [condition, raise_mem]; rfl
@[simp] theorem condition_synd (s : State) (p : Page) (code b : Nat) : (condition s p code b).synd = s.synd := by
  rw [condition, raise_synd]; rfl
@[simp] theorem condition_net (s : State) (p : Page) (code b : Nat) : (condition s p code b).net = s.net := by
  rw [condition, raise_net]; rfl
@[simp] theorem condition_ports (s : State) (p : Page) (code b : Nat) : (condition s p code b).ports = s.ports := by
  rw [condition, raise_ports]; rfl
@[simp] theorem condition_cmds (s : State) (p : Page) (code b : Nat) : (condition s p code b).cmds = s.cmds := by
  rw [condition, raise_cmds]; rfl
@[simp] theorem condition_logN (s : State) (p : Page) (code b : Nat) : (condition s p code b).logN = s.logN := by
  rw [condition, raise_logN]; rfl
@[simp] theorem condition_masks (s : State) (p : Page) (code b : Nat) : (condition s p code b).masks = s.masks := by
  rw [condition, raise_masks]; rfl
@[simp] theorem condition_repairs (s : State) (p : Page) (code b : Nat) : (condition s p code b).repairs = s.repairs := by
  rw [condition, raise_repairs]; rfl
@[simp] theorem condition_corr (s : State) (p : Page) (code b : Nat) : (condition s p code b).corr = s.corr := by
  rw [condition, raise_corr]; rfl
@[simp] theorem condition_passes (s : State) (p : Page) (code b : Nat) : (condition s p code b).passes = s.passes := by
  rw [condition, raise_passes]; rfl
@[simp] theorem condition_board (s : State) (p : Page) (code b : Nat) : (condition s p code b).board = s.board := by
  rw [condition, raise_board]; rfl
@[simp] theorem condition_hard (s : State) (p : Page) (code b : Nat) : (condition s p code b).hard = s.hard := by
  rw [condition, raise_hard]; rfl
@[simp] theorem condition_hubErr (s : State) (p : Page) (code b : Nat) : (condition s p code b).hubErr = s.hubErr := by
  rw [condition, raise_hubErr]; rfl
@[simp] theorem condition_wipes (s : State) (p : Page) (code b : Nat) : (condition s p code b).wipes = s.wipes := by
  rw [condition, raise_wipes]; rfl
@[simp] theorem condition_fuses (s : State) (p : Page) (code b : Nat) : (condition s p code b).fuses = s.fuses := by
  rw [condition, raise_fuses]; rfl
@[simp] theorem condition_answer (s : State) (p : Page) (code b : Nat) : (condition s p code b).answer = s.answer := by
  rw [condition, raise_answer]; rfl
@[simp] theorem condition_ep (s : State) (p : Page) (code b : Nat) : (condition s p code b).ep = s.ep := by
  rw [condition, raise_ep]; rfl
@[simp] theorem condition_free (s : State) (p : Page) (code b : Nat) : (condition s p code b).free = s.free := by
  rw [condition, raise_free]; rfl
@[simp] theorem getCore_condition (s : State) (p : Page) (code b : Nat) (u : Nat) : getCore (condition s p code b) u = getCore s u := by
  simp [getCore]
@[simp] theorem getDie_condition (s : State) (p : Page) (code b : Nat) (u : Nat) : getDie (condition s p code b) u = getDie s u := by
  simp [getDie]
@[simp] theorem getSlot_condition (s : State) (p : Page) (code b : Nat) (u : Nat) : getSlot (condition s p code b) u = getSlot s u := by
  simp [getSlot]
@[simp] theorem getPort_condition (s : State) (p : Page) (code b : Nat) (u : Nat) : getPort (condition s p code b) u = getPort s u := by
  simp [getPort]
@[simp] theorem rdByte_condition (s : State) (p : Page) (code b : Nat) (u : Nat) : rdByte (condition s p code b) u = rdByte s u := by
  simp [rdByte]
@[simp] theorem getCtx_condition (s : State) (p : Page) (code b : Nat) (d i : Nat) : getCtx (condition s p code b) d i = getCtx s d i := by
  simp [getCtx]

@[simp] theorem endCmd_pending (s : State) (p : Page) (code reason tag b : Nat) : (endCmd s p code reason tag b).pending = s.pending := by
  rw [endCmd, raise_pending]; rfl
@[simp] theorem endCmd_cores (s : State) (p : Page) (code reason tag b : Nat) : (endCmd s p code reason tag b).cores = s.cores := by
  rw [endCmd, raise_cores]; rfl
@[simp] theorem endCmd_dies (s : State) (p : Page) (code reason tag b : Nat) : (endCmd s p code reason tag b).dies = s.dies := by
  rw [endCmd, raise_dies]; rfl
@[simp] theorem endCmd_slots (s : State) (p : Page) (code reason tag b : Nat) : (endCmd s p code reason tag b).slots = s.slots := by
  rw [endCmd, raise_slots]; rfl
@[simp] theorem endCmd_mem (s : State) (p : Page) (code reason tag b : Nat) : (endCmd s p code reason tag b).mem = s.mem := by
  rw [endCmd, raise_mem]; rfl
@[simp] theorem endCmd_synd (s : State) (p : Page) (code reason tag b : Nat) : (endCmd s p code reason tag b).synd = s.synd := by
  rw [endCmd, raise_synd]; rfl
@[simp] theorem endCmd_net (s : State) (p : Page) (code reason tag b : Nat) : (endCmd s p code reason tag b).net = s.net := by
  rw [endCmd, raise_net]; rfl
@[simp] theorem endCmd_ports (s : State) (p : Page) (code reason tag b : Nat) : (endCmd s p code reason tag b).ports = s.ports := by
  rw [endCmd, raise_ports]; rfl
@[simp] theorem endCmd_cmds (s : State) (p : Page) (code reason tag b : Nat) : (endCmd s p code reason tag b).cmds = s.cmds := by
  rw [endCmd, raise_cmds]; rfl
@[simp] theorem endCmd_logN (s : State) (p : Page) (code reason tag b : Nat) : (endCmd s p code reason tag b).logN = s.logN := by
  rw [endCmd, raise_logN]; rfl
@[simp] theorem endCmd_masks (s : State) (p : Page) (code reason tag b : Nat) : (endCmd s p code reason tag b).masks = s.masks := by
  rw [endCmd, raise_masks]; rfl
@[simp] theorem endCmd_repairs (s : State) (p : Page) (code reason tag b : Nat) : (endCmd s p code reason tag b).repairs = s.repairs := by
  rw [endCmd, raise_repairs]; rfl
@[simp] theorem endCmd_corr (s : State) (p : Page) (code reason tag b : Nat) : (endCmd s p code reason tag b).corr = s.corr := by
  rw [endCmd, raise_corr]; rfl
@[simp] theorem endCmd_passes (s : State) (p : Page) (code reason tag b : Nat) : (endCmd s p code reason tag b).passes = s.passes := by
  rw [endCmd, raise_passes]; rfl
@[simp] theorem endCmd_board (s : State) (p : Page) (code reason tag b : Nat) : (endCmd s p code reason tag b).board = s.board := by
  rw [endCmd, raise_board]; rfl
@[simp] theorem endCmd_hard (s : State) (p : Page) (code reason tag b : Nat) : (endCmd s p code reason tag b).hard = s.hard := by
  rw [endCmd, raise_hard]; rfl
@[simp] theorem endCmd_hubErr (s : State) (p : Page) (code reason tag b : Nat) : (endCmd s p code reason tag b).hubErr = s.hubErr := by
  rw [endCmd, raise_hubErr]; rfl
@[simp] theorem endCmd_wipes (s : State) (p : Page) (code reason tag b : Nat) : (endCmd s p code reason tag b).wipes = s.wipes := by
  rw [endCmd, raise_wipes]; rfl
@[simp] theorem endCmd_fuses (s : State) (p : Page) (code reason tag b : Nat) : (endCmd s p code reason tag b).fuses = s.fuses := by
  rw [endCmd, raise_fuses]; rfl
@[simp] theorem endCmd_answer (s : State) (p : Page) (code reason tag b : Nat) : (endCmd s p code reason tag b).answer = s.answer := by
  rw [endCmd, raise_answer]; rfl
@[simp] theorem endCmd_ep (s : State) (p : Page) (code reason tag b : Nat) : (endCmd s p code reason tag b).ep = s.ep := by
  rw [endCmd, raise_ep]; rfl
@[simp] theorem endCmd_free (s : State) (p : Page) (code reason tag b : Nat) : (endCmd s p code reason tag b).free = s.free := by
  rw [endCmd, raise_free]; rfl
@[simp] theorem getCore_endCmd (s : State) (p : Page) (code reason tag b : Nat) (u : Nat) : getCore (endCmd s p code reason tag b) u = getCore s u := by
  simp [getCore]
@[simp] theorem getDie_endCmd (s : State) (p : Page) (code reason tag b : Nat) (u : Nat) : getDie (endCmd s p code reason tag b) u = getDie s u := by
  simp [getDie]
@[simp] theorem getSlot_endCmd (s : State) (p : Page) (code reason tag b : Nat) (u : Nat) : getSlot (endCmd s p code reason tag b) u = getSlot s u := by
  simp [getSlot]
@[simp] theorem getPort_endCmd (s : State) (p : Page) (code reason tag b : Nat) (u : Nat) : getPort (endCmd s p code reason tag b) u = getPort s u := by
  simp [getPort]
@[simp] theorem rdByte_endCmd (s : State) (p : Page) (code reason tag b : Nat) (u : Nat) : rdByte (endCmd s p code reason tag b) u = rdByte s u := by
  simp [rdByte]
@[simp] theorem getCtx_endCmd (s : State) (p : Page) (code reason tag b : Nat) (d i : Nat) : getCtx (endCmd s p code reason tag b) d i = getCtx s d i := by
  simp [getCtx]

@[simp] theorem done_pending (s : State) (p : Page) (tag : Nat) : (done s p tag).pending = s.pending := endCmd_pending _ _ _ _ _ _
@[simp] theorem done_cores (s : State) (p : Page) (tag : Nat) : (done s p tag).cores = s.cores := endCmd_cores _ _ _ _ _ _
@[simp] theorem done_dies (s : State) (p : Page) (tag : Nat) : (done s p tag).dies = s.dies := endCmd_dies _ _ _ _ _ _
@[simp] theorem done_slots (s : State) (p : Page) (tag : Nat) : (done s p tag).slots = s.slots := endCmd_slots _ _ _ _ _ _
@[simp] theorem done_mem (s : State) (p : Page) (tag : Nat) : (done s p tag).mem = s.mem := endCmd_mem _ _ _ _ _ _
@[simp] theorem done_synd (s : State) (p : Page) (tag : Nat) : (done s p tag).synd = s.synd := endCmd_synd _ _ _ _ _ _
@[simp] theorem done_net (s : State) (p : Page) (tag : Nat) : (done s p tag).net = s.net := endCmd_net _ _ _ _ _ _
@[simp] theorem done_ports (s : State) (p : Page) (tag : Nat) : (done s p tag).ports = s.ports := endCmd_ports _ _ _ _ _ _
@[simp] theorem done_cmds (s : State) (p : Page) (tag : Nat) : (done s p tag).cmds = s.cmds := endCmd_cmds _ _ _ _ _ _
@[simp] theorem done_logN (s : State) (p : Page) (tag : Nat) : (done s p tag).logN = s.logN := endCmd_logN _ _ _ _ _ _
@[simp] theorem done_masks (s : State) (p : Page) (tag : Nat) : (done s p tag).masks = s.masks := endCmd_masks _ _ _ _ _ _
@[simp] theorem done_repairs (s : State) (p : Page) (tag : Nat) : (done s p tag).repairs = s.repairs := endCmd_repairs _ _ _ _ _ _
@[simp] theorem done_corr (s : State) (p : Page) (tag : Nat) : (done s p tag).corr = s.corr := endCmd_corr _ _ _ _ _ _
@[simp] theorem done_passes (s : State) (p : Page) (tag : Nat) : (done s p tag).passes = s.passes := endCmd_passes _ _ _ _ _ _
@[simp] theorem done_board (s : State) (p : Page) (tag : Nat) : (done s p tag).board = s.board := endCmd_board _ _ _ _ _ _
@[simp] theorem done_hard (s : State) (p : Page) (tag : Nat) : (done s p tag).hard = s.hard := endCmd_hard _ _ _ _ _ _
@[simp] theorem done_hubErr (s : State) (p : Page) (tag : Nat) : (done s p tag).hubErr = s.hubErr := endCmd_hubErr _ _ _ _ _ _
@[simp] theorem done_wipes (s : State) (p : Page) (tag : Nat) : (done s p tag).wipes = s.wipes := endCmd_wipes _ _ _ _ _ _
@[simp] theorem done_fuses (s : State) (p : Page) (tag : Nat) : (done s p tag).fuses = s.fuses := endCmd_fuses _ _ _ _ _ _
@[simp] theorem done_answer (s : State) (p : Page) (tag : Nat) : (done s p tag).answer = s.answer := endCmd_answer _ _ _ _ _ _
@[simp] theorem done_ep (s : State) (p : Page) (tag : Nat) : (done s p tag).ep = s.ep := endCmd_ep _ _ _ _ _ _
@[simp] theorem done_free (s : State) (p : Page) (tag : Nat) : (done s p tag).free = s.free := endCmd_free _ _ _ _ _ _
@[simp] theorem getCore_done (s : State) (p : Page) (tag : Nat) (u : Nat) : getCore (done s p tag) u = getCore s u := by
  simp [getCore]
@[simp] theorem getDie_done (s : State) (p : Page) (tag : Nat) (u : Nat) : getDie (done s p tag) u = getDie s u := by
  simp [getDie]
@[simp] theorem getSlot_done (s : State) (p : Page) (tag : Nat) (u : Nat) : getSlot (done s p tag) u = getSlot s u := by
  simp [getSlot]
@[simp] theorem getPort_done (s : State) (p : Page) (tag : Nat) (u : Nat) : getPort (done s p tag) u = getPort s u := by
  simp [getPort]
@[simp] theorem rdByte_done (s : State) (p : Page) (tag : Nat) (u : Nat) : rdByte (done s p tag) u = rdByte s u := by
  simp [rdByte]
@[simp] theorem getCtx_done (s : State) (p : Page) (tag : Nat) (d i : Nat) : getCtx (done s p tag) d i = getCtx s d i := by
  simp [getCtx]

@[simp] theorem reject_pending (s : State) (p : Page) (reason tag : Nat) : (reject s p reason tag).pending = s.pending := endCmd_pending _ _ _ _ _ _
@[simp] theorem reject_cores (s : State) (p : Page) (reason tag : Nat) : (reject s p reason tag).cores = s.cores := endCmd_cores _ _ _ _ _ _
@[simp] theorem reject_dies (s : State) (p : Page) (reason tag : Nat) : (reject s p reason tag).dies = s.dies := endCmd_dies _ _ _ _ _ _
@[simp] theorem reject_slots (s : State) (p : Page) (reason tag : Nat) : (reject s p reason tag).slots = s.slots := endCmd_slots _ _ _ _ _ _
@[simp] theorem reject_mem (s : State) (p : Page) (reason tag : Nat) : (reject s p reason tag).mem = s.mem := endCmd_mem _ _ _ _ _ _
@[simp] theorem reject_synd (s : State) (p : Page) (reason tag : Nat) : (reject s p reason tag).synd = s.synd := endCmd_synd _ _ _ _ _ _
@[simp] theorem reject_net (s : State) (p : Page) (reason tag : Nat) : (reject s p reason tag).net = s.net := endCmd_net _ _ _ _ _ _
@[simp] theorem reject_ports (s : State) (p : Page) (reason tag : Nat) : (reject s p reason tag).ports = s.ports := endCmd_ports _ _ _ _ _ _
@[simp] theorem reject_cmds (s : State) (p : Page) (reason tag : Nat) : (reject s p reason tag).cmds = s.cmds := endCmd_cmds _ _ _ _ _ _
@[simp] theorem reject_logN (s : State) (p : Page) (reason tag : Nat) : (reject s p reason tag).logN = s.logN := endCmd_logN _ _ _ _ _ _
@[simp] theorem reject_masks (s : State) (p : Page) (reason tag : Nat) : (reject s p reason tag).masks = s.masks := endCmd_masks _ _ _ _ _ _
@[simp] theorem reject_repairs (s : State) (p : Page) (reason tag : Nat) : (reject s p reason tag).repairs = s.repairs := endCmd_repairs _ _ _ _ _ _
@[simp] theorem reject_corr (s : State) (p : Page) (reason tag : Nat) : (reject s p reason tag).corr = s.corr := endCmd_corr _ _ _ _ _ _
@[simp] theorem reject_passes (s : State) (p : Page) (reason tag : Nat) : (reject s p reason tag).passes = s.passes := endCmd_passes _ _ _ _ _ _
@[simp] theorem reject_board (s : State) (p : Page) (reason tag : Nat) : (reject s p reason tag).board = s.board := endCmd_board _ _ _ _ _ _
@[simp] theorem reject_hard (s : State) (p : Page) (reason tag : Nat) : (reject s p reason tag).hard = s.hard := endCmd_hard _ _ _ _ _ _
@[simp] theorem reject_hubErr (s : State) (p : Page) (reason tag : Nat) : (reject s p reason tag).hubErr = s.hubErr := endCmd_hubErr _ _ _ _ _ _
@[simp] theorem reject_wipes (s : State) (p : Page) (reason tag : Nat) : (reject s p reason tag).wipes = s.wipes := endCmd_wipes _ _ _ _ _ _
@[simp] theorem reject_fuses (s : State) (p : Page) (reason tag : Nat) : (reject s p reason tag).fuses = s.fuses := endCmd_fuses _ _ _ _ _ _
@[simp] theorem reject_answer (s : State) (p : Page) (reason tag : Nat) : (reject s p reason tag).answer = s.answer := endCmd_answer _ _ _ _ _ _
@[simp] theorem reject_ep (s : State) (p : Page) (reason tag : Nat) : (reject s p reason tag).ep = s.ep := endCmd_ep _ _ _ _ _ _
@[simp] theorem reject_free (s : State) (p : Page) (reason tag : Nat) : (reject s p reason tag).free = s.free := endCmd_free _ _ _ _ _ _
@[simp] theorem getCore_reject (s : State) (p : Page) (reason tag : Nat) (u : Nat) : getCore (reject s p reason tag) u = getCore s u := by
  simp [getCore]
@[simp] theorem getDie_reject (s : State) (p : Page) (reason tag : Nat) (u : Nat) : getDie (reject s p reason tag) u = getDie s u := by
  simp [getDie]
@[simp] theorem getSlot_reject (s : State) (p : Page) (reason tag : Nat) (u : Nat) : getSlot (reject s p reason tag) u = getSlot s u := by
  simp [getSlot]
@[simp] theorem getPort_reject (s : State) (p : Page) (reason tag : Nat) (u : Nat) : getPort (reject s p reason tag) u = getPort s u := by
  simp [getPort]
@[simp] theorem rdByte_reject (s : State) (p : Page) (reason tag : Nat) (u : Nat) : rdByte (reject s p reason tag) u = rdByte s u := by
  simp [rdByte]
@[simp] theorem getCtx_reject (s : State) (p : Page) (reason tag : Nat) (d i : Nat) : getCtx (reject s p reason tag) d i = getCtx s d i := by
  simp [getCtx]

@[simp] theorem foreign_pending (s : State) (fn : Nat) : (foreign s fn).pending = s.pending := by
  rw [foreign, raise_pending]; rfl
@[simp] theorem foreign_cores (s : State) (fn : Nat) : (foreign s fn).cores = s.cores := by
  rw [foreign, raise_cores]; rfl
@[simp] theorem foreign_dies (s : State) (fn : Nat) : (foreign s fn).dies = s.dies := by
  rw [foreign, raise_dies]; rfl
@[simp] theorem foreign_slots (s : State) (fn : Nat) : (foreign s fn).slots = s.slots := by
  rw [foreign, raise_slots]; rfl
@[simp] theorem foreign_mem (s : State) (fn : Nat) : (foreign s fn).mem = s.mem := by
  rw [foreign, raise_mem]; rfl
@[simp] theorem foreign_synd (s : State) (fn : Nat) : (foreign s fn).synd = s.synd := by
  rw [foreign, raise_synd]; rfl
@[simp] theorem foreign_net (s : State) (fn : Nat) : (foreign s fn).net = s.net := by
  rw [foreign, raise_net]; rfl
@[simp] theorem foreign_ports (s : State) (fn : Nat) : (foreign s fn).ports = s.ports := by
  rw [foreign, raise_ports]; rfl
@[simp] theorem foreign_cmds (s : State) (fn : Nat) : (foreign s fn).cmds = s.cmds := by
  rw [foreign, raise_cmds]; rfl
@[simp] theorem foreign_logN (s : State) (fn : Nat) : (foreign s fn).logN = s.logN := by
  rw [foreign, raise_logN]; rfl
@[simp] theorem foreign_masks (s : State) (fn : Nat) : (foreign s fn).masks = s.masks := by
  rw [foreign, raise_masks]; rfl
@[simp] theorem foreign_repairs (s : State) (fn : Nat) : (foreign s fn).repairs = s.repairs := by
  rw [foreign, raise_repairs]; rfl
@[simp] theorem foreign_corr (s : State) (fn : Nat) : (foreign s fn).corr = s.corr := by
  rw [foreign, raise_corr]; rfl
@[simp] theorem foreign_passes (s : State) (fn : Nat) : (foreign s fn).passes = s.passes := by
  rw [foreign, raise_passes]; rfl
@[simp] theorem foreign_board (s : State) (fn : Nat) : (foreign s fn).board = s.board := by
  rw [foreign, raise_board]; rfl
@[simp] theorem foreign_hard (s : State) (fn : Nat) : (foreign s fn).hard = s.hard := by
  rw [foreign, raise_hard]; rfl
@[simp] theorem foreign_hubErr (s : State) (fn : Nat) : (foreign s fn).hubErr = s.hubErr := by
  rw [foreign, raise_hubErr]; rfl
@[simp] theorem foreign_wipes (s : State) (fn : Nat) : (foreign s fn).wipes = s.wipes := by
  rw [foreign, raise_wipes]; rfl
@[simp] theorem foreign_fuses (s : State) (fn : Nat) : (foreign s fn).fuses = s.fuses := by
  rw [foreign, raise_fuses]; rfl
@[simp] theorem foreign_answer (s : State) (fn : Nat) : (foreign s fn).answer = s.answer := by
  rw [foreign, raise_answer]; rfl
@[simp] theorem foreign_ep (s : State) (fn : Nat) : (foreign s fn).ep = s.ep := by
  rw [foreign, raise_ep]; rfl
@[simp] theorem foreign_free (s : State) (fn : Nat) : (foreign s fn).free = s.free := by
  rw [foreign, raise_free]; rfl
@[simp] theorem getCore_foreign (s : State) (fn : Nat) (u : Nat) : getCore (foreign s fn) u = getCore s u := by
  simp [getCore]
@[simp] theorem getDie_foreign (s : State) (fn : Nat) (u : Nat) : getDie (foreign s fn) u = getDie s u := by
  simp [getDie]
@[simp] theorem getSlot_foreign (s : State) (fn : Nat) (u : Nat) : getSlot (foreign s fn) u = getSlot s u := by
  simp [getSlot]
@[simp] theorem getPort_foreign (s : State) (fn : Nat) (u : Nat) : getPort (foreign s fn) u = getPort s u := by
  simp [getPort]
@[simp] theorem rdByte_foreign (s : State) (fn : Nat) (u : Nat) : rdByte (foreign s fn) u = rdByte s u := by
  simp [rdByte]
@[simp] theorem getCtx_foreign (s : State) (fn : Nat) (d i : Nat) : getCtx (foreign s fn) d i = getCtx s d i := by
  simp [getCtx]

@[simp] theorem rejectBusy_pending (s : State) (fn off : Nat) : (rejectBusy s fn off).pending = s.pending := by
  rw [rejectBusy, raise_pending]; rfl
@[simp] theorem rejectBusy_cores (s : State) (fn off : Nat) : (rejectBusy s fn off).cores = s.cores := by
  rw [rejectBusy, raise_cores]; rfl
@[simp] theorem rejectBusy_dies (s : State) (fn off : Nat) : (rejectBusy s fn off).dies = s.dies := by
  rw [rejectBusy, raise_dies]; rfl
@[simp] theorem rejectBusy_slots (s : State) (fn off : Nat) : (rejectBusy s fn off).slots = s.slots := by
  rw [rejectBusy, raise_slots]; rfl
@[simp] theorem rejectBusy_mem (s : State) (fn off : Nat) : (rejectBusy s fn off).mem = s.mem := by
  rw [rejectBusy, raise_mem]; rfl
@[simp] theorem rejectBusy_synd (s : State) (fn off : Nat) : (rejectBusy s fn off).synd = s.synd := by
  rw [rejectBusy, raise_synd]; rfl
@[simp] theorem rejectBusy_net (s : State) (fn off : Nat) : (rejectBusy s fn off).net = s.net := by
  rw [rejectBusy, raise_net]; rfl
@[simp] theorem rejectBusy_ports (s : State) (fn off : Nat) : (rejectBusy s fn off).ports = s.ports := by
  rw [rejectBusy, raise_ports]; rfl
@[simp] theorem rejectBusy_cmds (s : State) (fn off : Nat) : (rejectBusy s fn off).cmds = s.cmds := by
  rw [rejectBusy, raise_cmds]; rfl
@[simp] theorem rejectBusy_logN (s : State) (fn off : Nat) : (rejectBusy s fn off).logN = s.logN := by
  rw [rejectBusy, raise_logN]; rfl
@[simp] theorem rejectBusy_masks (s : State) (fn off : Nat) : (rejectBusy s fn off).masks = s.masks := by
  rw [rejectBusy, raise_masks]; rfl
@[simp] theorem rejectBusy_repairs (s : State) (fn off : Nat) : (rejectBusy s fn off).repairs = s.repairs := by
  rw [rejectBusy, raise_repairs]; rfl
@[simp] theorem rejectBusy_corr (s : State) (fn off : Nat) : (rejectBusy s fn off).corr = s.corr := by
  rw [rejectBusy, raise_corr]; rfl
@[simp] theorem rejectBusy_passes (s : State) (fn off : Nat) : (rejectBusy s fn off).passes = s.passes := by
  rw [rejectBusy, raise_passes]; rfl
@[simp] theorem rejectBusy_board (s : State) (fn off : Nat) : (rejectBusy s fn off).board = s.board := by
  rw [rejectBusy, raise_board]; rfl
@[simp] theorem rejectBusy_hard (s : State) (fn off : Nat) : (rejectBusy s fn off).hard = s.hard := by
  rw [rejectBusy, raise_hard]; rfl
@[simp] theorem rejectBusy_hubErr (s : State) (fn off : Nat) : (rejectBusy s fn off).hubErr = s.hubErr := by
  rw [rejectBusy, raise_hubErr]; rfl
@[simp] theorem rejectBusy_wipes (s : State) (fn off : Nat) : (rejectBusy s fn off).wipes = s.wipes := by
  rw [rejectBusy, raise_wipes]; rfl
@[simp] theorem rejectBusy_fuses (s : State) (fn off : Nat) : (rejectBusy s fn off).fuses = s.fuses := by
  rw [rejectBusy, raise_fuses]; rfl
@[simp] theorem rejectBusy_answer (s : State) (fn off : Nat) : (rejectBusy s fn off).answer = s.answer := by
  rw [rejectBusy, raise_answer]; rfl
@[simp] theorem rejectBusy_ep (s : State) (fn off : Nat) : (rejectBusy s fn off).ep = s.ep := by
  rw [rejectBusy, raise_ep]; rfl
@[simp] theorem rejectBusy_free (s : State) (fn off : Nat) : (rejectBusy s fn off).free = s.free := by
  rw [rejectBusy, raise_free]; rfl
@[simp] theorem getCore_rejectBusy (s : State) (fn off : Nat) (u : Nat) : getCore (rejectBusy s fn off) u = getCore s u := by
  simp [getCore]
@[simp] theorem getDie_rejectBusy (s : State) (fn off : Nat) (u : Nat) : getDie (rejectBusy s fn off) u = getDie s u := by
  simp [getDie]
@[simp] theorem getSlot_rejectBusy (s : State) (fn off : Nat) (u : Nat) : getSlot (rejectBusy s fn off) u = getSlot s u := by
  simp [getSlot]
@[simp] theorem getPort_rejectBusy (s : State) (fn off : Nat) (u : Nat) : getPort (rejectBusy s fn off) u = getPort s u := by
  simp [getPort]
@[simp] theorem rdByte_rejectBusy (s : State) (fn off : Nat) (u : Nat) : rdByte (rejectBusy s fn off) u = rdByte s u := by
  simp [rdByte]
@[simp] theorem getCtx_rejectBusy (s : State) (fn off : Nat) (d i : Nat) : getCtx (rejectBusy s fn off) d i = getCtx s d i := by
  simp [getCtx]

@[simp] theorem epochRefused_pending (s : State) (k : Nat) : (epochRefused s k).pending = s.pending := by
  rw [epochRefused, condition_pending]; rfl
@[simp] theorem epochRefused_cores (s : State) (k : Nat) : (epochRefused s k).cores = s.cores := by
  rw [epochRefused, condition_cores]; rfl
@[simp] theorem epochRefused_dies (s : State) (k : Nat) : (epochRefused s k).dies = s.dies := by
  rw [epochRefused, condition_dies]; rfl
@[simp] theorem epochRefused_slots (s : State) (k : Nat) : (epochRefused s k).slots = s.slots := by
  rw [epochRefused, condition_slots]; rfl
@[simp] theorem epochRefused_mem (s : State) (k : Nat) : (epochRefused s k).mem = s.mem := by
  rw [epochRefused, condition_mem]; rfl
@[simp] theorem epochRefused_synd (s : State) (k : Nat) : (epochRefused s k).synd = s.synd := by
  rw [epochRefused, condition_synd]; rfl
@[simp] theorem epochRefused_net (s : State) (k : Nat) : (epochRefused s k).net = s.net := by
  rw [epochRefused, condition_net]; rfl
@[simp] theorem epochRefused_ports (s : State) (k : Nat) : (epochRefused s k).ports = s.ports := by
  rw [epochRefused, condition_ports]; rfl
@[simp] theorem epochRefused_cmds (s : State) (k : Nat) : (epochRefused s k).cmds = s.cmds := by
  rw [epochRefused, condition_cmds]; rfl
@[simp] theorem epochRefused_logN (s : State) (k : Nat) : (epochRefused s k).logN = s.logN := by
  rw [epochRefused, condition_logN]; rfl
@[simp] theorem epochRefused_masks (s : State) (k : Nat) : (epochRefused s k).masks = s.masks := by
  rw [epochRefused, condition_masks]; rfl
@[simp] theorem epochRefused_repairs (s : State) (k : Nat) : (epochRefused s k).repairs = s.repairs := by
  rw [epochRefused, condition_repairs]; rfl
@[simp] theorem epochRefused_corr (s : State) (k : Nat) : (epochRefused s k).corr = s.corr := by
  rw [epochRefused, condition_corr]; rfl
@[simp] theorem epochRefused_passes (s : State) (k : Nat) : (epochRefused s k).passes = s.passes := by
  rw [epochRefused, condition_passes]; rfl
@[simp] theorem epochRefused_board (s : State) (k : Nat) : (epochRefused s k).board = s.board := by
  rw [epochRefused, condition_board]; rfl
@[simp] theorem epochRefused_hard (s : State) (k : Nat) : (epochRefused s k).hard = s.hard := by
  rw [epochRefused, condition_hard]; rfl
@[simp] theorem epochRefused_hubErr (s : State) (k : Nat) : (epochRefused s k).hubErr = s.hubErr := by
  rw [epochRefused, condition_hubErr]; rfl
@[simp] theorem epochRefused_wipes (s : State) (k : Nat) : (epochRefused s k).wipes = s.wipes := by
  rw [epochRefused, condition_wipes]; rfl
@[simp] theorem epochRefused_fuses (s : State) (k : Nat) : (epochRefused s k).fuses = s.fuses := by
  rw [epochRefused, condition_fuses]; rfl
@[simp] theorem epochRefused_answer (s : State) (k : Nat) : (epochRefused s k).answer = s.answer := by
  rw [epochRefused, condition_answer]; rfl
@[simp] theorem epochRefused_ep (s : State) (k : Nat) : (epochRefused s k).ep = s.ep := by
  rw [epochRefused, condition_ep]; rfl
@[simp] theorem epochRefused_free (s : State) (k : Nat) : (epochRefused s k).free = s.free := by
  rw [epochRefused, condition_free]; rfl
@[simp] theorem getCore_epochRefused (s : State) (k : Nat) (u : Nat) : getCore (epochRefused s k) u = getCore s u := by
  simp [getCore]
@[simp] theorem getDie_epochRefused (s : State) (k : Nat) (u : Nat) : getDie (epochRefused s k) u = getDie s u := by
  simp [getDie]
@[simp] theorem getSlot_epochRefused (s : State) (k : Nat) (u : Nat) : getSlot (epochRefused s k) u = getSlot s u := by
  simp [getSlot]
@[simp] theorem getPort_epochRefused (s : State) (k : Nat) (u : Nat) : getPort (epochRefused s k) u = getPort s u := by
  simp [getPort]
@[simp] theorem rdByte_epochRefused (s : State) (k : Nat) (u : Nat) : rdByte (epochRefused s k) u = rdByte s u := by
  simp [rdByte]
@[simp] theorem getCtx_epochRefused (s : State) (k : Nat) (d i : Nat) : getCtx (epochRefused s k) d i = getCtx s d i := by
  simp [getCtx]


/-! Ending a command. -/

/-- CMD_RESULT after a command has ended (R405). -/
theorem rd_endCmd_result (s : State) (p : Page) (code reason tag b : Nat) :
    rd (endCmd s p code reason tag b) p hRESULT = resultWord code reason tag % 2 ^ 32 := by
  rw [endCmd, rd_raise_ne _ _ (by simp [hRESULT, hEVT]), rd_wr]

/-- Another register than CMD_RESULT and EVT_STATUS after a command has ended. -/
theorem rd_endCmd_ne (s : State) (code reason tag b : Nat) {p q : Page} {o : Nat} (h : pageBase q + o ≠ pageBase p + hRESULT)
    (he : pageBase q + o ≠ pageBase p + hEVT) : rd (endCmd s p code reason tag b) q o = rd s q o := by
  rw [endCmd, rd_raise_ne _ _ he, rd_wr_ne _ _ h]

end Sys2Proof.Laws
end

