-- ==== Sys2Proof/Laws/Memory.lean ====
section
/-! SUPPORT. Laws/Memory.lean: the canonical form of memory under every memory operation, and what a byte reads after a
store. -/
namespace Sys2Proof.Laws
open Sys2Proof.Machine

/-- The memory at reset has the canonical form. -/
theorem reset_mem_wf : Memory.wf State.reset.mem = true := rfl

theorem wrByte_wf (s : State) (a : Nat) (b : Byte) (h : Memory.wf s.mem = true) : Memory.wf (wrByte s a b).mem = true :=
  twf_tset 0 _ _ _ h

theorem memClear_wf (s : State) (a n : Nat) (h : Memory.wf s.mem = true) : Memory.wf (memClear s a n).mem = true := by
  exact twf_tkeep (d := fun _ => (0 : Byte)) (fun k => decide (k < a ∨ a + n ≤ k)) s.mem h

theorem memWrite_wf : ∀ (bs : List Byte) (s : State) (a : Nat), Memory.wf s.mem = true → Memory.wf (memWrite s a bs).mem = true
  | [], _, _, h => h
  | b :: bs, s, a, h => memWrite_wf bs _ (a + 1) (wrByte_wf s a b h)

theorem flipBit_wf (s : State) (w n : Nat) (h : Memory.wf s.mem = true) : Memory.wf (flipBit s w n).mem = true := by
  unfold flipBit
  split
  · exact wrByte_wf _ _ _ h
  · exact h

@[simp] theorem logEntry_mem (s : State) (p : Page) (a b c : Nat) (u v : Bool) : (logEntry s p a b c u v).mem = s.mem := by
  unfold logEntry
  dsimp only
  split <;> rfl

@[simp] theorem countErr_mem (s : State) (p : Page) (a b c : Nat) (u v : Bool) : (countErr s p a b c u v).mem = s.mem := by
  simp [countErr]

@[simp] theorem addRepair_mem (s : State) (a b c d e f : Nat) : (addRepair s a b c d e f).mem = s.mem := by
  unfold addRepair
  split
  · rfl
  · split <;> simp

@[simp] theorem noteCorrection_mem (s : State) (w x n : Nat) (v : Bool) : (noteCorrection s w x n v).mem = s.mem := by
  simp [noteCorrection, apply_ite State.mem]

theorem readBad_wf (v : Bool) (e : Nat × Byte) (r : State × Bool) (h : Memory.wf r.1.mem = true) :
    Memory.wf (readBad v e r).1.mem = true := by
  unfold readBad
  dsimp only
  split
  · exact h
  · split
    · simp only [noteCorrection_mem, setSynd_mem]
      exact flipBit_wf _ _ _ (by simpa using h)
    · simpa using h

theorem foldl_wf {α β : Type} (f : State × β → α → State × β)
    (hf : ∀ r a, Memory.wf r.1.mem = true → Memory.wf (f r a).1.mem = true) (l : List α) (r : State × β)
    (h : Memory.wf r.1.mem = true) : Memory.wf (l.foldl f r).1.mem = true :=
  fold_keeps (P := fun r : State × β => Memory.wf r.1.mem = true) f hf l r h

theorem each_wf {α : Type} (f : α → State → State) (hf : ∀ a s, Memory.wf s.mem = true → Memory.wf (f a s).mem = true)
    (l : List α) (s : State) (h : Memory.wf s.mem = true) : Memory.wf (each l f s).mem = true :=
  fold_keeps (P := fun t : State => Memory.wf t.mem = true) _ (fun t a => hf a t) l s h

theorem checkRead_wf (s : State) (a n : Nat) (h : Memory.wf s.mem = true) : Memory.wf (checkRead s a n).1.mem = true :=
  foldl_wf _ (fun r e hr => readBad_wf false e r hr) _ _ h

theorem writeBad_wf (a n : Nat) (e : Nat × Byte) (s : State) (h : Memory.wf s.mem = true) :
    Memory.wf (writeBad a n e s).mem = true := by
  unfold writeBad
  split
  · exact h
  · dsimp only
    split
    · simpa using readBad_wf false e (s, false) h
    · exact readBad_wf false e (s, false) h

/-- A row that is logged for repair changes no memory. -/
theorem logRow_mem (s : State) (w : Nat) : (logRow s w).mem = s.mem := by
  unfold logRow addRepair; dsimp only; split <;> (split <;> [rfl; (split <;> [exact raise_mem _ _ _; rfl])])

/-- Words that fail for good change no byte. -/
theorem refail_mem (a n : Nat) (s : State) : (refail a n s).mem = s.mem :=
  each_keep State.mem _ (fun e s => by dsimp only; split <;> simp [logRow_mem]) _ _

/-- A store through the check keeps the canonical form. -/
theorem store_wf (s : State) (a : Nat) (bs : List Byte) (h : Memory.wf s.mem = true) :
    Memory.wf (store s a bs).mem = true :=
  (refail_mem _ _ _).symm ▸ memWrite_wf _ _ _ (each_wf _ (fun e t ht => writeBad_wf _ _ e t ht) _ _ h)

theorem storePoisoned_wf (s : State) (a : Nat) (bs : List Byte) (bad : List Nat) (h : Memory.wf s.mem = true) :
    Memory.wf (storePoisoned s a bs bad).mem = true :=
  each_wf (fun i s => setSynd s ((a + 8 * i) / 8) 3) (fun _ _ ht => ht) _ _ (store_wf _ _ _ h)

theorem storePieces_wf (k : Nat) : ∀ (ps : List (Nat × Nat)) (bs : List Byte) (s : State), Memory.wf s.mem = true →
    Memory.wf (storePieces k ps bs s).mem = true
  | [], _, _, h => h
  | _ :: ps, _, _, h => storePieces_wf k ps _ _ (store_wf _ _ _ h)

theorem coreStore_wf (s : State) (k : Nat) (ctx : Option Nat) (a : Nat) (bs : List Byte) (h : Memory.wf s.mem = true) :
    Memory.wf (coreStore s k ctx a bs).mem = true := storePieces_wf _ _ _ _ h

/-! Reading after a write of bytes. -/

theorem rdByte_memWrite_out (bs : List Byte) (s : State) (a x : Nat) (h : x < a ∨ a + bs.length ≤ x) :
    rdByte (memWrite s a bs) x = rdByte s x := by
  induction bs generalizing s a with
  | nil => rfl
  | cons b bs ih =>
    simp only [List.length_cons] at h
    rw [memWrite, ih _ _ (by omega), rdByte_wrByte_ne _ _ (by omega)]

theorem rdByte_memWrite_in (bs : List Byte) (s : State) (a i : Nat) (h : i < bs.length) :
    rdByte (memWrite s a bs) (a + i) = bs[i] := by
  induction bs generalizing s a i with
  | nil => simp at h
  | cons b bs ih =>
    rw [memWrite]
    cases i with
    | zero => rw [rdByte_memWrite_out _ _ _ _ (by omega)]; simp
    | succ i =>
      have := ih (wrByte s a b) (a + 1) i (by simpa using h)
      rw [show a + (i + 1) = a + 1 + i by omega, this]; rfl

/-- A range in which no word has an error reads without a change. -/
theorem checkRead_clean (s : State) (a n : Nat) (h : badWords s a n = []) : checkRead s a n = (s, false) := by
  simp [checkRead, h]

@[simp] theorem memWrite_hard : ∀ (bs : List Byte) (s : State) (a : Nat), (memWrite s a bs).hard = s.hard
  | [], _, _ => rfl
  | b :: bs, s, a => (memWrite_hard bs _ (a + 1)).trans (wrByte_hard s a b)

/-- A store over words without error and that do not fail for good writes its bytes and nothing else. -/
theorem store_clean (s : State) (a : Nat) (bs : List Byte) (h : badWords s a bs.length = []) (hh : hardWords s a bs.length = []) :
    store s a bs = memWrite s a bs := by
  have hm : hardWords (memWrite s a bs) a bs.length = [] := by unfold hardWords at hh ⊢; rw [memWrite_hard]; exact hh
  simp [store, refail, h, hm, each]

theorem hardWords_nil (s : State) (a n : Nat) (h : s.hard = []) : hardWords s a n = [] := by
  unfold hardWords; split <;> simp [h]

theorem badWords_nil (s : State) (a n : Nat) (h : s.synd = []) : badWords s a n = [] := by
  unfold badWords; split <;> simp [h]

end Sys2Proof.Laws
end

