-- ==== Sys2Proof/Laws/Issue.lean ====
section
/-! SUPPORT. Laws/Issue.lean: when a host write takes its effect, and what a core instruction does once it issues. -/
namespace Sys2Proof.Laws
open Sys2Proof.Machine
open Sys2Proof.Safety

/-! Host writes. -/

/-- A write that is admitted takes its effect. -/
theorem hostWrite_admitted (s : State) (fn : Nat) (p : Page) (o : Nat) (f : State → State) (h : Admitted s fn p) :
    hostWrite s fn p o f = f s := by
  obtain ⟨h1, h2, h3, h4, h5⟩ := h
  unfold hostWrite
  rcases h3 with h3 | h3
  · subst h3; simp [h1, h2, h4, h5]
  · simp [h1, h2, h3, h4, h5]

/-- What can become of a host write: nothing where the module does not hear the function or the page does not answer, a foreign access, a busy
page's refusal, or its effect. -/
theorem hostWrite_cases (s : State) (fn : Nat) (p : Page) (o : Nat) (f : State → State) :
    hostWrite s fn p o f = s ∨ hostWrite s fn p o f = foreign s fn ∨
    hostWrite s fn p o f = rejectBusy s fn (pageBase p + o) ∨ (Admitted s fn p ∧ hostWrite s fn p o f = f s) := by
  unfold hostWrite
  by_cases h1 : hears s fn = true
  · by_cases h2 : (!owns s fn p || (fn != 0 && layoutRuns s)) = true
    · simp [h1, h2]
    · by_cases h4 : answers s p = true
      · by_cases h5 : busy s p = true
        · simp [h1, h2, h4, h5]
        · refine .inr (.inr (.inr ⟨⟨h1, ?_, ?_, h4, by simpa using h5⟩, by simp [h1, h2, h4, h5]⟩))
          · simp at h2; exact h2.1
          · simp at h2; by_cases hf : fn = 0
            · exact .inl hf
            · exact .inr (h2.2 hf)
      · simp [h1, h2, h4]
  · simp [h1]

/-- A command's answer is its effect where that leaves the queue alone. -/
theorem answer_eq {s t : State} (h : t.pending = s.pending) : answer s t = .next t := by
  unfold answer; rw [← h]

/-! Core instructions. -/

theorem tdel_idem {α : Type} : ∀ (t : Tab α) (k : Nat), tfind t k = none → tdel t k = t
  | [], _, _ => rfl
  | (a, v) :: t, k, h => by
    by_cases hk : k = a
    · simp [tfind, hk] at h
    · simp only [tfind, hk, if_false] at h
      simp [tdel, hk, tdel_idem t k h]

theorem tdel_tins {α : Type} : ∀ (t : Tab α) (k : Nat) (x : α), tfind t k = none → tdel (tins t k x) k = t
  | [], k, x, _ => by simp [tins, tdel]
  | (a, v) :: t, k, x, h => by
    by_cases hk : k = a
    · simp [tfind, hk] at h
    · simp only [tfind, hk, if_false] at h
      by_cases hl : k < a
      · simp [tins, hl, tdel, hk, tdel_idem t k h]
      · simp [tins, hl, tdel, hk, tdel_tins t k x h]

theorem tdel_tset {α : Type} [DecidableEq α] (d : α) (t : Tab α) (k : Nat) (x : α) : tdel (tset d t k x) k = tdel t k := by
  by_cases hx : x = d
  · rw [tset, if_pos hx, tdel_idem _ _ (tfind_tdel_same t k)]
  · rw [tset, if_neg hx, tput, tdel_tins _ _ _ (tfind_tdel_same t k)]

/-- The second of two writes of one key is the one that stands. -/
@[simp] theorem tset_tset {α : Type} [DecidableEq α] (d : α) (t : Tab α) (k : Nat) (x y : α) :
    tset d (tset d t k x) k y = tset d t k y := by
  simp only [tset, tput]
  have := tdel_tset d t k x
  simp only [tset, tput] at this
  rw [this]

@[simp] theorem setCore_setCore (s : State) (k : Nat) (c e : Core) : setCore (setCore s k c) k e = setCore s k e := by
  simp [setCore]

/-- A legal word has an assigned opcode. -/
theorem assigned_of_legal {w : Nat} (h : wordLegal w = true) : assigned (opcodeOf w) = true := by
  unfold wordLegal at h
  dsimp only at h
  by_cases ha : assigned (opcodeOf w) = true
  · exact ha
  · simp [ha] at h

/-- A core that is ready takes its instruction's own effect. -/
theorem issue_ready {s : State} {id : CoreId} {r : Run} {w : Nat} (h : Ready s id r w) {op : Nat} (ho : opcodeOf w = op)
    (f : State → Nat → Core → Run → Nat → Eff) :
    issue s id op f = settle (cid id) r (getCore s (cid id)).pc op (f s (cid id) (getCore s (cid id)) r w) s := by
  have ha := assigned_of_legal h.legal
  have hn : (namesTask w && !r.narrow) = false := by
    rcases h.narrow with h1 | h1 <;> simp [h1]
  have hc := checkRead_clean s _ _ h.clean
  unfold issue
  simp only [h.task, h.goes, Bool.not_true, Bool.false_eq_true, if_false, hc, h.word, ho, bne_self_eq_false, Bool.and_false, h.legal,
    Bool.false_or, hn, h.parity]
  rw [if_neg (by have := h.inStore; omega)]

/-- Going on to the next word. -/
theorem settle_next (k : Nat) (r : Run) (pc op : Nat) (s t : State) :
    settle k r pc op (.next s) t = setCore s k { getCore s k with pc := pc + 1, stall := 0 } := rfl

end Sys2Proof.Laws
end

