-- ==== Sys2Proof/Laws/Halt.lean ====
section
/-! SUPPORT. Laws/Halt.lean: what halts, window faults, sample faults and program errors leave unchanged. -/
namespace Sys2Proof.Laws
open Sys2Proof.Machine
open Sys2Proof.Safety

@[simp] theorem answer_goesOn (s : State) (id : CoreId) (c : Core) : answer s (goesOn s id c) = .next (goesOn s id c) := rfl
@[simp] theorem answer_goesTo (s : State) (id : CoreId) (c : Core) (n : Nat) : answer s (goesTo s id c n) = .next (goesTo s id c n) :=
  rfl
@[simp] theorem answer_stalls (s : State) (id : CoreId) (n : Nat) : answer s (stalls s id n) = .next (stalls s id n) := rfl
@[simp] theorem answer_setCore (s : State) (k : Nat) (c : Core) : answer s (setCore s k c) = .next (setCore s k c) := rfl
@[simp] theorem answer_self (s : State) : answer s s = .next s := rfl

/-- An instruction that stalls changes COR.STALL and nothing else. -/
theorem settle_stall (id : CoreId) (r : Run) (pc op why : Nat) (s : State) :
    settle (cid id) r pc op (.stall why) s = stalls s id why := rfl

/-- t has every part of s but registers, slots, commands in progress, messages, function state, and the counter of open values, which a
halt draws from for the count that it stops. -/
structure Near (s t : State) : Prop where
  pending : t.pending = s.pending
  cores : t.cores = s.cores
  dies : t.dies = s.dies
  mem : t.mem = s.mem
  synd : t.synd = s.synd
  net : t.net = s.net
  ports : t.ports = s.ports
  logN : t.logN = s.logN
  masks : t.masks = s.masks
  repairs : t.repairs = s.repairs
  corr : t.corr = s.corr
  passes : t.passes = s.passes
  board : t.board = s.board
  hard : t.hard = s.hard
  answer : t.answer = s.answer

theorem Near.refl (s : State) : Near s s := ⟨rfl, rfl, rfl, rfl, rfl, rfl, rfl, rfl, rfl, rfl, rfl, rfl, rfl, rfl, rfl⟩

theorem Near.trans {s t u : State} (h : Near s t) (g : Near t u) : Near s u :=
  ⟨g.pending.trans h.pending, g.cores.trans h.cores, g.dies.trans h.dies, g.mem.trans h.mem, g.synd.trans h.synd,
    g.net.trans h.net, g.ports.trans h.ports, g.logN.trans h.logN, g.masks.trans h.masks, g.repairs.trans h.repairs,
    g.corr.trans h.corr, g.passes.trans h.passes, g.board.trans h.board, g.hard.trans h.hard, g.answer.trans h.answer⟩

theorem near_wr (s : State) (p : Page) (o v : Nat) : Near s (wr s p o v) := by constructor <;> rfl
theorem near_bump (s : State) (p : Page) (o v : Nat) : Near s (bump s p o v) := by constructor <;> rfl
theorem near_wrFld (s : State) (p : Page) (o a b v : Nat) : Near s (wrFld s p o a b v) := by constructor <;> rfl
theorem near_last (s : State) (p : Page) (c : Nat) : Near s (last s p c) := by constructor <;> rfl
theorem near_faultBit (s : State) (p : Page) (b : Bool) : Near s (faultBit s p b) := by constructor <;> rfl
theorem near_setPhase (s : State) (k v : Nat) : Near s (setPhase s k v) := by constructor <;> rfl
theorem near_setSlot (s : State) (k : Nat) (x : SlotSt) : Near s (setSlot s k x) := by constructor <;> rfl
theorem near_setFunc (s : State) (k : Nat) (x : FuncSt) : Near s (setFunc s k x) := by constructor <;> rfl
theorem near_startLong (s : State) (p : Page) (n : Nat) : Near s (startLong s p n) := by constructor <;> rfl

theorem near_raise (s : State) (p : Page) (b : Nat) : Near s (raise s p b) := by
  obtain ⟨ms, fs, e⟩ := raise_eq s p b
  rw [e]; constructor <;> rfl

theorem near_condition (s : State) (p : Page) (c b : Nat) : Near s (condition s p c b) :=
  (near_last s p c).trans (near_raise _ _ _)
theorem near_endCmd (s : State) (p : Page) (a b c d : Nat) : Near s (endCmd s p a b c d) :=
  (near_wr s p _ _).trans (near_raise _ _ _)
theorem near_done (s : State) (p : Page) (n : Nat) : Near s (done s p n) := near_endCmd _ _ _ _ _ _
theorem near_reject (s : State) (p : Page) (a n : Nat) : Near s (reject s p a n) := near_endCmd _ _ _ _ _ _
theorem near_foreign (s : State) (fn : Nat) : Near s (foreign s fn) := (near_bump s _ _ _).trans (near_raise _ _ _)
theorem near_rejectBusy (s : State) (fn o : Nat) : Near s (rejectBusy s fn o) :=
  ((near_bump s _ _ _).trans ((near_bump _ _ _ _).trans (near_wr _ _ _ _))).trans (near_raise _ _ _)

theorem near_finishLong (s : State) (p : Page) (a b c : Nat) : Near s (finishLong s p a b c) := by
  unfold finishLong
  split
  · constructor <;> rfl
  · exact Near.refl s

theorem near_each {α : Type} (f : α → State → State) (hf : ∀ a s, Near s (f a s)) (l : List α) (s : State) :
    Near s (each l f s) := fold_keeps (P := Near s) _ (fun t a ht => ht.trans (hf a t)) l s (Near.refl s)

theorem near_pauseDies (s : State) (k : Nat) (b : Bool) : Near s (pauseDies s k b) := near_each _ (fun _ _ => near_wrFld _ _ _ _ _ _) _ _

theorem near_ckpArmedEnds (s : State) (k a : Nat) : Near s (ckpArmedEnds s k a) := by
  unfold ckpArmedEnds
  split
  · exact (near_setSlot s _ _).trans ((near_wrFld _ _ _ _ _ _).trans ((near_wrFld _ _ _ _ _ _).trans (near_finishLong _ _ _ _ _)))
  · exact Near.refl s

theorem near_stopCount (s : State) (k : Nat) (n : Option Nat) : Near s (stopCount s k n) := by
  unfold stopCount; cases n <;> (constructor <;> rfl)

theorem near_showHalt (s : State) (k a b : Nat) (v : Bool) (d : Nat) : Near s (showHalt s k a b v d) := by
  unfold showHalt
  refine Near.trans ?_ (near_raise _ _ _)
  have h : Near s (ckpArmedEnds (pauseDies (setPhase (wr s (.tmt k) tmt_HALT_INFO (a + 256 * b + 1024 * b2n v + 4096 * d)) k 5)
      k true) k 4) := ((near_wr s _ _ _).trans ((near_setPhase _ _ _).trans (near_pauseDies _ _ _))).trans (near_ckpArmedEnds _ _ _)
  by_cases hb : b = 0
  · simp only [hb, if_true]
    simp only [hb] at h
    exact h.trans (near_last _ _ _)
  · simp only [hb, if_false]
    exact h

theorem near_haltSlot (s : State) (k a b : Nat) (v : Bool) (d : Nat) : Near s (haltSlot s k a b v d) := by
  unfold haltSlot
  split
  · exact Near.refl s
  · split
    · exact (near_stopCount s k none).trans (near_showHalt _ _ _ _ _ _)
    · exact near_showHalt _ _ _ _ _ _

theorem near_windowFault (s : State) (k a d : Nat) : Near s (windowFault s k a d) :=
  ((near_bump s _ _ _).trans (near_haltSlot _ _ _ _ _ _)).trans (near_raise _ _ _)

theorem near_sampleFault (s : State) (k a b c d : Nat) : Near s (sampleFault s k a b c d) := by
  unfold sampleFault
  extract_lets x t n first s1 s2 s3 s4
  have h : Near s s4 := (near_setSlot s _ _).trans ((near_wr _ _ _ _).trans ((near_wr _ _ _ _).trans (near_bump _ _ _ _)))
  split
  · exact h.trans (near_windowFault _ _ _ _)
  · exact h

/-- What the engine's part of a program error leaves. -/
theorem near_engineError (s : State) (d i a b : Nat) :
    Near (setCtx s d i { getCtx s d i with state := .halted }) (engineError s d i a b) := by
  unfold engineError
  exact (near_wr _ _ _ _).trans ((near_wr _ _ _ _).trans ((near_condition _ _ _ _).trans (near_haltSlot _ _ _ _ _ _)))

end Sys2Proof.Laws
end

