-- ==== Sys2Proof/Laws/Fields.lean ====
section
/-! SUPPORT. Laws/Fields.lean: reading a field after writing one, and the phase of a partition after a halt. -/
namespace Sys2Proof.Laws
open Sys2Proof.Machine

/-- A number in three parts: below a field, the field, above it. -/
theorem fld_split (x lo len : Nat) : x = x % 2 ^ lo + 2 ^ lo * (fld x lo len + 2 ^ len * (x / 2 ^ (lo + len))) := by
  have h1 : x >>> lo = x / 2 ^ lo := Nat.shiftRight_eq_div_pow x lo
  have h2 : x / 2 ^ (lo + len) = x / 2 ^ lo / 2 ^ len := by rw [Nat.pow_add, Nat.div_div_eq_div_mul]
  rw [fld, h1, h2, Nat.mod_add_div, Nat.mod_add_div]

/-- A field written: the parts beside it stay. -/
theorem setFld_split (x lo len v : Nat) :
    setFld x lo len v = x % 2 ^ lo + 2 ^ lo * (v % 2 ^ len + 2 ^ len * (x / 2 ^ (lo + len))) := by
  have h := fld_split x lo len
  unfold setFld
  rw [Nat.shiftLeft_eq, Nat.shiftLeft_eq]
  have hf : x >>> lo % 2 ^ len = fld x lo len := rfl
  rw [hf]
  generalize x / 2 ^ (lo + len) = hi at *
  generalize fld x lo len = m at *
  generalize x % 2 ^ lo = l at *
  subst h
  rw [Nat.mul_add, Nat.mul_add, Nat.mul_comm m, Nat.mul_comm (v % 2 ^ len)]
  omega

theorem fld_of_split (l lo len m hi : Nat) (hl : l < 2 ^ lo) (hm : m < 2 ^ len) :
    fld (l + 2 ^ lo * (m + 2 ^ len * hi)) lo len = m := by
  rw [fld, Nat.shiftRight_eq_div_pow, Nat.add_mul_div_left _ _ (Nat.two_pow_pos lo), Nat.div_eq_of_lt hl, Nat.zero_add,
    Nat.add_mul_mod_self_left, Nat.mod_eq_of_lt hm]

/-- The field that was written. -/
theorem fld_setFld (x lo len v : Nat) : fld (setFld x lo len v) lo len = v % 2 ^ len := by
  rw [setFld_split]
  exact fld_of_split _ _ _ _ _ (Nat.mod_lt _ (Nat.two_pow_pos lo)) (Nat.mod_lt _ (Nat.two_pow_pos len))

/-- A field that lies below the one written keeps its value. -/
theorem fld_setFld_below (x lo len v a n : Nat) (h : a + n ≤ lo) : fld (setFld x lo len v) a n = fld x a n := by
  have e : setFld x lo len v % 2 ^ lo = x % 2 ^ lo := by
    rw [setFld_split, Nat.add_mul_mod_self_left, Nat.mod_mod]
  have g : ∀ y, fld y a n = fld (y % 2 ^ lo) a n := by
    intro y
    have hp : 2 ^ lo = 2 ^ a * 2 ^ (lo - a) := by rw [← Nat.pow_add]; congr 1; omega
    rw [fld, fld, Nat.shiftRight_eq_div_pow, Nat.shiftRight_eq_div_pow, hp, Nat.mod_mul_right_div_self, Nat.mod_mod_of_dvd]
    exact Nat.pow_dvd_pow 2 (by omega)
  rw [g, e, ← g]

theorem setFld_lt (x lo len v : Nat) (h : x < 2 ^ 32) (hl : lo + len ≤ 32) : setFld x lo len v < 2 ^ 32 := by
  rw [setFld_split]
  have e : 2 ^ 32 = 2 ^ lo * (2 ^ len * 2 ^ (32 - lo - len)) := by
    rw [← Nat.pow_add, ← Nat.pow_add]; congr 1; omega
  have h1 : x / 2 ^ (lo + len) < 2 ^ (32 - lo - len) := by
    apply Nat.div_lt_of_lt_mul
    rw [← Nat.pow_add]
    have : lo + len + (32 - lo - len) = 32 := by omega
    rw [this]; exact h
  have h2 := Nat.mod_lt x (Nat.two_pow_pos lo)
  have h3 := Nat.mod_lt v (Nat.two_pow_pos len)
  have h4 : v % 2 ^ len + 2 ^ len * (x / 2 ^ (lo + len)) + 1 ≤ 2 ^ len * 2 ^ (32 - lo - len) := by
    have := Nat.mul_le_mul_left (2 ^ len) (Nat.succ_le_of_lt h1)
    rw [Nat.mul_succ] at this
    omega
  have h5 := Nat.mul_le_mul_left (2 ^ lo) h4
  rw [Nat.mul_succ] at h5
  rw [e]
  omega

/-- The field of a register that was written. -/
theorem rd_wrFld (s : State) (p : Page) (o lo len v : Nat) (hl : lo + len ≤ 32) :
    fld (rd (wrFld s p o lo len v) p o) lo len = v % 2 ^ len := by
  rw [wrFld, rd_wr, Nat.mod_eq_of_lt (setFld_lt _ _ _ _ (rd_lt s p o) hl), fld_setFld]

/-- A field of a register below the one that was written. -/
theorem rd_wrFld_below (s : State) (p : Page) (o lo len v a n : Nat) (hl : lo + len ≤ 32) (h : a + n ≤ lo) :
    fld (rd (wrFld s p o lo len v) p o) a n = fld (rd s p o) a n := by
  rw [wrFld, rd_wr, Nat.mod_eq_of_lt (setFld_lt _ _ _ _ (rd_lt s p o) hl), fld_setFld_below _ _ _ _ _ _ h]

/-- A register that a fold of field writes elsewhere leaves. -/
theorem rd_each_ne {α : Type} (f : α → State → State) (q : Page) (o : Nat) (hf : ∀ a s, rd (f a s) q o = rd s q o) (l : List α)
    (s : State) : rd (each l f s) q o = rd s q o := each_keep (fun s => rd s q o) f hf l s

@[simp] theorem rd_finishLong (s : State) (p : Page) (a b c : Nat) (q : Page) (o : Nat) : rd (finishLong s p a b c) q o = rd s q o := by
  unfold finishLong; split <;> rfl

theorem rd_pauseDies_ne (s : State) (k : Nat) (b : Bool) (q : Page) (o : Nat)
    (h : ∀ d, pageBase q + o ≠ pageBase (.tckR d) + tck_RX_STATE) : rd (pauseDies s k b) q o = rd s q o :=
  rd_each_ne _ _ _ (fun d _ => rd_wrFld_ne _ _ _ _ (h d)) _ _

theorem rd_ckpArmedEnds_ne (s : State) (k a : Nat) (q : Page) (o : Nat)
    (h : ∀ j, pageBase q + o ≠ pageBase (.ckp k) + (ckp_SLOT_n_STATE + 16 * j)) (h2 : pageBase q + o ≠ pageBase (.ckp k) + ckp_STATE) :
    rd (ckpArmedEnds s k a) q o = rd s q o := by
  unfold ckpArmedEnds
  split
  · rw [rd_finishLong, rd_wrFld_ne _ _ _ _ h2, rd_wrFld_ne _ _ _ _ (h _)]; rfl
  · rfl

/-- A partition that a halt reaches is HALTED (R258). -/
theorem phase_haltSlot (s : State) (k a b : Nat) (v : Bool) (d : Nat) : phase (haltSlot s k a b v d) k = 5 := by
  unfold haltSlot
  split
  · assumption
  · have key : ∀ t : State, phase t k = 5 → phase (pauseDies t k true) k = 5 := by
      intro t ht
      unfold phase at *
      rw [rd_pauseDies_ne]
      · exact ht
      · intro d; simp [pageBase, dieBase, tck_PHASE, tck_RX_STATE]; omega
    have key2 : ∀ t : State, phase t k = 5 → phase (ckpArmedEnds t k 4) k = 5 := by
      intro t ht
      unfold phase at *
      rw [rd_ckpArmedEnds_ne]
      · exact ht
      · intro j; simp [pageBase, tck_PHASE, ckp_SLOT_n_STATE]; omega
      · simp [pageBase, tck_PHASE, ckp_STATE]; omega
    have key3 : ∀ t : State, phase (setPhase t k 5) k = 5 := by
      intro t; unfold phase setPhase; rw [rd_wrFld _ _ _ _ _ _ (by omega)]; decide
    have key4 : ∀ t : State, phase t k = 5 → phase (raise t (.tmt k) 1) k = 5 := by
      intro t ht
      unfold phase at *
      rw [rd_raise_ne]
      · exact ht
      · simp [pageBase, tck_PHASE, hEVT]; omega
    have key5 : ∀ t : State, phase t k = 5 → phase (last t (.tmt k) a) k = 5 := by
      intro t ht
      unfold phase at *
      rw [last, rd_wrFld_ne]
      · exact ht
      · simp [pageBase, tck_PHASE, hSTATUS]; omega
    unfold showHalt
    apply key4
    by_cases hb : b = 0
    · rw [if_pos hb]; exact key5 _ (key2 _ (key _ (key3 _)))
    · rw [if_neg hb]; exact key2 _ (key _ (key3 _))

end Sys2Proof.Laws
end

