-- ==== Sys2Proof/Laws/Flits.lean ====
section
/-! SUPPORT. Laws/Flits.lean: byte strings that spell a number, the bounds of a CRC, and that the flits a port forms are sound. -/
namespace Sys2Proof.Machine

@[simp] theorem length_toBytes : ∀ n x : Nat, (toBytes n x).length = n
  | 0, _ => rfl
  | n + 1, x => congrArg (· + 1) (length_toBytes n (x / 256))

theorem ofBytes_toBytes : ∀ n x : Nat, ofBytes (toBytes n x) = x % 256 ^ n
  | 0, x => by simp [toBytes, ofBytes, Nat.mod_one]
  | n + 1, x => by
    rw [toBytes, ofBytes, ofBytes_toBytes n, BitVec.toNat_ofNat, show 256 ^ (n + 1) = 256 * 256 ^ n by rw [Nat.pow_succ, Nat.mul_comm], Nat.mod_mul]

/-- A number placed between two byte strings reads back. -/
theorem bytesAt_between (a b : List Byte) (n x : Nat) : bytesAt (a ++ toBytes n x ++ b) a.length n = x % 256 ^ n := by
  rw [bytesAt, List.append_assoc, List.drop_left, List.take_append_of_le_length (by simp), List.take_of_length_le (by simp),
    ofBytes_toBytes]

theorem crcBit_lt (poly c : Nat) (n : Nat) (hp : poly < 2 ^ n) (hc : c < 2 ^ n) : crcBit poly c < 2 ^ n := by
  have hd : c / 2 < 2 ^ n := Nat.lt_of_le_of_lt (Nat.div_le_self c 2) hc
  unfold crcBit
  split
  · exact Nat.xor_lt_two_pow hd hp
  · exact hd

theorem crcBytes_lt (poly n : Nat) (hp : poly < 2 ^ n) (hn : 8 ≤ n) (bs : List Byte) (c : Nat) (hc : c < 2 ^ n) :
    crcBytes poly bs c < 2 ^ n := by
  induction bs generalizing c with
  | nil => exact hc
  | cons b bs ih =>
    refine ih _ ?_
    have hx : c ^^^ b.toNat < 2 ^ n := Nat.xor_lt_two_pow hc (Nat.lt_of_lt_of_le b.isLt (Nat.pow_le_pow_right (by decide) hn))
    have h8 : ∀ (l : List Nat) x, x < 2 ^ n → l.foldl (fun s _ => crcBit poly s) x < 2 ^ n := by
      intro l
      induction l with
      | nil => exact fun _ h => h
      | cons _ l ih => exact fun x h => ih _ (crcBit_lt poly x n hp h)
    exact h8 _ _ hx

theorem crc32_lt (bs : List Byte) : crc32 bs < 2 ^ 32 :=
  Nat.xor_lt_two_pow (crcBytes_lt _ 32 (by decide) (by decide) bs _ (by decide)) (by decide)

/-- R301: 252 bytes and a CRC field are a sound flit exactly where the field is their CRC. -/
theorem flGood_append (g : List Byte) (n : Nat) (h : g.length = 252) (hn : n < 2 ^ 32) :
    flGood (g ++ toBytes 4 n) = decide (n = crc32 g) := by
  have hb := bytesAt_between g [] 4 n
  rw [List.append_nil, h, Nat.mod_eq_of_lt (show n < 256 ^ 4 from hn)] at hb
  have ht : (g ++ toBytes 4 n).take 252 = g := by rw [← h, List.take_left]
  have hl : (g ++ toBytes 4 n).length = 256 := by simp [h]
  rw [flGood, hb, ht, hl]
  by_cases e : n = crc32 g <;> simp [e]

/-- R301: a flit that a port forms of a payload that it can carry passes the check of its receiver. -/
theorem flGood_flitBytes (s : State) (p : Nat) (x : PortSt) (vc cls seq credit : Nat) (hb nak : Bool) (pl : List Byte)
    (h : pl.length ≤ 242) : flGood (flitBytes s p x vc cls seq credit hb nak pl) = true := by
  simp only [flitBytes]
  rw [flGood_append _ _ (by simp [flitRoom]; omega) (crc32_lt _), decide_eq_true_eq]

end Sys2Proof.Machine
end

