-- ==== Sys2Proof/Laws/Window.lean ====
section
/-! SUPPORT. Laws/Window.lean: the pages of the register window do not overlap, so a write to one leaves the others. -/
namespace Sys2Proof.Laws
open Sys2Proof.Machine

theorem pageBase_aligned (p : Page) : pageBase p % 0x1000 = 0 := by
  cases p <;> simp only [pageBase, dieBase] <;> omega

/-- The page of an offset is that of its 4 KiB block. -/
theorem pageOf_block (a b : Nat) (h : a / 0x1000 = b / 0x1000) : pageOf a = pageOf b := by simp only [pageOf, h]

/-- Every offset of a page of the window names that page. -/
theorem pageOf_add (p : Page) (o : Nat) (h : pageOf (pageBase p) = some p) (ho : o < 0x1000) : pageOf (pageBase p + o) = some p := by
  have e := pageBase_aligned p
  rw [← h]
  exact pageOf_block _ _ (by omega)

/-- Two offsets of pages of the window are one only if page and offset are. -/
theorem offset_inj {p q : Page} {o u : Nat} (hp : pageOf (pageBase p) = some p) (hq : pageOf (pageBase q) = some q)
    (ho : o < 0x1000) (hu : u < 0x1000) (h : pageBase p + o = pageBase q + u) : p = q ∧ o = u := by
  have e := pageOf_add p o hp ho
  rw [h, pageOf_add q u hq hu] at e
  cases e
  exact ⟨rfl, by omega⟩

/-- A write to one page leaves every other page. -/
theorem rd_wr_page (s : State) {p q : Page} {o u : Nat} (v : Nat) (hp : pageOf (pageBase p) = some p) (hq : pageOf (pageBase q) = some q)
    (ho : o < 0x1000) (hu : u < 0x1000) (h : p ≠ q) : rd (wr s p o v) q u = rd s q u :=
  rd_wr_ne s v (fun e => h (offset_inj hq hp hu ho e).1.symm)

theorem page_tckG (k : Fin 8) : pageOf (pageBase (.tckG k)) = some (.tckG k) := by revert k; decide
theorem page_tmt (i : Fin 9) : pageOf (pageBase (.tmt i)) = some (.tmt i) := by revert i; decide
theorem page_clv (k : Fin 8) : pageOf (pageBase (.clv k)) = some (.clv k) := by revert k; decide
theorem page_ckp (k : Fin 8) : pageOf (pageBase (.ckp k)) = some (.ckp k) := by revert k; decide
theorem page_kld (i : Fin 9) : pageOf (pageBase (.kld i)) = some (.kld i) := by revert i; decide
theorem page_pcx (i : Fin 9) : pageOf (pageBase (.pcx i)) = some (.pcx i) := by revert i; decide
theorem page_fld (i : Fin 24) : pageOf (pageBase (.fld i)) = some (.fld i) := by revert i; decide
theorem page_tke (d : Fin 8) : pageOf (pageBase (.tke d)) = some (.tke d) := by revert d; decide
theorem page_stm (d : Fin 8) : pageOf (pageBase (.stm d)) = some (.stm d) := by revert d; decide
theorem page_gch (d : Fin 8) : pageOf (pageBase (.gch d)) = some (.gch d) := by revert d; decide
theorem page_mem (d : Fin 8) : pageOf (pageBase (.mem d)) = some (.mem d) := by revert d; decide
theorem page_pgt (d : Fin 8) : pageOf (pageBase (.pgt d)) = some (.pgt d) := by revert d; decide
theorem page_smp (d : Fin 8) : pageOf (pageBase (.smp d)) = some (.smp d) := by revert d; decide
theorem page_scb (d : Fin 8) : pageOf (pageBase (.scb d)) = some (.scb d) := by revert d; decide
theorem page_wip (d : Fin 8) : pageOf (pageBase (.wip d)) = some (.wip d) := by revert d; decide
theorem page_thm (d : Fin 8) : pageOf (pageBase (.thm d)) = some (.thm d) := by revert d; decide
theorem page_tckR (d : Fin 8) : pageOf (pageBase (.tckR d)) = some (.tckR d) := by revert d; decide
theorem page_wkc (d : Fin 8) (i : Fin 4) : pageOf (pageBase (.wkc d i)) = some (.wkc d i) := by revert d i; decide
theorem page_trc (d : Fin 8) (t : Fin 24) : pageOf (pageBase (.trc d t)) = some (.trc d t) := by revert d t; decide

/-- The page of a core site lies in the window. -/
theorem page_cor (d site : Nat) (hd : d < 8) (hs : site < 384) : pageOf (pageBase (.cor d site)) = some (.cor d site) := by
  have e : pageBase (.cor d site) / 0x1000 = 0x1000 + d * 0x200 + 0x80 + site := by simp only [pageBase, dieBase]; omega
  have e1 : (0x1000 + d * 0x200 + 0x80 + site - 0x1000) / 0x200 = d := by omega
  have e2 : (0x1000 + d * 0x200 + 0x80 + site - 0x1000) % 0x200 = 0x80 + site := by omega
  simp only [pageOf, e, e1, e2]
  repeat rw [if_neg (by omega)]
  rw [if_pos (by omega)]
  repeat rw [if_neg (by omega)]
  rw [if_pos (by omega), Nat.add_sub_cancel_left]

end Sys2Proof.Laws
end

