-- ==== Sys2Proof/Laws/PerInstr.lean ====
section
/-! SUPPORT. Laws/PerInstr.lean: the page that a command names lies in the register window, constructor by constructor. -/
namespace Sys2Proof.Laws
open Sys2Proof.Machine Sys2Proof.Safety

namespace PageInWindow

/-- The page of a command that is a write of a register is a page of the window. -/
def Statement (i : Instr) : Prop := ∀ fn p, commandPage i = some (fn, p) → ∃ off, pageOf off = some p

theorem of_none {i : Instr} (h : commandPage i = none) : Statement i := fun _ _ e => by rw [h] at e; cases e

theorem of_page {i : Instr} {fn : Func} {p : Page} (h : commandPage i = some (fn, p)) (w : pageOf (pageBase p) = some p) : Statement i :=
  fun _ _ e => by rw [h] at e; cases e; exact ⟨_, w⟩

theorem of_off {i : Instr} {fn : Func} {off : Nat} (h : commandPage i = (pageOf off).map (fun p => (fn, p))) : Statement i :=
  fun _ p e => by
    rw [h] at e
    cases w : pageOf off with
    | none => rw [w] at e; cases e
    | some q => rw [w] at e; cases e; exact ⟨off, w⟩

theorem page_tmt8 (k : Fin 8) : pageOf (pageBase (.tmt k)) = some (.tmt k) := by revert k; decide
theorem page_port (k : Fin 16) : pageOf (pageBase (.fld k)) = some (.fld k) := by revert k; decide
theorem page_site (c : CoreId) : pageOf (pageBase (corPage (cid c))) = some (corPage (cid c)) := by
  have h := c.site.isLt
  have g := c.die.isLt
  unfold corPage cid
  exact page_cor _ _ (by omega) (by omega)

theorem li (c : CoreId) : Statement (.li c) := of_none rfl
theorem add (c : CoreId) : Statement (.add c) := of_none rfl
theorem sub (c : CoreId) : Statement (.sub c) := of_none rfl
theorem and (c : CoreId) : Statement (.and c) := of_none rfl
theorem or (c : CoreId) : Statement (.or c) := of_none rfl
theorem shl (c : CoreId) : Statement (.shl c) := of_none rfl
theorem shr (c : CoreId) : Statement (.shr c) := of_none rfl
theorem cmp (c : CoreId) : Statement (.cmp c) := of_none rfl
theorem br (c : CoreId) : Statement (.br c) := of_none rfl
theorem bz (c : CoreId) : Statement (.bz c) := of_none rfl
theorem bnz (c : CoreId) : Statement (.bnz c) := of_none rfl
theorem call (c : CoreId) : Statement (.call c) := of_none rfl
theorem ret (c : CoreId) : Statement (.ret c) := of_none rfl
theorem vld (c : CoreId) : Statement (.vld c) := of_none rfl
theorem vst (c : CoreId) : Statement (.vst c) := of_none rfl
theorem vadd (c : CoreId) : Statement (.vadd c) := of_none rfl
theorem vmul (c : CoreId) : Statement (.vmul c) := of_none rfl
theorem vmax (c : CoreId) : Statement (.vmax c) := of_none rfl
theorem vfma (c : CoreId) : Statement (.vfma c) := of_none rfl
theorem vred (c : CoreId) : Statement (.vred c) := of_none rfl
theorem vexp (c : CoreId) : Statement (.vexp c) := of_none rfl
theorem vrsq (c : CoreId) : Statement (.vrsq c) := of_none rfl
theorem vtanh (c : CoreId) : Statement (.vtanh c) := of_none rfl
theorem vcvt (c : CoreId) : Statement (.vcvt c) := of_none rfl
theorem latch (c : CoreId) : Statement (.latch c) := of_none rfl
theorem latchBegin (c : CoreId) : Statement (.latchBegin c) := of_none rfl
theorem stream (c : CoreId) : Statement (.stream c) := of_none rfl
theorem streamFill (c : CoreId) : Statement (.streamFill c) := of_none rfl
theorem streamBegin (c : CoreId) : Statement (.streamBegin c) := of_none rfl
theorem merge (c : CoreId) : Statement (.merge c) := of_none rfl
theorem openOp (c : CoreId) : Statement (.openOp c) := of_none rfl
theorem openBegin (c : CoreId) : Statement (.openBegin c) := of_none rfl
theorem chk (c : CoreId) : Statement (.chk c) := of_none rfl
theorem chkBegin (c : CoreId) : Statement (.chkBegin c) := of_none rfl
theorem drain (c : CoreId) : Statement (.drain c) := of_none rfl
theorem drainBegin (c : CoreId) : Statement (.drainBegin c) := of_none rfl
theorem send (c : CoreId) : Statement (.send c) := of_none rfl
theorem sendTransmit (c : CoreId) : Statement (.sendTransmit c) := of_none rfl
theorem recv (c : CoreId) : Statement (.recv c) := of_none rfl
theorem steer (c : CoreId) : Statement (.steer c) := of_none rfl
theorem claim (c : CoreId) : Statement (.claim c) := of_none rfl
theorem wait (c : CoreId) : Statement (.wait c) := of_none rfl
theorem signal (c : CoreId) : Statement (.signal c) := of_none rfl
theorem fence (c : CoreId) : Statement (.fence c) := of_none rfl
theorem fenceComplete (c : CoreId) : Statement (.fenceComplete c) := of_none rfl
theorem endOp (c : CoreId) : Statement (.endOp c) := of_none rfl
theorem yield (c : CoreId) : Statement (.yield c) := of_none rfl
theorem dataTokenArrive (n : Nat) : Statement (.dataTokenArrive n) := of_none rfl
theorem controlTokenArrive (n : Nat) : Statement (.controlTokenArrive n) := of_none rfl
theorem signalTokenArrive (n : Nat) : Statement (.signalTokenArrive n) := of_none rfl
theorem claimRequest (n : Nat) : Statement (.claimRequest n) := of_none rfl
theorem claimResponse (n : Nat) : Statement (.claimResponse n) := of_none rfl
theorem taskDispatch (d : Die) (l : Fin 360) : Statement (.taskDispatch d l) := of_none rfl
theorem dispatch (n : Nat) : Statement (.dispatch n) := of_none rfl
theorem taskResume (n : Nat) : Statement (.taskResume n) := of_none rfl
theorem ended (n : Nat) : Statement (.ended n) := of_none rfl
theorem yielded (n : Nat) : Statement (.yielded n) := of_none rfl
theorem taskDiscard (n : Nat) : Statement (.taskDiscard n) := of_none rfl
theorem confirm (n : Nat) : Statement (.confirm n) := of_none rfl
theorem taskCommit (n : Nat) : Statement (.taskCommit n) := of_none rfl
theorem depSatisfy (n : Nat) : Statement (.depSatisfy n) := of_none rfl
theorem depStart (n : Nat) : Statement (.depStart n) := of_none rfl
theorem depCommit (n : Nat) : Statement (.depCommit n) := of_none rfl
theorem depDiscard (n : Nat) : Statement (.depDiscard n) := of_none rfl
theorem depFault (n : Nat) : Statement (.depFault n) := of_none rfl
theorem deadlineMiss (d : Die) (i : BitVec 13) : Statement (.deadlineMiss d i) := of_none rfl
theorem dieDone (d : Die) (cycles : BitVec 22) : Statement (.dieDone d cycles) := of_none rfl
theorem tickDoneReceive (n : Nat) : Statement (.tickDoneReceive n) := of_none rfl
theorem tickMarkerEmit (k : Slot) (extra : Nat) : Statement (.tickMarkerEmit k extra) := of_none rfl
theorem markerRelay (n : Nat) : Statement (.markerRelay n) := of_none rfl
theorem tickStart (d : Die) : Statement (.tickStart d) := of_none rfl
theorem tickOverrun (k : Slot) : Statement (.tickOverrun k) := of_none rfl
theorem stretchLimitExpiry (k : Slot) : Statement (.stretchLimitExpiry k) := of_none rfl
theorem markerMissed (k : Slot) : Statement (.markerMissed k) := of_none rfl
theorem armed (n : Nat) : Statement (.armed n) := of_none rfl
theorem pause (n : Nat) : Statement (.pause n) := of_none rfl
theorem tickResume (n : Nat) : Statement (.tickResume n) := of_none rfl
theorem stopComplete (k : Slot) : Statement (.stopComplete k) := of_none rfl
theorem start (fn : Func) (k : Slot) (tag : BitVec 16) : Statement (.start fn k tag) := of_page rfl (page_tckG k)
theorem stop : Statement (.stop fn k tag) := of_page rfl (page_tckG k)
theorem epochSet (fn : Func) (k : Slot) (tag : BitVec 16) : Statement (.epochSet fn k tag) := of_page rfl (page_tckG k)
theorem tckCalibrate (fn : Func) (k : Slot) (tag : BitVec 16) : Statement (.tckCalibrate fn k tag) := of_page rfl (page_tckG k)
theorem submit (fn : Func) (d : Die) (tag : BitVec 16) : Statement (.submit fn d tag) := of_page rfl (page_tke d)
theorem coreSwap (fn : Func) (d : Die) (t : Fin 24) (tag : BitVec 16) : Statement (.coreSwap fn d t tag) :=
  of_page rfl (page_trc d t)
theorem coreSwapApply (d : Die) (t : Fin 24) : Statement (.coreSwapApply d t) := of_none rfl
theorem load (fn : Func) (k : Slot) (im : Image) (tag : BitVec 16) : Statement (.load fn k im tag) := of_page rfl (page_tmt8 k)
theorem halt (fn : Func) (k : Slot) (tag : BitVec 16) : Statement (.halt fn k tag) := of_page rfl (page_tmt8 k)
theorem resume (fn : Func) (k : Slot) (tag : BitVec 16) : Statement (.resume fn k tag) := of_page rfl (page_tmt8 k)
theorem ctxSave (fn : Func) (k : Slot) (tag : BitVec 16) : Statement (.ctxSave fn k tag) := of_page rfl (page_tmt8 k)
theorem ctxRestore (fn : Func) (k : Slot) (tag : BitVec 16) : Statement (.ctxRestore fn k tag) := of_page rfl (page_tmt8 k)
theorem wipe (fn : Func) (k : Slot) (tag : BitVec 16) : Statement (.wipe fn k tag) := of_page rfl (page_tmt8 k)
theorem layout (fn : Func) (tag : BitVec 16) : Statement (.layout fn tag) := of_page rfl rfl
theorem timetableEntryEnd (k : Slot) : Statement (.timetableEntryEnd k) := of_none rfl
theorem idleEntryExpiry (k : Slot) : Statement (.idleEntryExpiry k) := of_none rfl
theorem preemptTimeout (c : CoreId) : Statement (.preemptTimeout c) := of_none rfl
theorem saveBegin (k : Slot) : Statement (.saveBegin k) := of_none rfl
theorem samplerSample (d : Die) (links : List Nat) : Statement (.samplerSample d links) := of_none rfl
theorem clear (fn : Func) (d : Die) (tag : BitVec 16) : Statement (.clear fn d tag) := of_page rfl (page_smp d)
theorem init (fn : Func) (d : Die) (tag : BitVec 16) : Statement (.init fn d tag) := of_page rfl (page_pgt d)
theorem region (fn : Func) (d : Die) (tag : BitVec 16) : Statement (.region fn d tag) := of_page rfl (page_pgt d)
theorem map (fn : Func) (d : Die) (tag : BitVec 16) : Statement (.map fn d tag) := of_page rfl (page_pgt d)
theorem unmap (fn : Func) (d : Die) (tag : BitVec 16) : Statement (.unmap fn d tag) := of_page rfl (page_pgt d)
theorem attr (fn : Func) (d : Die) (tag : BitVec 16) : Statement (.attr fn d tag) := of_page rfl (page_pgt d)
theorem migrate (fn : Func) (d : Die) (tag : BitVec 16) : Statement (.migrate fn d tag) := of_page rfl (page_pgt d)
theorem walk (fn : Func) (d : Die) (tag : BitVec 16) : Statement (.walk fn d tag) := of_page rfl (page_pgt d)
theorem pool (fn : Func) (d : Die) (tag : BitVec 16) : Statement (.pool fn d tag) := of_page rfl (page_pgt d)
theorem quota (fn : Func) (d : Die) (tag : BitVec 16) : Statement (.quota fn d tag) := of_page rfl (page_pgt d)
theorem migratorSweep (k : Slot) : Statement (.migratorSweep k) := of_none rfl
theorem demotion (k : Slot) : Statement (.demotion k) := of_none rfl
theorem pageSwitch (k : Slot) (vpn : BitVec 32) : Statement (.pageSwitch k vpn) := of_none rfl
theorem memCalibrate (fn : Func) (d : Die) (tag : BitVec 16) : Statement (.memCalibrate fn d tag) := of_page rfl (page_mem d)
theorem stmArm (fn : Func) (d : Die) (tag : BitVec 16) : Statement (.stmArm fn d tag) := of_page rfl (page_stm d)
theorem gchArm (fn : Func) (d : Die) (tag : BitVec 16) : Statement (.gchArm fn d tag) := of_page rfl (page_gch d)
theorem stmRestart (fn : Func) (d : Die) (tag : BitVec 16) : Statement (.stmRestart fn d tag) := of_page rfl (page_stm d)
theorem gchRestart (fn : Func) (d : Die) (tag : BitVec 16) : Statement (.gchRestart fn d tag) := of_page rfl (page_gch d)
theorem invalidate (fn : Func) (d : Die) (tag : BitVec 16) : Statement (.invalidate fn d tag) := of_page rfl (page_gch d)
theorem streamArmStart (d : Die) (i : BitVec 10) : Statement (.streamArmStart d i) := of_none rfl
theorem gatherArmStart (d : Die) (i : BitVec 10) : Statement (.gatherArmStart d i) := of_none rfl
theorem armComplete (d : Die) (g : Bool) (i : BitVec 10) : Statement (.armComplete d g i) := of_none rfl
theorem post (fn : Func) (k : Slot) (tag : BitVec 16) : Statement (.post fn k tag) := of_page rfl (page_clv k)
theorem groupWrite (fn : Func) (k : Slot) (tag : BitVec 16) : Statement (.groupWrite fn k tag) := of_page rfl (page_clv k)
theorem collDataSegment (p : Port) : Statement (.collDataSegment p) := of_none rfl
theorem collGrant (p : Port) : Statement (.collGrant p) := of_none rfl
theorem collBarrier (p : Port) : Statement (.collBarrier p) := of_none rfl
theorem collectiveRunComplete (k : Slot) (op : BitVec 12) : Statement (.collectiveRunComplete k op) := of_none rfl
theorem flitReceive (p : Port) (bytes : List Byte) : Statement (.flitReceive p bytes) := of_none rfl
theorem nakReplay (p : Port) : Statement (.nakReplay p) := of_none rfl
theorem heartbeatSend (p : Port) : Statement (.heartbeatSend p) := of_none rfl
theorem heartbeatTimeout (p : Port) : Statement (.heartbeatTimeout p) := of_none rfl
theorem flidricTokenArrive (p : Port) : Statement (.flidricTokenArrive p) := of_none rfl
theorem linkRetrain (fn : Func) (p : Port) (tag : BitVec 16) : Statement (.linkRetrain fn p tag) := of_page rfl (page_port p)
theorem maintSet (fn : Func) (p : Port) : Statement (.maintSet fn p) := of_page rfl (page_port p)
theorem saddleFlitReplay (saddle : Fin 12) : Statement (.saddleFlitReplay saddle) := of_none rfl
theorem ckptBegin (fn : Func) (k : Slot) (tag : BitVec 16) : Statement (.ckptBegin fn k tag) := of_page rfl (page_ckp k)
theorem ckptCancel (fn : Func) (k : Slot) (tag : BitVec 16) : Statement (.ckptCancel fn k tag) := of_page rfl (page_ckp k)
theorem checkpointHold (k : Slot) : Statement (.checkpointHold k) := of_none rfl
theorem cowCopy (k : Slot) : Statement (.cowCopy k) := of_none rfl
theorem ckptCopy (p : Port) : Statement (.ckptCopy p) := of_none rfl
theorem ckptAck (p : Port) : Statement (.ckptAck p) := of_none rfl
theorem crcReq (p : Port) : Statement (.crcReq p) := of_none rfl
theorem crcRsp (p : Port) : Statement (.crcRsp p) := of_none rfl
theorem pageReq (p : Port) : Statement (.pageReq p) := of_none rfl
theorem pageRsp (p : Port) : Statement (.pageRsp p) := of_none rfl
theorem heldReq (p : Port) : Statement (.heldReq p) := of_none rfl
theorem heldRsp (p : Port) : Statement (.heldRsp p) := of_none rfl
theorem restore (fn : Func) (k : Slot) (tag : BitVec 16) : Statement (.restore fn k tag) := of_page rfl (page_ckp k)
theorem verify (fn : Func) (k : Slot) (tag : BitVec 16) : Statement (.verify fn k tag) := of_page rfl (page_ckp k)
theorem expose (fn : Func) (k : Slot) (tag : BitVec 16) : Statement (.expose fn k tag) := of_page rfl (page_ckp k)
theorem logAdd (fn : Func) (tag : BitVec 16) : Statement (.logAdd fn tag) := of_page rfl rfl
theorem wipeSite (fn : Func) (tag : BitVec 16) : Statement (.wipeSite fn tag) := of_page rfl rfl
theorem scrubPass (w : Fin 9) (hbm : Bool) : Statement (.scrubPass w hbm) := of_none rfl
theorem odeccPoll (d : Die) (count : Nat) : Statement (.odeccPoll d count) := of_none rfl
theorem wipeComplete (w : Fin 9) (us : W32) (ok : Bool) : Statement (.wipeComplete w us ok) := of_none rfl
theorem lcChange (fn : Func) (tag : BitVec 16) : Statement (.lcChange fn tag) := of_page rfl rfl
theorem fwStage (fn : Func) (tag : BitVec 16) (flashOk : Bool) : Statement (.fwStage fn tag flashOk) := of_page rfl rfl
theorem fwActivate (fn : Func) (tag : BitVec 16) : Statement (.fwActivate fn tag) := of_page rfl rfl
theorem fwSwitch : Statement (.fwSwitch) := of_none rfl
theorem fwRevert : Statement (.fwRevert) := of_none rfl
theorem seqUpdate (fn : Func) (tag : BitVec 16) : Statement (.seqUpdate fn tag) := of_page rfl rfl
theorem thermalStep (temps : List Int) (hub : Int) (inlet : Int) (outlet : Int) : Statement (.thermalStep temps hub inlet outlet) :=
  of_none rfl
theorem thermtrip (w : Fin 9) : Statement (.thermtrip w) := of_none rfl
theorem coldPowerOn (slotId : Fin 8) : Statement (.coldPowerOn slotId) := of_none rfl
theorem pwrEnAssert (vin : BitVec 16) (fails : List Nat) : Statement (.pwrEnAssert vin fails) := of_none rfl
theorem pwrEnDeassert : Statement (.pwrEnDeassert) := of_none rfl
theorem inputUndervoltage : Statement (.inputUndervoltage) := of_none rfl
theorem inputOvervoltage : Statement (.inputOvervoltage) := of_none rfl
theorem railOutOfRegulation (rail : Fin 16) : Statement (.railOutOfRegulation rail) := of_none rfl
theorem inputOvercurrent : Statement (.inputOvercurrent) := of_none rfl
theorem converterOvertemperature : Statement (.converterOvertemperature) := of_none rfl
theorem voltageExcursion (high : Bool) : Statement (.voltageExcursion high) := of_none rfl
theorem faultLatchClear (cool : Bool) : Statement (.faultLatchClear cool) := of_none rfl
theorem modResetAssert : Statement (.modResetAssert) := of_none rfl
theorem moduleReset (slotId : Fin 8) (fails : List Nat) : Statement (.moduleReset slotId fails) := of_none rfl
theorem pcieConventionalReset (held : Bool) (fails : List Nat) : Statement (.pcieConventionalReset held fails) := of_none rfl
theorem perstRelease (fails : List Nat) : Statement (.perstRelease fails) := of_none rfl
theorem selfTestComplete (bad : List CoreId) : Statement (.selfTestComplete bad) := of_none rfl
theorem pfFlr : Statement (.pfFlr) := of_none rfl
theorem vfFlr (vf : Func) : Statement (.vfFlr vf) := of_none rfl
theorem vfEnableClear : Statement (.vfEnableClear) := of_none rfl
theorem msixEnable (fn : Func) (en : Bool) (mask : Bool) : Statement (.msixEnable fn en mask) := of_none rfl
theorem smbIdent : Statement (.smbIdent) := of_none rfl
theorem smbStatus : Statement (.smbStatus) := of_none rfl
theorem alertCause : Statement (.alertCause) := of_none rfl
theorem temps : Statement (.temps) := of_none rfl
theorem smbPower : Statement (.smbPower) := of_none rfl
theorem regRead (off : BitVec 26) : Statement (.regRead off) := of_none rfl
theorem regWrite (off : BitVec 26) (value : W32) (pec : Bool) : Statement (.regWrite off value pec) := of_none rfl
theorem nodeConfig (value : W32) (pec : Bool) : Statement (.nodeConfig value pec) := of_none rfl
theorem alertResponse : Statement (.alertResponse) := of_none rfl
theorem registerWrite (fn : Func) (off : BitVec 26) (len : Nat) (value : W64) (full : Bool) : Statement (.registerWrite fn off len value full) := by
  by_cases c : full = true ∧ len = 4 ∧ off.toNat % 4 = 0 ∧ off.toNat < msixTable
  · exact of_off (fn := fn) (off := off.toNat) (by simp only [commandPage, if_pos c])
  · exact of_none (by simp only [commandPage, if_neg c])
theorem rcRead (fn : Func) (off : BitVec 26) (len : Nat) (full : Bool) : Statement (.rcRead fn off len full) := of_none rfl
theorem evtStatusWrite (fn : Func) (off : BitVec 26) (value : W32) : Statement (.evtStatusWrite fn off value) := of_off rfl
theorem evtEnableWrite (fn : Func) (off : BitVec 26) (value : W32) : Statement (.evtEnableWrite fn off value) := of_off rfl
theorem evtForce (fn : Func) (off : BitVec 26) (value : W32) : Statement (.evtForce fn off value) := of_off rfl
theorem vmapWrite (fn : Func) (page : Func) (n : Fin 128) (value : W32) : Statement (.vmapWrite fn page n value) :=
  of_page rfl (page_pcx page)
theorem amaxWrite (fn : Func) (c : CoreId) (n : Fin 16) (value : W32) : Statement (.amaxWrite fn c n value) :=
  of_page rfl (page_site c)
theorem ttRunSet (fn : Func) (k : Slot) : Statement (.ttRunSet fn k) := of_page rfl (page_tmt8 k)
theorem ttRunClear (fn : Func) (k : Slot) : Statement (.ttRunClear fn k) := of_page rfl (page_tmt8 k)
theorem jobRegister (fn : Func) (k : Slot) (value : W32) : Statement (.jobRegister fn k value) := of_page rfl (page_tmt8 k)
theorem coreMhzWrite (fn : Func) (value : W32) : Statement (.coreMhzWrite fn value) := of_page rfl rfl
theorem undefinedOpcode (fn : Func) (off : BitVec 26) (op : BitVec 8) (tag : BitVec 16) : Statement (.undefinedOpcode fn off op tag) :=
  of_off rfl
theorem longOperationEnd (off : BitVec 26) : Statement (.longOperationEnd off) := of_none rfl
theorem memoryWindowRead (fn : Func) (off : BitVec 38) (len : Nat) : Statement (.memoryWindowRead fn off len) := of_none rfl
theorem memoryWindowWrite (fn : Func) (off : BitVec 38) (bytes : List Byte) : Statement (.memoryWindowWrite fn off bytes) :=
  of_none rfl
theorem trainDone (p : Port) (ok : Bool) : Statement (.trainDone p ok) := of_none rfl
theorem pcieLinkChange (speed : BitVec 3) (width : BitVec 5) (flit : Bool) (l0p : Bool) : Statement (.pcieLinkChange speed width flit l0p) :=
  of_none rfl
theorem msixVectorUnmask (fn : Func) (v : BitVec 11) : Statement (.msixVectorUnmask fn v) := of_none rfl
theorem meshFlitResend (c : CoreId) : Statement (.meshFlitResend c) := of_none rfl
theorem memTempUpdate (d : Die) (temp : BitVec 8) : Statement (.memTempUpdate d temp) := of_none rfl
theorem powerAlarm (pin : BitVec 16) : Statement (.powerAlarm pin) := of_none rfl
theorem standbyRailLoss : Statement (.standbyRailLoss) := of_none rfl

end PageInWindow
end Sys2Proof.Laws
end

