-- ==== Sys2Proof/Laws/Record.lean ====
section
/-! SUPPORT. Laws/Record.lean: the length of a checkpoint record (R345), the bound of its CRC, and reads of memory that nothing has
written. -/
namespace Sys2Proof.Machine
open Sys2Proof.Laws

theorem crc64_lt (bs : List Byte) : crc64 bs < 2 ^ 64 :=
  Nat.xor_lt_two_pow (crcBytes_lt _ 64 (by decide) (by decide) bs _ (by decide)) (by decide)

theorem tfind_absent {α : Type} : ∀ (t : Tab α) (k : Nat), (∀ e ∈ t, e.1 ≠ k) → tfind t k = none
  | [], _, _ => rfl
  | (_, _) :: t, k, h =>
    have h := List.forall_mem_cons.mp h
    (if_neg (Ne.symm h.1)).trans (tfind_absent t k h.2)

/-- A range in which no byte is listed reads as zeros. -/
theorem memRead_zero (s : State) (a n : Nat) (h : ∀ c ∈ s.mem, c.1 < a ∨ a + n ≤ c.1) : memRead s a n = List.replicate n 0 := by
  apply List.ext_getElem
  · simp [memRead]
  · intro i h1 h2
    have hi : i < n := by simpa using h2
    simp only [memRead, List.getElem_map, List.getElem_range, List.getElem_replicate, rdByte, tget]
    rw [tfind_absent s.mem (a + i) (fun c hc => by have := h c hc; omega)]
    rfl

@[simp] theorem wrMax_mem (s : State) (p : Page) (o v : Nat) : (wrMax s p o v).mem = s.mem := wr_mem ..
@[simp] theorem wrMax_synd (s : State) (p : Page) (o v : Nat) : (wrMax s p o v).synd = s.synd := wr_synd ..

theorem draw_mem (s : State) : (drawNat s).2.mem = s.mem := rfl
theorem draw_synd (s : State) : (drawNat s).2.synd = s.synd := rfl

theorem stackUnits_read (s : State) (a n : Nat) (w : Bool) : (stackUnits s a n w).mem = s.mem ∧ (stackUnits s a n w).synd = s.synd := by
  simp only [stackUnits]
  split
  · split
    · exact ⟨bump_mem .., bump_synd ..⟩
    · rw [wrMax_mem, wrMax_synd, draw_mem, draw_synd]
      exact ⟨bump_mem .., bump_synd ..⟩
  · exact ⟨rfl, rfl⟩

/-- A read of a stack or of host memory without error answers the bytes. -/
theorem physRead_clean (s : State) (a n : Nat) (ha : a / 2 ^ 46 ≠ 0) (h : s.synd = []) :
    physRead s a n = (stackUnits s a n false, memRead s a n, []) := by
  have hs := stackUnits_read s a n false
  rw [physRead, if_neg ha]
  dsimp only
  rw [checkRead_clean _ _ _ (badWords_nil _ _ _ (hs.2.trans h)), ueWords, badWords_nil _ _ _ (hs.2.trans h)]
  simp [memRead, rdByte, hs.1]

/-- A record without error is the bytes that its header counts. -/
theorem readRecord_clean (s : State) (a : Nat) (ha : a / 2 ^ 46 ≠ 0) (h : s.synd = []) (hm : recMagic (memRead s a 256) = true) :
    (readRecord s a).2 = some (memRead s a (recLength (memRead s a 256))) := by
  have hs := stackUnits_read s a 256 false
  rw [readRecord, physRead_clean s a 256 ha h]
  dsimp only
  rw [physRead_clean _ a _ ha (hs.2.trans h)]
  have hr : ∀ n, memRead (stackUnits s a 256 false) a n = memRead s a n := fun n => by simp only [memRead, rdByte, hs.1]
  simp [hm, hr]

/-- Bytes in the first part of a string. -/
theorem bytesAt_left (a b : List Byte) (o n : Nat) (h : o + n ≤ a.length) : bytesAt (a ++ b) o n = bytesAt a o n := by
  rw [bytesAt, bytesAt, List.drop_append_of_le_length (by omega), List.take_append_of_le_length (by simp; omega)]

/-- Bytes after the first part of a string. -/
theorem bytesAt_right (a b : List Byte) (o n : Nat) : bytesAt (a ++ b) (a.length + o) n = bytesAt b o n := by
  rw [bytesAt, bytesAt, List.drop_append, List.drop_of_length_le (by omega), List.nil_append, Nat.add_sub_cancel_left]

theorem find_congr {α : Type} : ∀ (l : List α) (f g : α → Bool), (∀ a ∈ l, f a = g a) → l.find? f = l.find? g
  | [], _, _, _ => rfl
  | a :: l, f, g, h => by
    have h := List.forall_mem_cons.mp h
    simp only [List.find?, h.1, find_congr l f g h.2]

/-- The cells that a byte string makes from an address on. -/
def cells (a : Nat) : List Byte → List (Nat × Byte)
  | [] => []
  | b :: bs => (a, b) :: cells (a + 1) bs

theorem tfind_cells (bs : List Byte) (a i : Nat) (h : i < bs.length) : tget 0 (cells a bs) (a + i) = bs.getD i 0 := by
  induction bs generalizing a i with
  | nil => exact absurd h (Nat.not_lt_zero i)
  | cons b bs ih =>
    cases i with
    | zero => simp [cells, tget, tfind]
    | succ i =>
      have hi : i < bs.length := by simpa using h
      have := ih (a + 1) i hi
      simp only [cells, tget, tfind, if_neg (show ¬ a + (i + 1) = a by omega), List.getD_cons_succ]
      rw [show a + (i + 1) = a + 1 + i by omega]
      exact this

/-- A memory that holds a byte string reads it back. -/
theorem memRead_cells (s : State) (a : Nat) (bs : List Byte) (h : s.mem = cells a bs) : memRead s a bs.length = bs := by
  apply List.ext_getElem
  · simp [memRead]
  · intro i h1 h2
    simp only [memRead, List.getElem_map, List.getElem_range, rdByte, h]
    rw [tfind_cells bs a i h2, List.getD_eq_getElem?_getD, List.getElem?_eq_getElem h2]
    rfl

theorem length_dirBytes (p : CkPage) : (dirBytes p).length = 32 := by simp [dirBytes]

/-- Bytes of sections, each filled up to 64 B. -/
def sectionBytes (l : List Nat) : Nat := (l.map (fun n => n + (64 - n % 64) % 64)).sum

theorem length_layRecord (l : List (Nat × List Byte)) (off : Nat) : (layRecord off l).1.length = 16 * l.length ∧
    (layRecord off l).2.length = sectionBytes (l.map (·.2.length)) := by
  induction l generalizing off with
  | nil => exact ⟨rfl, rfl⟩
  | cons e l ih =>
    obtain ⟨k, b⟩ := e
    have := ih (off + b.length + (64 - b.length % 64) % 64)
    constructor
    · simp [layRecord, this.1]; omega
    · simp [layRecord, this.2, sectionBytes]; omega

theorem length_flatMap_const {α β : Type} (l : List α) (f : α → List β) (n : Nat) (h : ∀ a, (f a).length = n) :
    (l.flatMap f).length = l.length * n := by simp [List.length_flatMap, h]

/-- The length of a record of a slot without groups. -/
theorem length_makeRecord (s : State) (k : Nat) (l : List CkPage) (h : (getSlot s k).groups = []) :
    (makeRecord s k l).2.length = 256 + sectionBytes [l.length * 32, 4096, 0, 2312, (diesOf s k).length * 4096, 24] := by
  have hg : groupsSection s k = (s, []) := by simp [groupsSection, h]
  have hc : (countersSection s k).length = (diesOf s k).length * 4096 := by
    rw [countersSection, length_flatMap_const _ _ 4096]
    intro d
    rw [length_flatMap_const _ _ 16 (fun c => by rw [length_flatMap_const _ _ 4 (fun o => length_toBytes _ _)]; rfl), List.length_range]
  have ht : (tickSection s k).length = 24 := by rw [tickSection, length_flatMap_const _ _ 4 (fun o => length_toBytes _ _)]; rfl
  have htt : (timetableSection s k).length = 2312 := by
    rw [timetableSection, List.length_append, List.length_append, length_flatMap_const _ _ 8 (fun o => length_toBytes _ _),
      length_flatMap_const _ _ 4 (fun o => length_toBytes _ _)]
    simp
  have hr : (routesSection s k).length = 4096 := by rw [routesSection, length_flatMap_const _ _ 16 (fun i => by simp), List.length_range]
  have hd : (l.flatMap dirBytes).length = l.length * 32 := length_flatMap_const _ _ 32 length_dirBytes
  have hl := length_layRecord [(1, l.flatMap dirBytes), (2, routesSection s k), (3, []), (4, timetableSection s k),
    (5, countersSection s k), (6, tickSection s k)] dirOff
  simp only [List.map_cons, List.map_nil, hd, hr, htt, hc, ht, List.length_nil] at hl
  simp only [makeRecord, hg, List.length_append, length_toBytes, List.length_replicate, hl.2]
  have h1 := hl.1
  simp only [List.length_cons, List.length_nil] at h1
  omega

end Sys2Proof.Machine
end

