-- ==== Sys2Proof/Laws/Sends.lean ====
section
/-! SUPPORT. Laws/Sends.lean: what sending a token leaves unchanged: everything but the network, the ports, and counts on the
Flidric and partition pages. -/
namespace Sys2Proof.Laws
open Sys2Proof.Machine

/-- A register outside the Flidric pages and the partition pages. -/
def Beside (a : Nat) : Prop := (a < 0x30000 ∨ 0x48000 ≤ a) ∧ (a < 0x60000 ∨ 0x69000 ≤ a)

/-- t has every part of s but the network and the ports, and its registers but those of the Flidric and partition pages. -/
structure Sent (s t : State) : Prop where
  pending : t.pending = s.pending
  cores : t.cores = s.cores
  dies : t.dies = s.dies
  slots : t.slots = s.slots
  mem : t.mem = s.mem
  synd : t.synd = s.synd
  msgs : t.msgs = s.msgs
  funcs : t.funcs = s.funcs
  cmds : t.cmds = s.cmds
  logN : t.logN = s.logN
  masks : t.masks = s.masks
  repairs : t.repairs = s.repairs
  corr : t.corr = s.corr
  passes : t.passes = s.passes
  board : t.board = s.board
  answer : t.answer = s.answer
  free : t.free = s.free
  regs : ∀ a, Beside a → regAt t a = regAt s a

theorem Sent.refl (s : State) : Sent s s := by constructor <;> intros <;> rfl

theorem Sent.trans {s t u : State} (h : Sent s t) (g : Sent t u) : Sent s u :=
  ⟨g.pending.trans h.pending, g.cores.trans h.cores, g.dies.trans h.dies, g.slots.trans h.slots, g.mem.trans h.mem,
    g.synd.trans h.synd, g.msgs.trans h.msgs, g.funcs.trans h.funcs, g.cmds.trans h.cmds, g.logN.trans h.logN,
    g.masks.trans h.masks, g.repairs.trans h.repairs, g.corr.trans h.corr, g.passes.trans h.passes, g.board.trans h.board,
    g.answer.trans h.answer, g.free.trans h.free, fun a ha => (g.regs a ha).trans (h.regs a ha)⟩

theorem sent_setPort (s : State) (p : Nat) (x : PortSt) : Sent s (setPort s p x) := by constructor <;> intros <;> rfl

theorem sent_net (s : State) (l : List Flight) : Sent s { s with net := l } := by constructor <;> intros <;> rfl

theorem sent_bump (s : State) (p : Page) (o n : Nat) (h : ¬ Beside (pageBase p + o)) : Sent s (bump s p o n) := by
  constructor
  all_goals try rfl
  intro a ha
  exact regAt_setRegAt_ne _ _ (fun e => h (e ▸ ha))

theorem not_beside_fld (i o : Nat) (hi : i < 24) (ho : o < 0x1000) : ¬ Beside (pageBase (.fld i) + o) := by
  simp only [Beside, pageBase]; omega

theorem not_beside_tmt (i o : Nat) (hi : i < 9) (ho : o < 0x1000) : ¬ Beside (pageBase (.tmt i) + o) := by
  simp only [Beside, pageBase]; omega

theorem sent_sendFlit (s t : State) (p : Nat) (hp : p < 24) (h : sendFlit s p = some t) : Sent s t := by
  unfold sendFlit at h
  dsimp only at h
  split at h
  · cases h
  · split at h
    · cases h
    · simp only [Option.some.injEq] at h
      rw [← h]
      exact (sent_setPort s _ _).trans (sent_bump _ _ _ _ (not_beside_fld _ _ hp (by decide)))

theorem sent_flush (n p : Nat) (s : State) (hp : p < 24) : Sent s (flush n p s) := by
  induction n generalizing s with
  | zero => exact Sent.refl s
  | succ n ih =>
    unfold flush
    split
    · split
      · rename_i t h; exact (sent_sendFlit s t p hp h).trans (ih t)
      · exact Sent.refl s
    · exact Sent.refl s

theorem sent_portPut (s : State) (k p cls vc : Nat) (bs : List Byte) (own : Option Flight) (hk : k < 8) (hp : p < 16) :
    Sent s (portPut s k p cls vc bs own) := by
  have h1 : Sent s (bump s (routePage k) fld_UNROUTABLE 1) :=
    sent_bump _ _ _ _ (not_beside_fld _ _ (by omega) (by decide))
  unfold portPut
  split
  · dsimp only
    split
    · exact h1.trans (sent_bump _ _ _ _ (not_beside_fld _ _ (by omega) (by decide)))
    · exact h1
  · exact (sent_setPort s _ _).trans (sent_flush _ _ _ (by omega))

theorem route_port (s : State) (k m : Nat) (fr : Option (Nat × Nat)) : (route s k m fr).1 < 16 := by
  unfold route
  dsimp only
  split
  · exact Nat.mod_lt _ (by decide)
  · show (defaultHop s m).1 < 16
    unfold defaultHop
    dsimp only
    split
    · rename_i d hd
      have : d < 3 := by simpa using List.mem_of_find?_eq_some hd
      have : ∀ b : Bool, b2n b ≤ 1 := by intro b; cases b <;> simp [b2n]
      dsimp only
      have := this (!decide ((nodeCoord m d + ringSize s d - nodeCoord (moduleNo s) d % ringSize s d) % ringSize s d ≤
        ringSize s d - (nodeCoord m d + ringSize s d - nodeCoord (moduleNo s) d % ringSize s d) % ringSize s d))
      omega
    · dsimp only; omega

theorem sent_routeOut (s : State) (k : Nat) (f : Flight) (fr : Option (Nat × Nat)) (hk : k < 8) : Sent s (routeOut s k f fr) := by
  unfold routeOut
  dsimp only
  split
  · exact sent_bump _ _ _ _ (not_beside_fld _ _ (by omega) (by decide))
  · exact sent_portPut _ _ _ _ _ _ _ hk (route_port _ _ _ _)

theorem nextLeaving_slot (s : State) (n : Nat) (f : Flight) (h : nextLeaving s = some (n, f)) : f.pslot < 8 := by
  obtain ⟨m, -, hm⟩ := List.exists_of_findSome?_eq_some h
  split at hm
  · split at hm
    · rename_i hc
      cases hm
      exact hc.2.1
    · cases hm
  · cases hm

/-- What leaves for other modules changes no other part. -/
theorem sent_leaveAll : ∀ (n : Nat) (s : State), Sent s (leaveAll n s)
  | 0, s => Sent.refl s
  | n + 1, s => by
    unfold leaveAll
    split
    · rename_i m f h
      exact ((sent_net s _).trans (sent_routeOut _ _ _ _ (nextLeaving_slot s m f h))).trans (sent_leaveAll n _)
    · exact Sent.refl s

/-- What sending a token leaves. -/
theorem sent_netSend (s : State) (t : Token) (o : Owner) (k : Nat) (hk : k < 8) : Sent s (netSend s t o k) := by
  unfold netSend
  split
  · exact (sent_net s _).trans (sent_leaveAll _ _)
  · split
    · exact sent_bump _ _ _ _ (not_beside_tmt _ _ (by omega) (by decide))
    · split
      · exact sent_bump _ _ _ _ (not_beside_fld _ _ (by omega) (by decide))
      · exact sent_net s _

/-- A token for an endpoint of its own slot joins the network. -/
theorem netSend_near (s : State) (t : Token) (o : Owner) (k : Nat) (hm : t.dest.mod = moduleNo s)
    (hd : t.dest.die < 8 → slotOf s t.dest.die = k) (hh : 8 ≤ t.dest.die → t.dest.die = 8 ∧ hubEndpoint t.dest.core = true) :
    netSend s t o k = { s with net := s.net ++ [⟨t, o, k⟩] } := by
  unfold netSend
  rw [if_neg (by simp [hm]), if_neg (by intro h; exact h.2 (hd h.1)), if_neg]
  intro h
  obtain ⟨h8, he⟩ := hh h.1
  simp [h8, he] at h

theorem sent_each {α : Type} (f : α → State → State) (hf : ∀ a s, Sent s (f a s)) (l : List α) (s : State) :
    Sent s (each l f s) := fold_keeps (P := Sent s) _ (fun t a ht => ht.trans (hf a t)) l s (Sent.refl s)

end Sys2Proof.Laws
end

