-- ==== Sys2Proof/Tests/Slice0.lean ====
section
/-! SUPPORT. Tests/Slice0.lean: an ill-formed command for each check of WellFormed, and for every statement with hypotheses a
state that meets them, each clause at its own. -/
namespace Sys2Proof.Tests
set_option Elab.async false
open Sys2Proof.Machine Sys2Proof.Safety


/-! ## Ill-formed commands -/

def flits : List Instr := [.flitReceive 23 (List.replicate 255 0), .thermalStep (List.replicate 191 25) 25 25 25]
theorem test_ill_lengths : flits.all (fun c => !c.wf) = true := by decide +kernel
theorem test_ill_fails : [Instr.pwrEnAssert 12000 [], .moduleReset 7 (List.replicate 11 0), .pcieConventionalReset true (List.replicate 13 0),
    .perstRelease [0]].all (fun c => !c.wf) = true := by decide +kernel
theorem test_ill_links : [Instr.samplerSample 0 (List.replicate 1441 0), .samplerSample 0 [23]].all (fun c => !c.wf) = true := by decide +kernel
theorem test_ill_functions : [Instr.vfFlr 0, .selfTestComplete [⟨7, 383⟩, ⟨7, 383⟩], .msixVectorUnmask 8 256].all (fun c => !c.wf) = true := by decide +kernel
theorem test_ill_windows : [Instr.registerWrite 0 0 0 0 true, .registerWrite 0 0 513 0 true, .rcRead 0 0 0 true, .rcRead 0 0 4097 true,
    .memoryWindowRead 0 0 0, .memoryWindowRead 0 (BitVec.ofNat 38 (2 ^ 38 - 1)) 2, .memoryWindowWrite 0 0 [], .memoryWindowWrite 0 0 (List.replicate 513 0),
    .memoryWindowWrite 0 (BitVec.ofNat 38 (2 ^ 38 - 1)) [0, 0]].all (fun c => !c.wf) = true := by decide +kernel
theorem test_ill_link : [Instr.pcieLinkChange 0 16 true true, .pcieLinkChange 7 16 true true, .pcieLinkChange 6 3 true true].all (fun c => !c.wf) = true := by
  decide +kernel
theorem test_ill_page : [Instr.evtStatusWrite 0 4 0, .evtEnableWrite 0 4095 0, .evtForce 0 2048 0, .undefinedOpcode 0 1 9 0,
    .longOperationEnd 4095].all (fun c => !c.wf) = true := by decide +kernel
def noImage : Image := ⟨[], [], [], [], [], [], [], [], [], []⟩
theorem test_ill_image : [{ noImage with progs := [⟨6, 0, 0, [], [], []⟩] }, { noImage with progs := [⟨1, 8, 0, [], [], []⟩] }, { noImage with progs := [⟨1, 0, 512, [], [], []⟩] },
    { noImage with tasks := [⟨1, 0, List.replicate 39 0, []⟩] },
    { noImage with bufs := [⟨1, 0, 0, 6, 0, 0, 0, 0, 0, none, [], none⟩] }, { noImage with streams := [⟨1, 0, 1024, List.replicate 32 0⟩] },
    { noImage with gathers := [⟨1, 0, 0, List.replicate 31 0⟩] }, { noImage with terrs := [⟨1, 64, 0, 0, 0⟩] }, { noImage with ests := [⟨1, 0, 512, 0⟩] },
    { noImage with classes := [⟨1, 16, 0, 0⟩] }, { noImage with counters := [⟨6, 0, 0, 0, 0, 0, 0⟩] },
    { noImage with gens := [⟨6, 0, 0, 0, []⟩] }, { noImage with gens := [⟨1, 0, 2 ^ 24, 0, []⟩] }].all
    (fun im => !(Instr.load 0 0 im 0).wf) = true := by decide +kernel
theorem test_wf : [Instr.load 0 7 noImage 0, .flitReceive 0 (List.replicate 256 0), .registerWrite 8 0 8 0 true, .msixVectorUnmask 0 2047,
    .pcieLinkChange 6 16 true true].all Instr.wf = true := by decide +kernel

/-! ## Small states -/

/-- A word with an opcode and fields, each as its value and lowest bit. -/
def word (op : Nat) (fs : List (Nat × Nat)) : Nat := fs.foldl (fun w f => w + f.1 * 2 ^ f.2) (op * 2 ^ 56)

/-- The core of die 0 at site 0, which carries logical core 0 after reset. -/
def id0 : CoreId := ⟨0, 0⟩

/-- A task of context 3 with format E4M3, not speculative. -/
def run0 : Run := ⟨3, 3, 1, 0, 0, false, false, 7, 7, 0, 0, 0, false, 0, 0, 0, 0, false⟩

/-- A core that runs it: s1 = 5, s2 = −1, a0 = 0x10000. -/
def core0 : Core := { Core.reset with run := some run0, s := [(1, 5), (2, 0xFFFFFFFF)], a := [(0, 0x10000)] }

/-- The module after reset with its one partition in RUN. -/
def inRun : State := setPhase State.reset 0 3

/-- The core at site 0 of die 0 is c, with a word at its PC. -/
def prog (w : Nat) (c : Core) : State := setCore (memWrite inRun (8 * c.pc) (toBytes 8 w)) 0 c

theorem ready_of {s : State} {id : CoreId} {r : Run} {w : Nat}
    (h : (getCore s (cid id)).run = some r ∧ issues s (cid id) (getCore s (cid id)) r = true ∧ (getCore s (cid id)).pc < 4096 ∧
      badWords s (coreAddr (cid id) (8 * (getCore s (cid id)).pc)) 8 = [] ∧
      bytesAt (memRead s (coreAddr (cid id) (8 * (getCore s (cid id)).pc)) 8) 0 8 = w ∧ wordLegal w = true ∧
      (namesTask w = false ∨ r.narrow = true) ∧ badSource (getCore s (cid id)) w = none) : Ready s id r w :=
  let ⟨task, goes, inStore, clean, word, legal, narrow, parity⟩ := h
  ⟨task, goes, inStore, clean, word, legal, narrow, parity⟩

/-! ## Core programs -/

/-- R85: s3 := s1 op s2, and LI of an immediate; CMP with each condition. -/
def scalarWord (op : Nat) : Nat := if op = 1 then word 1 [(3, 51), (1, 40), (9, 0)] else word op [(3, 51), (1, 46), (2, 41)]
theorem witness_scalar : ∀ op ∈ [1, 2, 3, 4, 5, 6, 7, 8], Ready (prog (scalarWord op) core0) id0 run0 (scalarWord op) ∧
    opcodeOf (scalarWord op) = op := by
  intro op h
  exact ⟨ready_of (by revert op; decide +kernel), by revert op; decide +kernel⟩
def cmpWord (c : Nat) : Nat := word 8 [(3, 51), (1, 46), (2, 41), (c, 37)]
theorem witness_cmp : ∀ c ∈ [1, 2, 3, 4, 5], Ready (prog (cmpWord c) core0) id0 run0 (cmpWord c) ∧ fld (cmpWord c) 37 3 = c := by
  intro c h
  exact ⟨ready_of (by revert c; decide +kernel), by revert c; decide +kernel⟩

/-- R86: branches within the store from PC 10, and past it from PC 4,095; RET with and without a return address. -/
def branchWord (op off : Nat) : Nat := word op [(if op = 0x0A ∨ op = 0x0B then 1 else 0, 46), (off, 0)]
def core10 (ret : List Nat) (v : Nat) : Core := { core0 with pc := 10, ret := ret, s := [(1, w32 v)] }
theorem witness_branch : ∀ op ∈ [9, 0xA, 0xB, 0xC], ∀ v ∈ [0, 1],
    Ready (prog (branchWord op 0xFFF6) (core10 [] v)) id0 run0 (branchWord op 0xFFF6) ∧ (10 : Int) + sext (branchWord op 0xFFF6) 16 = 0 ∧
    opcodeOf (branchWord op 0xFFF6) = op := by
  intro op h v g
  exact ⟨ready_of (by revert op v; decide +kernel), by revert op v; decide +kernel⟩
theorem witness_branch_past : ∀ op ∈ [9, 0xA, 0xB, 0xC], ∀ v ∈ [0, 1],
    Ready (prog (branchWord op 1) { core10 [] v with pc := 4095 }) id0 run0 (branchWord op 1) ∧ (4095 : Int) + sext (branchWord op 1) 16 = 4096 := by
  intro op h v g
  exact ⟨ready_of (by revert op v; decide +kernel), by revert op v; decide +kernel⟩
theorem witness_ret : ∀ l ∈ [[], [4095], [1, 2, 3, 4, 5, 6, 7, 8]], Ready (prog (word 0xD []) (core10 l 0)) id0 run0 (word 0xD []) := by
  intro l h
  exact ready_of (by revert l; decide +kernel)
theorem witness_call_deep : Ready (prog (word 0xC []) (core10 [1, 2, 3, 4, 5, 6, 7, 8] 0)) id0 run0 (word 0xC []) := ready_of (by decide +kernel)
theorem witness_pc_past : let s := setCore inRun 0 { core0 with pc := 4096 }
    (getCore s (cid id0)).run = some run0 ∧ issues s (cid id0) (getCore s (cid id0)) run0 = true ∧ 4096 ≤ (getCore s (cid id0)).pc := by
  decide +kernel

/-- R87, R89: v24 := v25 op v26, s1 broadcast; VRED into s3; VCVT of two lanes to INT8 at a0 with a fixed exponent. -/
def vecCore : Core := { core0 with v := [(1, List.replicate 64 0x3F800000), (2, List.replicate 64 0x40000000)] }
def vectorWord (op ty : Nat) : Nat :=
  word op [(if op = 0x16 then 3 else 24, 51), (25, 46), (if 0x12 ≤ op ∧ op ≤ 0x15 then 26 else 0, 41), (if op = 0x15 then 1 else 0, 36), (ty, 34)]
theorem witness_vector : ∀ op ∈ [0x12, 0x13, 0x14, 0x15, 0x16, 0x18, 0x19, 0x1A],
    Ready (prog (vectorWord op 0) vecCore) id0 run0 (vectorWord op 0) ∧ opcodeOf (vectorWord op 0) = op := by
  intro op h
  exact ⟨ready_of (by revert op; decide +kernel), by revert op; decide +kernel⟩
theorem witness_vector_int : ∀ op ∈ [0x12, 0x13, 0x14, 0x16], Ready (prog (vectorWord op 3) vecCore) id0 run0 (vectorWord op 3) := by
  intro op h
  exact ready_of (by revert op; decide +kernel)
def cvtWord (f : Nat) : Nat := word 0x17 [(25, 51), (0, 48), (if f = 3 then 1 else 0, 45), (f, 41), (if f = 3 then 1 else 0, 39), (if f = 3 then 1 else 0, 34), (2, 30)]
def cvtCore : Core := { vecCore with s := [(1, 127), (2, 2)], a := [(0, 0x10000), (1, 0x20000)] }
def cvtOut (f : Nat) : VcvtOut := vcvt f (if f = 3 then some 127 else none) none ((vecVal cvtCore 25).zipIdx.map (fun q => (q.1, decide (q.2 < 2))))
theorem witness_vcvt : ∀ f ∈ [3, 7], Ready (prog (cvtWord f) cvtCore) id0 run0 (cvtWord f) ∧ opcodeOf (cvtWord f) = 0x17 ∧
    fld (cvtWord f) 41 4 = f ∧ maskLanes cvtCore (fld (cvtWord f) 30 4) = 2 ∧ fmtBlocked f = (f == 3) := by
  intro f h
  exact ⟨ready_of (by revert f; decide +kernel), by revert f; decide +kernel⟩
theorem witness_vcvt_writes : ∀ f ∈ [3, 7],
    writesStop (prog (cvtWord f) cvtCore) cvtCore run0 (cvtWrites f 2 0x10000 0x20000 0 (cvtOut f)) = none ∧
    (cvtOut f).halves[0]?.isSome = true ∧ cvtCore.shadows = [] := by decide +kernel
theorem witness_vred : (List.replicate 64 (1 : W32)).length = 64 := by decide

/-- R81, R88: a word and four lanes at a0 = 0x10000, AMAX slot 0 and the last word of the window, a range that is not ready, a
range of no lanes. -/
def accessWord (op reg a mask off : Nat) : Nat := word op [(reg, 51), (a, 48), (mask, 42), (off, 0)]
def accessCore (ready : Bool) : Core := { vecCore with s := [(1, 4), (2, 7)], busy := if ready then [] else [(64, true)] }
theorem witness_vld : ∀ w ∈ [accessWord 0x10 3 0 0 0, accessWord 0x10 3 1 0 0x3FF000, accessWord 0x10 24 0 1 0, accessWord 0x10 24 0 3 4],
    ∀ b ∈ [true, false], Ready (prog w (accessCore b)) id0 run0 w := by
  intro w h b g
  exact ready_of (by revert w b; decide +kernel)
theorem witness_vld_range : ∀ n ∈ [4, 16], mayReadRange (accessCore true) 0x10000 n = true ∧ readBlocked (accessCore true) 0x10000 n = false ∧
    rangeReady (accessCore true) 0x10000 n = true ∧ rangeReady (accessCore false) 0x10000 n = false := by decide +kernel
theorem witness_vst : ∀ w ∈ [accessWord 0x11 1 0 0 0, accessWord 0x11 1 1 0 0x3FF03C, accessWord 0x11 1 1 0 0x3FF040, accessWord 0x11 25 0 1 0],
    Ready (prog w (accessCore true)) id0 run0 w := by
  intro w h
  exact ready_of (by revert w; decide +kernel)
theorem witness_vst_range : ∀ n ∈ [4, 16], mayWriteRange (accessCore true) run0 0x10000 n = true ∧
    writeBlocked (accessCore true) 0x10000 n = false := by decide +kernel
/-- R106, R172, R175: a store of a speculative task to AMAX slot 15, its deferral list with room and full. -/
def spec0 (narrow : Bool) : Run := { run0 with speculative := true, narrow := narrow }
def deferring (narrow full : Bool) (c : Core) : Core :=
  { c with run := some (spec0 narrow), deferred := if full then List.replicate 64 (3, .amax 0 0) else [] }
theorem witness_vst_deferred : ∀ n ∈ [true, false], ∀ full ∈ [true, false],
    Ready (prog (accessWord 0x11 1 1 0 0x3FF03C) (deferring n full (accessCore true))) id0 (spec0 n) (accessWord 0x11 1 1 0 0x3FF03C) ∧
    decide (64 ≤ (deferHeld (deferring n full (accessCore true))).length) = full := by
  intro n h full g
  exact ⟨ready_of (by revert n full; decide +kernel), by revert n full; decide +kernel⟩

/-! ## The array -/

/-- R53, R56: each array instruction; a queue of 8. -/
def arrayWord (op : Nat) : Nat :=
  if op = 0x20 then word op [(0, 53), (1, 50), (7, 46), (3, 40), (31, 34), (32, 18)]
  else if op = 0x21 then word op [(0, 53), (1, 50), (7, 46), (4, 37), (2, 34), (31, 26), (32, 10)]
  else if op = 0x22 then word op [(2, 53), (3, 45), (3, 39), (1, 38)]
  else if op = 0x23 then word op [(2, 53), (0, 50), (64, 34), (1, 33)]
  else word op [(2, 53)]
def latchEntry : QEntry := ⟨.latch 0x10000 0 7 4 32 32 0, 0, 0x20, 3, 7, none, 0, 0⟩
theorem witness_array_full : ∀ op ∈ [0x20, 0x21, 0x22, 0x23, 0x24],
    Ready (prog (arrayWord op) { core0 with queue := List.replicate 8 latchEntry }) id0 run0 (arrayWord op) := by
  intro op h
  exact ready_of (by revert op; decide +kernel)

/-- What a queued instruction finds at the head of its queue. -/
def queueing (q : List QEntry) (c : Core) : State := setCore inRun 0 { c with queue := q }
theorem front_of {s : State} {id : CoreId} {e : QEntry} {rest : List QEntry} {r : Run}
    (h : (getCore s (cid id)).queue = e :: rest ∧ entryRun (getCore s (cid id)) e = some r ∧
      arrayGoes s (cid id) (getCore s (cid id)) = true) : Front s id e rest r := ⟨h.1, h.2.1, h.2.2⟩
theorem witness_latch : Front (queueing [latchEntry] core0) id0 latchEntry [] run0 ∧
    ∀ x ∈ readRanges latchEntry.op 7, mayReadRange core0 x.1 x.2 = true ∧ rangeReady core0 x.1 x.2 = true :=
  ⟨front_of (by decide +kernel), by decide +kernel⟩
def latchTask : QEntry := ⟨.latch 0x10000 0 15 4 32 32 0, 0, 0x20, 3, 7, none, 0, 0⟩
theorem witness_latch_task : Front (queueing [latchTask] core0) id0 latchTask [] run0 ∧ latchTask.sub < passes 15 latchTask.now :=
  ⟨front_of (by decide +kernel), by decide +kernel⟩

/-- R51, R52: four vectors of 32 elements. -/
def streamEntry (fill : Option (List (List Elt))) : QEntry := ⟨.stream 0x10000 0 7 4 2 false false 32 32 0, 0, 0x21, 3, 7, fill, 0, 0⟩
def bank4 : Bank := ⟨7, 4, 32, List.replicate 4 (List.replicate 32 (⟨false, 1⟩))⟩
def group4 (chunks : Nat) : Group := ⟨4, 4, false, 4, 2, 0, 0, false, chunks, none, false, true, 0, 3⟩
def vecs4 : List (List Elt) := List.replicate 4 (List.replicate 32 (⟨false, 1⟩))
theorem witness_stream_fill : let s := queueing [streamEntry none] core0
    let c := getCore s 0
    nextFill [] c.queue = some ([], streamEntry none) ∧ entryRun c (streamEntry none) = some run0 ∧ arrayGoes s 0 c = true ∧
    feederUsed c + passes 7 7 * 4 ≤ 256 ∧ ∀ x ∈ readRanges (streamEntry none).op 7, meets x (pendingWritesFrom c [] []) = false ∧
      rangeReady c x.1 x.2 = true ∧ mayReadRange c x.1 x.2 = true := by decide +kernel
def streamCore (chunks : Nat) : Core := { core0 with bankA := some bank4, groups := [(2, some (group4 chunks))] }
theorem witness_stream : ∀ n ∈ [0, 1], let s := queueing [streamEntry (some vecs4)] (streamCore n)
    Front s id0 (streamEntry (some vecs4)) [] run0 ∧ inStep (getCore s 0) (streamEntry (some vecs4)) = some (none, streamEntry (some vecs4)) ∧
    tget none (getCore s 0).groups 2 = some (group4 n) := by
  intro n h
  exact ⟨front_of (by revert n; decide +kernel), by revert n; decide +kernel, by revert n; decide +kernel⟩

theorem witness_array : ∀ op ∈ [0x20, 0x21, 0x22, 0x23, 0x24],
    Ready (prog (arrayWord op) (if op = 0x22 then core0 else streamCore 0)) id0 run0 (arrayWord op) := by
  intro op h
  exact ready_of (by revert op; decide +kernel)
theorem witness_array_enters : enters core0 run0 (.latch 0x10000 0 7 4 32 32 0) ∧ enters core0 run0 (.opn 2 4 4 true 4 0 0 0 false) ∧
    enters (streamCore 0) run0 (.stream 0x10000 0 7 4 2 false false 32 32 0) ∧
    enters (streamCore 0) run0 (.drain 2 0x10000 64 true 0 false none false) ∧ enters (streamCore 0) run0 (.chk 2) := by
  unfold enters; decide +kernel

/-- R60 to R71: an empty basin for OPEN, a group of four rows for CHK, DRAIN and a merge. -/
def opnEntry : QEntry := ⟨.opn 2 256 4 true 4 0 0 0 false, 0, 0x22, 3, 7, none, 0, 0⟩
def chkEntry : QEntry := ⟨.chk 2, 0, 0x24, 3, 7, none, 0, 0⟩
def drainEntry : QEntry := ⟨.drain 2 0x10000 16 true 0 false none false, 0, 0x23, 3, 7, none, 0, 0⟩
def due : Group := { group4 2 with landing := some (zeroTile 4 4), mergeDue := true }
theorem witness_basin : Front (queueing [opnEntry] core0) id0 opnEntry [] run0 ∧ sumOf ((openGroups core0).map (·.nt)) + 256 ≤ 256 ∧
    dueMerge { core0 with groups := [(2, some due)], due := [2] } = some (2, due) ∧
    Front (queueing [chkEntry] (streamCore 0)) id0 chkEntry [] run0 ∧
    checkFails (group4 0) (groupTotal (queueing [chkEntry] (streamCore 0)) 0 (group4 0)).2.1
      (groupTotal (queueing [chkEntry] (streamCore 0)) 0 (group4 0)).2.2.2 = false ∧
    Front (queueing [drainEntry] (streamCore 0)) id0 drainEntry [] run0 ∧
    (∀ x ∈ drainRanges 0x10000 16 true 0 (4, 4), meets x (storePends (queueing [drainEntry] (streamCore 0)) 0) = false ∧
      rangeReady (streamCore 0) x.1 x.2 = true) ∧
    ∀ v ∈ outVecs (group4 0) (groupTotal (queueing [drainEntry] (streamCore 0)) 0 (group4 0)).2.1 0x10000 16 true,
      mayWriteRange (streamCore 0) run0 v.1 (v.2.length * ofmtBytes 0) = true :=
  ⟨front_of (by decide +kernel), by decide +kernel, by decide +kernel, front_of (by decide +kernel), by decide +kernel,
    front_of (by decide +kernel), by decide +kernel⟩
/-- The vectors of a DRAIN apart from each other; a HOLD of a BACKWARD release whose task has a DEFER region of one slab. -/
theorem witness_drain_apart : (outVecs (group4 0) (groupTotal (queueing [drainEntry] (streamCore 0)) 0 (group4 0)).2.1 0x10000 16 true).Pairwise
    (fun v y => v.1 + v.2.length * ofmtBytes 0 ≤ y.1 ∨ y.1 + y.2.length * ofmtBytes 0 ≤ v.1) ∧ (streamCore 0).shadows = [] := by decide +kernel
def backRun : Run := { run0 with cls := 1 }
def holdEntry : QEntry := { drainEntry with op := .drain 2 0x10000 16 true 0 true none true }
def deferArea : Tab Shadow := [(0, { Shadow.none with base := 128, kind := 2 })]
def holdCore : Core := { streamCore 0 with run := some backRun, shadows := deferArea }
theorem witness_drain_hold : let s := queueing [holdEntry] holdCore
    let vs := outVecs (group4 0) (groupTotal s 0 (group4 0)).2.1 0x10000 16 true
    Front s id0 holdEntry [] backRun ∧ (∀ x ∈ drainRanges 0x10000 16 true 0 (4, 4), meets x (storePends s 0) = false ∧ rangeReady holdCore x.1 x.2 = true) ∧
    (∀ v ∈ vs, mayWriteRange holdCore { backRun with speculative := false } v.1 (v.2.length * ofmtBytes 0) = true) ∧
    deferRoom holdCore (4 * (outWords vs).length) = true :=
  ⟨front_of (by decide +kernel), by decide +kernel⟩

/-! ## Tokens and coordination -/

/-- R91: DATA of one 32 B unit, and a CONTROL token, to logical core 1 of die 0 of this module, whose number s1 names. -/
def sendWord (control : Bool) : Nat := word 0x30 [(1, 51), (0, 48), (if control then 0 else 1, 41), (if control then 1 else 0, 40), (31, 35)]
def sendCore : Core := { core0 with s := [(1, 0x80000001), (2, 3)] }
theorem witness_send : ∀ b ∈ [true, false], Ready (prog (sendWord b) sendCore) id0 run0 (sendWord b) ∧
    destOf (prog (sendWord b) sendCore) (regVal sendCore 1).toNat = some ⟨1, 0, 0⟩ ∧ sendRoom (prog (sendWord b) sendCore) 0 = true := by
  intro b h
  exact ⟨ready_of (by revert b; decide +kernel), by revert b; decide +kernel, by revert b; decide +kernel⟩
theorem witness_send_range : mayReadRange sendCore 0x10000 32 = true ∧ readBlocked sendCore 0x10000 32 = false ∧
    rangeReady sendCore 0x10000 32 = true ∧ coreCheck (prog (sendWord false) sendCore) 0 (some 3) 0x10000 32 =
      (prog (sendWord false) sendCore, false) := by decide +kernel
def tok (kind tag slot dcount value : Nat) (payload : List Byte) : Token :=
  ⟨0, kind, 0, slot, payload.length / 32, false, tag, ⟨0, 0, 0⟩, ⟨1, 0, 0⟩, 0, dcount, 1, value, payload⟩
def sending (n : Nat) : State := setCore inRun 0 { core0 with sendq := List.replicate n ⟨tok 5 2 0 0 1 [], .nobody, 0⟩ }
theorem witness_send_full : let s := setCore (prog (sendWord true) sendCore) 0 { sendCore with sendq := (getCore (sending 4) 0).sendq }
    Ready s id0 run0 (sendWord true) ∧ sendRoom s 0 = false := ⟨ready_of (by decide +kernel), by decide +kernel⟩
theorem witness_transmit : (getCore (sending 1) (cid id0)).sendq = [⟨tok 5 2 0 0 1 [], .nobody, 0⟩] ∧ moduleNo (sending 1) = 0 ∧
    slotOf (sending 1) 0 = 0 ∧ canLeave (sending 1) ⟨tok 5 2 0 0 1 [], .nobody, 0⟩ = true ∧
    signalHeld (sending 1) 0 ⟨tok 5 2 0 0 1 [], .nobody, 0⟩ = false := by decide +kernel

/-- R99, R101, R180: RECV at rule 31, slot 15, with and without a record; STEER of an idle and a busy rule; CLAIM. -/
def recvWord : Nat := word 0x31 [(3, 51), (31, 45), (1, 40)]
def recvCore (v : Option W32) : Core :=
  { core0 with s := [(1, 15)], holds := [(31 * 16 + 15, { Hold.none with record := v })] }
def nine (b : Bool) : Option W32 := if b then some 9 else none
theorem witness_recv : ∀ b ∈ [true, false], Ready (prog recvWord (recvCore (nine b))) id0 run0 recvWord ∧
    (getHold (recvCore (nine b)) 31 15).record = nine b := by
  intro b h
  exact ⟨ready_of (by revert b; decide +kernel), by revert b; decide +kernel⟩
def steerWord : Nat := word 0x32 [(0, 53), (31, 45)]
def ruleBytes : List Byte := [3, 0, 0x85, 0] ++ toBytes 4 0x20000 ++ toBytes 4 1024 ++ List.replicate 20 0
def steering (c : Core) : State := memWrite (prog steerWord c) 0x10000 ruleBytes
theorem witness_steer : ∀ b ∈ [true, false], Ready (steering (recvCore (nine b))) id0 run0 steerWord := by
  intro b h
  exact ready_of (by revert b; decide +kernel)
theorem witness_steer_rule : ruleLegal (coreBytes (steering core0) 0 (some 3) 0x10000 32) = true ∧ ruleIdle core0 31 = true ∧
    ruleIdle (recvCore (some 9)) 31 = false ∧ mayReadRange core0 0x10000 32 = true ∧
    coreCheck (steering core0) 0 (some 3) 0x10000 32 = (steering core0, false) := by decide +kernel
def claimWord : Nat := word 0x40 [(3, 51), (255, 16)]
def narrow0 : Run := { run0 with narrow := true }
theorem witness_claim : Ready (prog claimWord core0) id0 run0 claimWord ∧
    Ready (prog claimWord { core0 with run := some narrow0 }) id0 narrow0 claimWord :=
  ⟨ready_of (by decide +kernel), ready_of (by decide +kernel)⟩

/-- R103 to R105: WAIT for a count of 2 at 1, 2; for a range; SIGNAL to itself and to another core; FENCE and its end. -/
def waitWord : Nat := word 0x41 [(4, 43), (2, 0)]
def waitRange : Nat := word 0x41 [(1, 48), (0, 40), (1, 35)]
theorem witness_wait : ∀ n ∈ [1, 2], Ready (prog waitWord { core0 with sem := [(4, n)] }) id0 run0 waitWord := by
  intro n h
  exact ready_of (by revert n; decide +kernel)
theorem witness_wait_range : ∀ b ∈ [true, false], Ready (prog waitRange (accessCore b)) id0 run0 waitRange ∧
    rangeReady (accessCore b) 0x10000 4 = b := by
  intro b h
  exact ⟨ready_of (by revert b; decide +kernel), by revert b; decide +kernel⟩
def signalWord : Nat := word 0x42 [(1, 51), (4, 43), (2, 0)]
def signalCore (l : Nat) : Core := { core0 with s := [(1, w32 (0x80000000 + l))], sem := [(4, 0xFFFE)] }
theorem witness_signal : ∀ l ∈ [0, 1], Ready (prog signalWord (signalCore l)) id0 run0 signalWord ∧
    destOf (prog signalWord (signalCore l)) (regVal (signalCore l) 1).toNat = some ⟨l, 0, 0⟩ ∧
    sendRoom (prog signalWord (signalCore l)) 0 = true := by
  intro l h
  exact ⟨ready_of (by revert l; decide +kernel), by revert l; decide +kernel, by revert l; decide +kernel⟩
def fenceWord : Nat := word 0x43 [(2, 48)]
theorem witness_fence : Ready (prog fenceWord core0) id0 run0 fenceWord := ready_of (by decide +kernel)
theorem witness_fence_done : ∀ n ∈ [0, 1, 2, 3], let s := setCore inRun 0 { core0 with wait := .fence n }
    (getCore s 0).wait = .fence n ∧ runs s 0 = true ∧ fenceDone s 0 3 n = true := by decide +kernel

/-- R93: END of a plain and of a NARROW attempt; YIELD. -/
theorem witness_end : Ready (prog (word 0x50 []) core0) id0 run0 (word 0x50 []) ∧ openGroups core0 = [] ∧
    unaccepted (prog (word 0x50 []) core0) 0 3 = [] ∧ logicalOf (prog (word 0x50 []) core0) 0 0 = some 0 ∧
    Ready (prog (word 0x51 []) core0) id0 run0 (word 0x51 []) :=
  ⟨ready_of (by decide +kernel), by decide +kernel, by decide +kernel, by decide +kernel, ready_of (by decide +kernel)⟩

/-! ## Tokens that arrive -/

/-- A token on its way alone. -/
def flying (s : State) (t : Token) : State := { s with net := [⟨t, .nobody, 0⟩] }
def ruled (h : Hold) : Core :=
  { core0 with rules := [(5, ⟨true, true, 15, 31, true, 0x20000, 1024, 0, 0⟩)], holds := tset Hold.none [] (5 * 16 + 15) h, sem := [(31, 0xFFFF)] }
theorem forCore_of {s : State} {n kind k : Nat} {x : Flight} (h : arriving s n = some x ∧ x.tok.kind = kind ∧ x.tok.dest.core < 360 ∧
    siteOf s x.tok.dest.die x.tok.dest.core = some (k % 384) ∧ coreOf s x.tok.dest.die x.tok.dest.core = some k ∧
    x.tok.epoch = epochOf s (slotOf s x.tok.dest.die)) : ForCore s n kind k x :=
  let ⟨next, kind, near, _, site, epoch⟩ := h
  ⟨⟨next, kind⟩, near, site, epoch⟩

/-- R100, R101: DATA and CONTROL of slot 15 at a rule with and without its DATA, with a record, and at a rule never loaded. -/
def dataTok : Token := tok 0 5 15 0 0 (List.replicate 32 7)
def ctrlTok (n : Nat) : Token := tok 1 5 15 n 8 []
theorem witness_data : let s := flying (setCore inRun 0 (ruled Hold.none)) dataTok
    ForCore s 0 0 0 ⟨dataTok, .nobody, 0⟩ ∧ tokenWaits (ruled Hold.none) dataTok = false ∧
    refusesWrite (ruled Hold.none) (tokRange ⟨true, true, 15, 31, true, 0x20000, 1024, 0, 0⟩ dataTok) = false :=
  ⟨forCore_of (by decide +kernel), by decide +kernel, by decide +kernel⟩
theorem witness_control : ∀ n ∈ [0, 1], let s := flying (setCore inRun 0 (ruled Hold.none)) (ctrlTok n)
    ForCore s 0 1 0 ⟨ctrlTok n, .nobody, 0⟩ ∧ tokenWaits (ruled Hold.none) (ctrlTok n) = false := by
  intro n h
  exact ⟨forCore_of (by revert n; decide +kernel), by revert n; decide +kernel⟩
theorem witness_held : ∀ t ∈ [dataTok, ctrlTok 0], let s := flying (setCore inRun 0 core0) t
    ForCore s 0 t.kind 0 ⟨t, .nobody, 0⟩ ∧ tokenWaits core0 t = true := by
  intro n h
  exact ⟨forCore_of (by revert n; decide +kernel), by revert n; decide +kernel⟩
theorem witness_signal_token : ForCore (flying (setCore inRun 0 core0) (tok 5 31 0 0 0xFFFF [])) 0 5 0 ⟨tok 5 31 0 0 0xFFFF [], .nobody, 0⟩ :=
  forCore_of (by decide +kernel)

/-- R180: a claim of counter 255 below its limit and at it, and the response. -/
def claimTok (tag : Nat) : Token := { tok 6 tag 0 0 255 [] with dest := if tag = 0 then ⟨0x170 + 255 % 24, 0, 0⟩ else ⟨0, 0, 0⟩ }
def counting (limit : Nat) : State := wr inRun (wkcPage 0 255) (wkc_LIMIT_m + wkcOff 255) limit
theorem witness_claim_request : ∀ n ∈ [0, 1], let s := flying (counting n) (claimTok 0)
    arriving s 0 = some ⟨claimTok 0, .nobody, 0⟩ ∧ (claimTok 0).epoch = epochOf s 0 ∧ moduleNo s = 0 ∧ slotOf s 0 = 0 ∧
    rd s (wkcPage 0 255) (wkc_VALUE_m + wkcOff 255) = 0 ∧ rd s (wkcPage 0 255) (wkc_LIMIT_m + wkcOff 255) = n := by decide +kernel
theorem witness_claim_response : let s := { setCore inRun 0 { core0 with wait := .claim 3 } with net := [⟨claimTok 1, .task 0 3, 0⟩] }
    ForCore s 0 6 0 ⟨claimTok 1, .task 0 3, 0⟩ := forCore_of (by decide +kernel)
/-- R106, R172, R175: SEND, STEER, CLAIM, SIGNAL and FENCE of a speculative task whose deferral list has room, and one without. -/
def ringed (narrow full : Bool) (c : Core) : Core := { deferring narrow full c with shadows := deferArea }
theorem witness_send_deferred : ∀ n ∈ [true, false], ∀ full ∈ [true, false], let c := ringed n full sendCore
    Ready (prog (sendWord false) c) id0 (spec0 n) (sendWord false) ∧ deferRoom c 32 = !full ∧
    (mayReadRange c 0x10000 32 = true ∧ readBlocked c 0x10000 32 = false ∧ rangeReady c 0x10000 32 = true) ∧
    destOf (prog (sendWord false) c) (regVal c 1).toNat = some ⟨1, 0, 0⟩ ∧ (coreBytes (prog (sendWord false) c) 0 (some 3) 0x10000 32).length = 32 ∧
    coreCheck (prog (sendWord false) c) 0 (some 3) 0x10000 32 = (prog (sendWord false) c, false) := by
  intro n h full g
  exact ⟨ready_of (by revert n full; decide +kernel), by revert n full; decide +kernel⟩
theorem witness_speculative : ∀ w ∈ [claimWord, fenceWord],
    Ready (prog w (ringed false false core0)) id0 (spec0 false) w ∧ (deferHeld (ringed false false core0)).length < 64 := by
  intro w h
  exact ⟨ready_of (by revert w; decide +kernel), by decide +kernel⟩
theorem witness_signal_deferred : let s := prog signalWord (ringed false false (signalCore 1))
    Ready s id0 (spec0 false) signalWord ∧ destOf s (regVal (signalCore 1) 1).toNat = some ⟨1, 0, 0⟩ := ⟨ready_of (by decide +kernel), by decide +kernel⟩
theorem witness_steer_deferred : let s := steering (ringed false false core0)
    Ready s id0 (spec0 false) steerWord ∧ ruleLegal (coreBytes s 0 (some 3) 0x10000 32) = true ∧ deferRoom (ringed false false core0) 32 = true ∧
    (coreBytes s 0 (some 3) 0x10000 32).length = 32 ∧ mayReadRange (ringed false false core0) 0x10000 32 = true ∧
    readBlocked (ringed false false core0) 0x10000 32 = false ∧ rangeReady (ringed false false core0) 0x10000 32 = true ∧
    coreCheck s 0 (some 3) 0x10000 32 = (s, false) :=
  ⟨ready_of (by decide +kernel), by decide +kernel⟩

/-- R101: rules with JOIN = 0 that deliver and that forward to rule 31 of core 359 of die 7; one with JOIN = 1 that forwards, its one DATA held. -/
def arm7 : Nat := 1 + 4 * 7 + 64 * 359 + 2 ^ 15 * 31
def single (arm0 : Nat) : Core := { ruled Hold.none with rules := [(5, ⟨true, false, 15, 31, true, 0x20000, 1024, arm0, 0⟩)] }
theorem witness_single : ∀ arm ∈ [0, arm7], ∀ t ∈ [dataTok, ctrlTok 0], let s := flying (setCore inRun 0 (single arm)) t
    ForCore s 0 t.kind 0 ⟨t, .nobody, 0⟩ ∧ tokenWaits (single arm) t = false ∧
    refusesWrite (single arm) (tokRange ⟨true, false, 15, 31, true, 0x20000, 1024, arm, 0⟩ dataTok) = false ∧
    armAction arm = (if arm = 0 then 0 else 1) ∧ fld arm7 2 4 = 7 ∧ slotOf s 7 = slotOf s 0 ∧ dataTok.payload.length = 32 * dataTok.length := by
  intro arm h t g
  exact ⟨forCore_of (by revert arm t; decide +kernel), by revert arm t; decide +kernel⟩
def joined : Core := { ruled { Hold.none with data := [dataTok] } with rules := [(5, ⟨true, true, 15, 31, true, 0x20000, 1024, arm7, 0⟩)] }
theorem witness_join_forward : let s := flying (setCore inRun 0 joined) (ctrlTok 1)
    ForCore s 0 1 0 ⟨ctrlTok 1, .nobody, 0⟩ ∧ tokenWaits joined (ctrlTok 1) = false ∧ (getHold joined 5 15).data.length = (ctrlTok 1).dcount ∧
    (getHold joined 5 15).ctrl = none := ⟨forCore_of (by decide +kernel), by decide +kernel⟩

/-! ## Tasks -/

/-- A context of task i for logical core 0, in a state, with DEPS not yet met. -/
def ctxIn (i : Nat) (st : TaskState) (dcur pcur : Nat) : Ctx :=
  { Ctx.none with task := i, cls := 0, fmtNow := 9, state := st, dcur := dcur, pcur := pcur, sample := 1, released := true, deadline := 9, cycles := 5 }

/-- The engine of die 0 enabled with contexts; its tick has begun. -/
def engine (ctrl : Nat) (l : List (Nat × Ctx)) : State :=
  setDie (wr inRun (.tke 0) hCTRL ctrl) 0 { DieSt.reset with ctxs := l, started := true }

theorem witness_dispatch : ∀ st ∈ [TaskState.ready, .yielded], let s := engine 1 [(7, ctxIn 7 st 0 0)]
    coreOf s 0 0 = some 0 ∧ nextTask s 0 0 = some (7, ctxIn 7 st 0 0) ∧ runs s 0 = true ∧ (rd s (.tke 0) hCTRL).testBit 0 = true ∧
    coreBusy s 0 0 = false ∧ ctxIn 7 st 0 0 = getCtx s 0 7 := by decide +kernel
def taskTok (tag : Nat) : Token := tok 2 tag 0 0 3 (if tag = 0 then descBytes (ctxIn 3 .running 0 0) else runBytes RunRec.zero)
theorem witness_task_tokens : ∀ g ∈ [0, 1, 4, 5], ForCore (flying (setCore inRun 0 { core0 with away := [run0] }) (taskTok g)) 0 2 0
    ⟨taskTok g, .nobody, 0⟩ := by
  intro g h
  exact forCore_of (by revert g; decide +kernel)
theorem witness_resume : ({ core0 with away := [run0] } : Core).away.find? (·.task == (taskTok 1).value) = some run0 := by decide

/-- R170, R266: a commit of context 3 on core 0. -/
def committing : State := flying (setCore (engine 1 [(3, ctxIn 3 .running 0 0)]) 0 { core0 with away := [run0] }) (taskTok 6)
theorem witness_commit : ForCore committing 0 2 0 ⟨taskTok 6, .nobody, 0⟩ ∧ (getSlot committing 0).current = some 0 ∧
    commitWaits (netTake committing 0) 0 3 = false :=
  ⟨forCore_of (by decide +kernel), by decide +kernel, by decide +kernel⟩

/-- R159, R167, R170: context 3 with a list in the successor cache: a task of its die, an AHEAD edge, a semaphore of core 1. -/
def edgeOf (kind aheadBit target : Nat) : Nat := kind + 8 * aheadBit + 2 ^ 32 * target
def list3 : List Nat := [edgeOf 0 0 7, edgeOf 0 1 7, edgeOf 5 0 (1 + 512 * 31 + 65536 * 9)]
def listed (st : TaskState) (s : State) : State :=
  setDie s 0 { getDie s 0 with ctxs := [(3, { ctxIn 3 st 0 0 with nsucc := 3 }), (7, { ctxIn 7 .waiting 2 0 with spec := 2 })], succs := [(3, (list3, []))] }
theorem witness_listed : ∀ st ∈ [TaskState.ready, .running], CachedList (listed st (engine 3 [])) 0 3 list3 ∧ (list3.filter succAhead).length = 1 := by
  intro st h
  exact ⟨Or.inr (by revert st; decide +kernel), by decide +kernel⟩
theorem witness_listed_dispatch : let s := listed .ready (engine 3 [])
    nextTask s 0 0 = some (3, { ctxIn 3 .ready 0 0 with nsucc := 3 }) ∧ runs s 0 = true ∧ coreBusy s 0 0 = false ∧ (getDie s 0).refresh = [] := by decide +kernel
theorem witness_listed_commit : let s := listed .running committing
    ForCore s 0 2 0 ⟨taskTok 6, .nobody, 0⟩ ∧ commitWaits (netTake s 0) 0 3 = false ∧ (getCore s 0).deferred = [] ∧ (getCore s 0).releasing = [] ∧
    (getCtx s 0 3).cls = 0 ∧ ctxOf (taskTok 6).value = 3 :=
  ⟨forCore_of (by decide +kernel), by decide +kernel⟩
/-- R166, R176: a target on another die of the partition, one on the producer's die by an AHEAD edge and by a plain entry. -/
theorem witness_edges : let s := listed .running (engine 3 [])
    succDie s 0 (edgeOf 1 1 7 + 16 * 7) = 7 ∧ slotOf s 7 = slotOf s 0 ∧ succDie s 0 (edgeOf 0 1 7) = 0 ∧ relFor (getCtx s 0 7) 1 = true ∧
    (getCtx s 0 7).state = .waiting ∧ 0 < (getCtx s 0 7).dcur ∧ softEdges s 0 (getCtx s 0 7) = true ∧ succKind (edgeOf 1 0 7) = 1 ∧
    succKind (edgeOf 5 0 9) = 5 ∧ sendRoom s 0 = true ∧ (getCore s 0).releasing = [] := by decide +kernel

/-- R171, R177: reports of context 3, with and without AHEAD producers, a trip at the narrowest rung, a YIELDED one. -/
def reportTok (tag info : Nat) : Token := { tok 2 tag 0 info 3 (if tag = 3 then runBytes RunRec.zero else []) with dest := ⟨0x188, 0, 0⟩ }
theorem forSlice_of {s : State} {n tag d i : Nat} {x : Flight} (h : arriving s n = some x ∧ x.tok.kind = 2 ∧ x.tok.tag = tag ∧
    0x188 ≤ x.tok.dest.core ∧ x.tok.dest.die = d ∧ ctxOf x.tok.value = i ∧ x.tok.epoch = epochOf s (slotOf s d) ∧
    (getCtx s d i).task = x.tok.value ∧ (getCtx s d i).state = .running) : ForSlice s n tag d i x :=
  let ⟨next, kind, tag, slice, die, context, epoch, same, runs⟩ := h
  ⟨⟨next, kind⟩, tag, slice, die, context, epoch, same, runs⟩
theorem witness_ended : ∀ p ∈ [0, 1], ∀ info ∈ [0, 1],
    ForSlice (flying (engine 1 [(3, ctxIn 3 .running 0 p)]) (reportTok 2 info)) 0 2 0 3 ⟨reportTok 2 info, .nobody, 0⟩ := by
  intro p h info g
  exact forSlice_of (by revert p info; decide +kernel)
theorem witness_trip : (ctxIn 3 .running 0 0).fmtNow ≠ clsCeiling (classA (engine 1 []) 0 0) := by decide +kernel
theorem witness_listed_trip : let s := flying (listed .running (engine 3 [])) (reportTok 2 1)
    ForSlice s 0 2 0 3 ⟨reportTok 2 1, .nobody, 0⟩ ∧ CachedList s 0 3 list3 := ⟨forSlice_of (by decide +kernel), Or.inr (by decide +kernel)⟩
theorem witness_yielded : ForSlice (flying (engine 1 [(3, ctxIn 3 .running 0 0)]) (reportTok 3 0)) 0 3 0 3 ⟨reportTok 3 0, .nobody, 0⟩ :=
  forSlice_of (by decide +kernel)

/-- R166, R178: DEP tokens for context 3, the last and the last but one of DCUR. -/
def depTok (tag : Nat) : Token := { tok 3 tag 0 0 3 [] with dest := ⟨0x168, 0, 0⟩ }
def ahead (x : Ctx) : Ctx := { x with spec := 2 }
theorem forEngine_of {s : State} {n tag d i : Nat} {x : Flight} (h : arriving s n = some x ∧ x.tok.kind = 3 ∧ x.tok.tag = tag ∧
    x.tok.dest.core = 0x168 ∧ x.tok.dest.die = d ∧ ctxOf x.tok.value = i ∧ x.tok.epoch = epochOf s (slotOf s d) ∧
    betweenTicks s d = false) : ForEngine s n tag d i x :=
  let ⟨next, kind, tag, engine, die, context, epoch, inTick⟩ := h
  ⟨⟨next, kind⟩, tag, engine, die, context, epoch, inTick⟩
theorem witness_dep : ∀ g ∈ [0, 1, 2, 3], ∀ q ∈ [1, 2], let s := flying (engine 3 [(3, ahead (ctxIn 3 (if g = 2 then .ended else .waiting) q 1))]) (depTok g)
    ForEngine s 0 g 0 3 ⟨depTok g, .nobody, 0⟩ ∧ relFor (getCtx s 0 3) 1 = true ∧ softEdges s 0 (getCtx s 0 3) = true := by
  intro g h q e
  exact ⟨forEngine_of (by revert g q; decide +kernel), by revert g q; decide +kernel, by revert g q; decide +kernel⟩
theorem witness_dep_fault : let s := flying (engine 1 [(3, ctxIn 3 .waiting 1 0)]) (depTok 4)
    arriving s 0 = some ⟨depTok 4, .nobody, 0⟩ ∧ (depTok 4).epoch = epochOf s 0 ∧ (depTok 4).src.mod = moduleNo s ∧
    relFor (getCtx s 0 3) 1 = true := by decide +kernel
theorem witness_dep_fault_ready : let s := flying (listed .ready (engine 1 [])) (depTok 4)
    arriving s 0 = some ⟨depTok 4, .nobody, 0⟩ ∧ depEarly s 0 (depTok 4) = false ∧ ∀ j, (getCtx s 0 j).state = .ready → ∃ es, CachedList s 0 j es := by
  refine ⟨by decide +kernel, by decide +kernel, fun j h => ?_⟩
  rcases Decidable.em (j = 3) with rfl | hj
  · exact ⟨list3, Or.inr (by decide +kernel)⟩
  · rcases Decidable.em (j = 7) with rfl | hk
    · exact absurd h (by decide +kernel)
    · refine absurd h ?_
      have e : (getDie (flying (listed .ready (engine 1 [])) (depTok 4)) 0).ctxs =
        [(3, { ctxIn 3 .ready 0 0 with nsucc := 3 }), (7, { ctxIn 7 .waiting 2 0 with spec := 2 })] := rfl
      simp [getCtx, e, tget, tfind, hj, hk, Ctx.none]
theorem witness_dep_early : let s := flying (setDie (engine 1 []) 0 DieSt.reset) (depTok 0)
    arriving s 0 = some ⟨depTok 0, .nobody, 0⟩ ∧ depEarly s 0 (depTok 0) = true ∧ (getDie s 0).early.length < 64 := by decide +kernel
theorem witness_deadline : ∀ st ∈ [TaskState.waiting, .ready, .running, .yielded], let s := engine 1 [(8191, ctxIn 8191 st 1 0)]
    (getCtx s 0 8191).released = true ∧ tget false (getDie s 0).missed 8191 = false ∧ (getCtx s 0 8191).state = st := by decide +kernel
def submitting : State := wr (wr (engine 1 [(8191, { Ctx.none with task := 8191, cls := 4 })]) (.tke 0) hARG 8191) (.tke 0) (hARG + 4) 1
theorem witness_submit : Admitted submitting 1 (.tke 0) ∧ arg submitting (.tke 0) 0 % 8192 = 8191 ∧ arg submitting (.tke 0) 1 % 16384 = 1 ∧
    (rd submitting (.tke 0) hCTRL).testBit 0 = true ∧ (getCtx submitting 0 8191).cls = 4 ∧ (getCtx submitting 0 8191).state = .idle := by
  unfold Admitted; decide +kernel

/-! ## The tick -/

/-- DONEs of dies of module 0. -/
def donesOf (l : List Nat) (ended : Bool) : List Done := l.map (fun d => ⟨0, d, 0, ended, ended⟩)
def withDones (l : List Nat) (ended : Bool) (s : State) : State := setTick s 0 { getTick s 0 with dones := donesOf l ended }

theorem witness_die_done : let s := engine 1 [(3, ctxIn 3 .committed 0 0)]
    slotUsed s 0 = true ∧ (getDie s 0).started = true ∧ (getDie s 0).doneSent = false ∧ phase s 0 = 3 ∧ dieSettled s 0 = true ∧
    (rd s (.tckR 0) tck_RX_STATE).testBit 9 = false ∧ leaderModule s 0 = moduleNo s := by decide +kernel
def tickTok (tag value : Nat) : Token := { tok 4 tag 0 0 value [] with dest := ⟨0x168, 8, 0⟩, sample := 0 }
theorem forGenerator_of {s : State} {n tag k : Nat} {x : Flight} (h : arriving s n = some x ∧ x.tok.kind = 4 ∧ x.tok.tag = tag ∧
    x.tok.dest.die = 8 ∧ x.tok.dest.core = 0x168 + k ∧ k < 8 ∧ x.tok.epoch = epochOf s k) : ForGenerator s n tag k x :=
  let ⟨next, kind, tag, hub, core, slot, epoch⟩ := h
  ⟨⟨next, kind⟩, tag, hub, core, slot, epoch⟩
theorem witness_generator : ∀ g ∈ [0, 1, 2, 3, 4], ForGenerator (flying inRun (tickTok g 5)) 0 g 0 ⟨tickTok g 5, .nobody, 0⟩ := by
  intro g h
  exact forGenerator_of (by revert g; decide +kernel)
theorem witness_done_now : (tickTok 1 5).sample = tickLo (flying inRun (tickTok 1 5)) 0 ∧ roleNo inRun 0 ≠ 1 ∧
    roleNo (wr inRun (.tckG 0) hCTRL 2) 0 = 2 := by decide +kernel
theorem witness_marker : ∀ ended ∈ [true, false], let s := withDones (List.range 8) ended inRun
    slotUsed s 0 = true ∧ ticking s 0 = true ∧ roleNo s 0 ≠ 2 ∧ missing s 0 = [] ∧ entryOver s 0 = false ∧ (getTick s 0).bounded = false ∧
    windowOver s 0 = ended ∧ stopPending s 0 = false ∧ ckPhase s 0 = 0 ∧ swapWaits s 0 = false := by decide +kernel
theorem witness_marker_stop : stopPending (wrFld (withDones (List.range 8) true inRun) (.tckG 0) tck_PHASE 3 1 1) 0 = true := by decide +kernel
def markerTok : Token := { tickTok 0 0 with dest := ⟨0x16B, 0, 0⟩ }
def every : Ctx := { Ctx.none with task := 3, cls := 3 }
theorem witness_tick_start : let s := flying (setDie (wr inRun (.tke 0) hCTRL 1) 0 { DieSt.reset with ctxs := [(3, every)] }) markerTok
    s.net.findIdx? (fun f => f.tok.kind == 4 && f.tok.tag == 0 && f.tok.dest == here s 0 0x16B) = some 0 ∧
    markerTok.epoch = epochOf s 0 ∧ (getTick s 0).rewound = [] ∧ (getDie s 0).early = [] := by decide +kernel
theorem witness_overrun : let s := withDones [0, 1, 2, 3, 4, 5, 6] false inRun
    ticking s 0 = true ∧ missing s 0 ≠ [] ∧ (getTick s 0).overrun = false ∧ policyFault s 0 = false ∧
    policyFault (wr s (.tckG 0) hCTRL 4) 0 = true := by decide +kernel
theorem witness_expiry : let s := setTick (wr inRun (.tckG 0) tck_STRETCH_LIMIT 9) 0 { TickSt.reset with overrun := true }
    (getTick s 0).overrun = true ∧ (getTick s 0).noLimit = false ∧ ticking s 0 = true ∧ missing s 0 ≠ [] := by decide +kernel
theorem witness_armed : let s := flying (wr (setPhase State.reset 0 2) (.tckG 0) hCTRL 1) (tickTok 2 0)
    phase s 0 = 2 ∧ roleNo s 0 = 1 ∧ followers s 0 = [] ∧ ckPhase s 0 ≠ 2 ∧ ckPhase (wr s (.ckp 0) ckp_STATE 2) 0 = 2 := by decide +kernel
theorem witness_relay : ∀ ph ∈ [2, 3, 4], ∀ ck ∈ [0, 1, 2], let s := wr (wr (flying (setPhase State.reset 0 ph) (tickTok 0 5)) (.tckG 0) hCTRL 2) (.ckp 0) ckp_STATE ck
    ForGenerator s 0 0 0 ⟨tickTok 0 5, .nobody, 0⟩ ∧ roleNo s 0 = 2 ∧ phase s 0 = ph ∧ ckPhase s 0 = ck ∧
    (ph = 3 → markerTick s 0 (tickTok 0 5).value = 5 ∧ markerTick s 0 (tickTok 0 0).value = 0) := by
  intro ph h ck g
  exact ⟨forGenerator_of (by revert ph ck; decide +kernel), by revert ph ck; decide +kernel⟩
theorem witness_missed_marker : let s := wr inRun (.tckG 0) hCTRL 2
    slotUsed s 0 = true ∧ roleNo s 0 = 2 ∧ ticking s 0 = true := by decide +kernel

/-! ## Generators, partitions, jobs -/

/-- A page is admitted from a function in a state. -/
theorem witness_stop : ∀ ph ∈ [0, 3, 4], Admitted (setPhase State.reset 0 ph) 1 (.tckG 0) ∧ phase (setPhase State.reset 0 ph) 0 = ph := by
  unfold Admitted; decide +kernel
theorem witness_stop_complete : let s := wrFld (withDones (List.range 8) true inRun) (.tckG 0) tck_PHASE 3 1 1
    ticking s 0 = true ∧ stopPending s 0 = true ∧ roleNo s 0 = 0 ∧ windowOver s 0 = true ∧ ckPhase s 0 = 0 := by decide +kernel
theorem witness_start : ∀ r ∈ [0, 2], let s := wr (setPhase State.reset 0 1) (.tckG 0) hCTRL r
    Admitted s 1 (.tckG 0) ∧ phase s 0 = 1 ∧ roleNo s 0 = r ∧ wipeIncomplete s 0 = false := by unfold Admitted; decide +kernel
theorem witness_halt : ∀ ph ∈ [1, 2, 3, 4], Admitted (setPhase State.reset 0 ph) 1 (.tmt 0) ∧
    activePhase (phase (setPhase State.reset 0 ph) 0) = (ph != 1) := by unfold Admitted; decide +kernel
def halted (info : Nat) : State := wr (setPhase State.reset 0 5) (.tmt 0) tmt_HALT_INFO info
theorem witness_resume_halt : ∀ i ∈ [0x500, 0x401, 0x11], Admitted (halted i) 1 (.tmt 0) ∧ phase (halted i) 0 = 5 ∧
    (rd (halted i) (.tmt 0) tmt_HALT_INFO).testBit 10 = (i != 0x11) := by unfold Admitted; decide +kernel
theorem witness_resume_phase : (getTick (halted 0x500) 0).inj = [] ∧
    (tfind (getTick (setTick (halted 0x500) 0 { TickSt.reset with inj := [(0, 5)] }) 0).inj (rd (halted 0x500) (.tckG 0) tck_WINDOW_TICK)).isSome = true ∧
    tfind (getTick (setTick (halted 0x500) 0 { TickSt.reset with inj := [(1, 5)] }) 0).inj (rd (halted 0x500) (.tckG 0) tck_WINDOW_TICK) = none := by
  decide +kernel
theorem witness_job : ∀ j ∈ [0, 63], ∀ tt ∈ [0, 1], let s := wr (wr State.reset (.tmt 0) tmt_JOB_SEL j) (.tmt 0) hCTRL tt
    Admitted s 1 (.tmt 0) ∧ rd s (.tmt 0) tmt_JOB_SEL % 64 = j ∧ (getJob s 0 j).state = (if j = 0 then .current else .absent) ∧
    ttRun s 0 = (tt == 1) := by unfold Admitted; decide +kernel

/-- R262: a frame of two entries of job 0 of 5 ticks; and one with an invalid entry. -/
def framed (e : W64) : State :=
  setSlot (wr inRun (.tmt 0) tmt_FRAME_LEN 2) 0 { SlotSt.reset with tt := [(0, 0x500000000), (1, e)] }
theorem witness_tt_set : Admitted (framed 0x500000000) 1 (.tmt 0) ∧ ttRun (framed 0x500000000) 0 = false ∧
    (∀ i < 2, ttValid (framed 0x500000000) 0 (ttEntry (framed 0x500000000) 0 i) = true) ∧ frameLen (framed 0x500000000) 0 = 2 ∧
    ttValid (framed 0) 0 (ttEntry (framed 0) 0 1) = false := by unfold Admitted; decide +kernel
theorem witness_tt_stays : ∀ i ∈ [0, 1], (ttPick (framed 0x500000000) 0 (ttEntry (framed 0x500000000) 0 i)).1 =
    (getSlot (framed 0x500000000) 0).current := by decide +kernel
def walks (s : State) (run entry : Nat) : State :=
  wr (wr (wr s (.tmt 0) hCTRL run) (.tmt 0) tmt_STATE (2 ^ 17 + 256 * entry)) (.tmt 0) tmt_ENTRY_LEFT 1
def idleFrame : State :=
  setSlot (framed 0) 0 { SlotSt.reset with tt := [(0, 0x500000080), (1, 0x500000080)], current := none, jobs := [] }
theorem witness_tt_idle : ∀ run ∈ [0, 1], ∀ e ∈ [0, 1], walking (walks idleFrame run e) 0 = true ∧ (getSlot (walks idleFrame run e) 0).current = none ∧
    ttRun (walks idleFrame run e) 0 = (run == 1) ∧ curEntry (walks idleFrame run e) 0 = e ∧
    (ttPick (walks idleFrame run e) 0 (ttEntry (walks idleFrame run e) 0 e)).1 = none := by decide +kernel
def ending (run : Nat) : State := withDones (List.range 8) false (setPhase (walks (framed 0x500000000) run 0) 0 3)
theorem witness_tt_end : ∀ run ∈ [0, 1], walking (ending run) 0 = true ∧ (getSlot (ending run) 0).current = some 0 ∧ entryOver (ending run) 0 = true ∧
    missing (ending run) 0 = [] ∧ stopPending (ending run) 0 = false ∧ windowOver (ending run) 0 = false ∧ ttRun (ending run) 0 = (run == 1) ∧
    (ttPick (ending run) 0 (ttEntry (ending run) 0 1)).1 = some 0 ∧ (getSlot (ending run) 0).freeEntry = false := by decide +kernel
theorem witness_tt_free : let s := setSlot (ending 0) 0 { getSlot (ending 0) 0 with freeEntry := true, freeAcct := 2048 }
    (getSlot s 0).freeEntry = true ∧ (getJob s 0 0).state = .current ∧ (getJob s 0 0).share = 1 ∧
    (getJob s 0 0).pass + (getSlot s 0).freeAcct / 1024 * 65536 / (getJob s 0 0).share < 2 ^ 48 := by decide +kernel

/-- R267 to R272: job 0 in a context area; a save under way; a restore. -/
def withJob (x : Job) (cur : Option Nat) (saving : Option (Nat × Bool)) : State :=
  setSlot State.reset 0 { SlotSt.reset with jobs := [(0, x)], current := cur, saving := saving }
def jobCur : Job := { Job.none with state := .current, share := 1, ctxValid := true }
theorem witness_save : Admitted (withJob jobCur (some 0) none) 1 (.tmt 0) ∧ ttRun (withJob jobCur (some 0) none) 0 = false ∧
    (getJob (withJob jobCur (some 0) none) 0 0).ctxValid = true ∧ areaInside (withJob jobCur (some 0) none) 0 jobCur = true ∧
    phase (withJob jobCur (some 0) none) 0 ≠ 6 ∧ slotUsed State.reset 0 = true := by
  unfold Admitted; decide +kernel
theorem witness_save_begin : (getSlot (withJob jobCur (some 0) (some (0, false))) 0).saving = some (0, false) ∧
    slotOf (withJob jobCur (some 0) (some (0, false))) 0 = 0 ∧ phase (withJob jobCur (some 0) (some (0, false))) 0 ≠ 5 ∧
    (getSlot (withJob jobCur (some 0) (some (0, false))) 0).runs = [] ∧ (getSlot (withJob jobCur (some 0) (some (0, false))) 0).transit = [] ∧
    tokensDue (withJob jobCur (some 0) (some (0, false))) 0 = false ∧
    ∀ d ∈ diesOf State.reset 0, (getDie (withJob jobCur (some 0) (some (0, false))) d).streams ++ (getDie (withJob jobCur (some 0) (some (0, false))) d).gathers = [] := by
  decide +kernel
def savedJob (badRecord : Bool) : Saved := ⟨[], [], [], [], [], TickSt.reset, 1, 15, none, (0, 0), badRecord⟩
theorem witness_restore : ∀ x ∈ [⟨.empty, 1, true, 0, 0, 0, none⟩, ⟨.saved, 1, true, 0, 0, 0, some (savedJob false)⟩,
    ⟨.saved, 1, true, 0, 0, 0, some (savedJob true)⟩], let s := withJob x none none
    Admitted s 1 (.tmt 0) ∧ ttRun s 0 = false ∧ (getSlot s 0).current = none ∧ arg s (.tmt 0) 0 % 64 = 0 ∧ wipeIncomplete s 0 = false ∧
    lostCore s (savedJob false) = false ∧ phase s 0 ≠ 6 ∧ ∀ d ∈ diesOf s 0, ueWords s (ctxArea (getJob s 0 0) d) (65536 * ctxUnits 0) = [] := by
  unfold Admitted; decide +kernel
theorem witness_restore_lost : let s := withJob ⟨.saved, 1, true, 0, 0, 0, some (savedJob false)⟩ none none
    let t := setSynd s (ctxArea (getJob s 0 0) 7 / 8) 3
    7 ∈ diesOf t 0 ∧ ueWords t (ctxArea (getJob t 0 0) 7) (65536 * ctxUnits 0) ≠ [] := by decide +kernel

/-- R256, R281, R381: WIPE of a used and of an unused slot, LAYOUT into 8, the end of a wipe. -/
theorem witness_wipe : Admitted State.reset 1 (.tmt 0) ∧ slotUsed State.reset 0 = true ∧ Admitted State.reset 0 (.tmt 7) ∧
    slotUsed State.reset 7 = false := by unfold Admitted; decide +kernel
theorem witness_layout : ∀ n ∈ [1, 2, 4, 8], let s := wr State.reset (.tmt 8) hARG n
    Admitted s 0 (.tmt 8) ∧ arg s (.tmt 8) 0 % 16 = n ∧ slotIdle s 0 = true ∧ (arg s (.tmt 8) 0).testBit 4 = false := by
  unfold Admitted; decide +kernel
theorem witness_masks : masksApart [0x00FF, 0xFF00] = true ∧ masksApart [1, 3] = false := by decide
theorem witness_wipe_complete : ∀ w ∈ [0, 7, 8], busy (startLong State.reset (wipPage w) 0) (wipPage w) = true ∧
    rd (startLong State.reset (wipPage w) 0) (wipPage w) wip_STATE % 4 = 0 := by decide +kernel

/-- R15: CORE_SWAP of slots 14 and 15 of a tract, halted, ticking with and without a reserve; and one that waits. -/
def swapping (n ph reserve : Nat) : State :=
  setPhase (wr (wr State.reset (.trc 7 23) hARG n) (.trc 7 23) trc_RESERVE reserve) 0 ph
theorem witness_swap : ∀ n ∈ [14, 15], ∀ ph ∈ [0, 3, 5], ∀ r ∈ [0, 0x10F], Admitted (swapping n ph r) 1 (.trc 7 23) ∧
    arg (swapping n ph r) (.trc 7 23) 0 % 16 = n ∧ (slotSite (swapping n ph r) 7 23 14).isSome = true ∧
    reserveOf (swapping n ph r) 7 23 = (if r = 0 then none else some 15) := by unfold Admitted; decide +kernel
theorem witness_swap_apply : ∀ ph ∈ [0, 3], let s := startLong (withDones (List.range 8) true (swapping 14 ph 0x10F)) (.trc 7 23) 0
    unfinished s (.trc 7 23) = true ∧ (getSlot s 0).loading = false ∧ slotSite s 7 23 14 = some 14 ∧ reserveOf s 7 23 = some 15 ∧
    (activePhase (phase s 0) = false ∨ (ticking s 0 = true ∧ roleNo s 0 ≠ 2 ∧ windowOver s 0 = true)) := by decide +kernel
theorem witness_swap_waits : let s := startLong (swapping 14 3 0x10F) (.trc 7 23) 0
    unfinished s (.trc 7 23) = true ∧ (getSlot s 0).loading = false ∧ activePhase (phase s 0) = true ∧ roleNo s 0 ≠ 2 ∧
    windowOver s 0 = false ∧ (getTick s 0).bounded = false := by decide +kernel

/-- R117: an image of one program for 8 dies, its header at the start of the stack of die 0, its masks behind; `win` its window. -/
def secBytes (kind off len : Nat) : List Byte := toBytes 2 kind ++ toBytes 2 0 ++ toBytes 4 0 ++ toBytes 4 off ++ toBytes 4 len
def header (win : Nat) : List Byte :=
  toBytes 4 0x4A385347 ++ toBytes 2 1 ++ toBytes 2 0 ++ toBytes 4 1024 ++ [8, 1, 1, 10] ++ toBytes 4 4096 ++ toBytes 4 win
    ++ toBytes 8 0 ++ toBytes 4 0 ++ [1, 0, 0, 0] ++ toBytes 4 0 ++ List.replicate 20 0
    ++ secBytes 1 256 360 ++ secBytes 2 640 64 ++ secBytes 3 704 64 ++ secBytes 4 768 64 ++ secBytes 8 832 64
def image1 : Image := ⟨[⟨0, 0, 0, [0], [BitVec.ofNat 64 (word 0x50 [])], []⟩], [], [], [], [], [], [], [], [], []⟩
def loading (win : Nat) : State :=
  let s := memWrite (memWrite State.reset (2 ^ 46) (header win)) (2 ^ 46 + 256) [1]
  let s := wr (wr s (.tmt 0) (hARG + 4) (2 ^ 14)) (.tmt 0) (hARG + 8) 1024
  wr (wr (wr s (.tmt 0) (hARG + 12) 2) (.tmt 0) (hARG + 16) 65536) (.tmt 0) (hARG + 20) (2 ^ 14)
def verdict (s : State) : Option Nat :=
  let r := physRead s (2 ^ 46) 256
  let h := r.2.1
  let maskOf := fun q => match secFor h 1 q with
    | some e => (List.range (hdrDies h)).map (fun d => ofBytes (memRead r.1 (2 ^ 46 + e.off + 45 * d) 45))
    | none => List.replicate (hdrDies h) 0
  match judgeImage s 0 1024 h maskOf image1 with | .ok x => some (loadPages x.im).length | .error e => some e.1
theorem witness_load : ∀ w ∈ [0, 1], let s := loading w
    Admitted s 1 (.tmt 0) ∧ arg s (.tmt 0) 0 + 2 ^ 32 * (arg s (.tmt 0) 1 % 65536) = 2 ^ 46 ∧ arg s (.tmt 0) 2 = 1024 ∧
    arg s (.tmt 0) 4 + 2 ^ 32 * (arg s (.tmt 0) 5 % 65536) = 2 ^ 46 + 65536 ∧ (getSlot s 0).current.isSome = true ∧
    2 ≤ rd s .lcs lcs_STATE % 8 ∧ phase s 0 = 0 ∧ wipeIncomplete s 0 = false ∧ ownTier1 s 0 (2 ^ 46) 1024 pageSize = true ∧
    ownTier1 s 0 (2 ^ 46 + 65536) 64 64 = true ∧ (arg s (.tmt 0) 3).testBit 0 = false ∧ (arg s (.tmt 0) 3).testBit 1 = true := by
  unfold Admitted; decide +kernel
theorem witness_verdict : verdict (loading 1) = some 0 ∧ verdict (loading 0) = some 0x31 := by decide +kernel

/-- R274, R282: the sampler off and on; CLEAR. -/
theorem witness_sampler : ∀ c ∈ [0, 1], let s := wr State.reset (.smp 7) hCTRL c
    (rd s (.smp 7) hCTRL).testBit 0 = (c == 1) ∧ (rd s (.smp 7) hCTRL).testBit 1 = false ∧ Admitted s 1 (.smp 7) ∧
    coreOf s 7 359 = some (7 * 384 + siteAt 23 14) := by unfold Admitted; decide +kernel

/-! ## Translation tables and memory -/

/-- A stack address of die 0, and an entry of 16 sectors there with attributes. -/
def hbm (o : Nat) : Nat := 2 ^ 46 + o
def entry (attr o : Nat) : Nat := pteAt attr (hbm o / 4096) 16 false
/-- Translation of die 0's partition: tables of two pages at the start of the stack, a pool of 64 sectors at 1 MiB, a pool of
tier 2, region 0 of job 0. -/
def paged (ptes : List (Nat × Nat)) : State :=
  setSlot (wr (wr State.reset (.pgt 0) hCTRL 9) (.pgt 0) pgt_ROOT_HI (2 ^ 14)) 0
    { SlotSt.reset with areaPages := 10, regions := [(0, 0)], l1 := [(0, true)], ptes := ptes,
                        pools := [⟨1, hbm 0x100000 / 4096, 64⟩, ⟨2, 2 ^ 35, 64⟩] }
/-- Arguments of a command of a page, from ARG_0 on. -/
def withArgs (p : Page) (l : List Nat) (s : State) : State := (l.zipIdx).foldl (fun s e => wr s p (hARG + 4 * e.2) e.1) s
theorem pgtReady_of {s : State} {fn d : Nat} (h : Admitted s fn (.pgt d) ∧ cmdActive s (.pgt d) = false ∧
    homeDie s (slotOf s d) = d ∧ pgtEnabled s (slotOf s d) = true) : PgtReady s fn d := ⟨h.1, h.2.1, h.2.2.1, h.2.2.2⟩

/-- R205, R219: INIT, REGION (new, no room, of another job), POOL (added, refused, removed), QUOTA (within, over), WALK. -/
theorem witness_init : ∀ n ∈ [2, 1024], let s := withArgs (.pgt 0) [0x100000, 2 ^ 14, n] State.reset
    Admitted s 1 (.pgt 0) ∧ cmdActive s (.pgt 0) = false ∧ homeDie s 0 = 0 ∧ pgtEnabled s 0 = false ∧ pgtVa (argsOf s (.pgt 0)) = hbm 0x100000 ∧
    ownPhys s 0 (hbm 0x100000) (n * pageSize) = true ∧ hbm 0x100000 % pageSize = 0 ∧ stalled s (hbm 0x100000) = false ∧ stalled (startLong s (.mem 0) 0) (hbm 0x100000) = true ∧
    Admitted (startLong s (.mem 0) 0) 1 (.pgt 0) := by unfold Admitted; decide +kernel
def onPage : List (Nat × Nat) := [(5, entry 3 0x100000)]
theorem witness_pgt : ∀ l ∈ [[5, 0], [0, 63], [2 ^ 19 - 1, 63], [0, 4], [0, 9], [63, 4], [0x200000, 2 ^ 14, 16, 0], [0, 2 ^ 14, 1, 0],
    [0x110000, 2 ^ 14, 48, 1]], PgtReady (withArgs (.pgt 0) l (paged onPage)) 1 0 := by
  intro l h
  exact pgtReady_of (by unfold Admitted; revert l; decide +kernel)
theorem witness_region : let s := withArgs (.pgt 0) [5, 0] (paged onPage)
    tfind (getSlot s 0).regions 5 = none ∧ tablesUsed (getSlot s 0) + 1 ≤ tableRoom (getSlot s 0) ∧
    tfind (getSlot s 0).regions 0 = some 0 ∧ (∃ e ∈ (getSlot s 0).ptes, e.1 / 8192 = 0) ∧
    tableRoom { getSlot s 0 with areaPages := 8 } < tablesUsed { getSlot s 0 with areaPages := 8 } + 1 := by decide +kernel
theorem witness_region_full : let s := withArgs (.pgt 0) [5, 0] (paged onPage)
    PgtReady (setSlot s 0 { getSlot s 0 with areaPages := 8 }) 1 0 := pgtReady_of (by unfold Admitted; decide +kernel)
theorem witness_pool : badExtent (paged onPage) 0 (hbm 0x200000) 16 = none ∧ badExtent (paged onPage) 0 (hbm 0) 1 = some 0x0B ∧
    badRemoval (paged onPage) 0 (hbm 0x110000) 48 = none := by decide +kernel
theorem witness_quota : let s := paged onPage
    usedPages (getSlot s 0) 0 = 1 ∧ quotaSum s 0 = 0 ∧ poolSectors (getSlot s 0) 1 + poolSectors (getSlot s 0) 2 = 128 := by decide +kernel
theorem witness_walk : let s := withArgs (.pgt 0) [0x50000, 0] (paged onPage)
    PgtReady s 1 0 ∧ pgtVa (argsOf s (.pgt 0)) % pageSize = 0 ∧ pteOf s 0 (pgtVa (argsOf s (.pgt 0)) / pageSize) = entry 3 0x100000 :=
  ⟨pgtReady_of (by unfold Admitted; decide +kernel), by decide +kernel⟩
/-- R223: the stack of the tables, which is that of die 0, under CALIBRATE. -/
def tablesBusy (s : State) : State := startLong s (.mem 0) 0
theorem witness_pgt_waits : ∀ l ∈ [[5, 0], [0x210000, 2 ^ 14, 16, 0], [0x50000, 0, 1, 0], [0x60000, 0, 2, 0x211, 0x120000, 2 ^ 14]],
    let s := withArgs (.pgt 0) l (paged onPage)
    PgtReady (tablesBusy s) 1 0 ∧ busy (tablesBusy s) (.mem (tableStack (tablesBusy s) 0)) = true ∧ busy s (.mem (tableStack s 0)) = false ∧
    pgtStalls (tablesBusy s) 0 3 (argsOf (tablesBusy s) (.pgt 0)) = true ∧ pgtStalls s 0 3 (argsOf s (.pgt 0)) = false := by
  intro l h
  exact ⟨pgtReady_of (by unfold Admitted; revert l; decide +kernel), by revert l; decide +kernel⟩
theorem witness_map_waits : let s := startLong (withArgs (.pgt 0) [0x60000, 0, 1, 0x1D1] (paged onPage)) (.mem 7) 0
    PgtReady s 1 0 ∧ pgtStalls s 0 3 (argsOf s (.pgt 0)) = true ∧ busy s (.mem (tableStack s 0)) = false :=
  ⟨pgtReady_of (by unfold Admitted; decide +kernel), by decide +kernel⟩

/-- R207, R214: MAP of a created and an explicit page, refused; UNMAP, ATTR and MIGRATE of page 5, free, held by a tag, in transit. -/
def mapping (l : List Nat) : State := wr (withArgs (.pgt 0) l (paged onPage)) (.pgt 0) pgt_QUOTA_j 4
theorem witness_map : ∀ q ∈ [([0x60000, 0, 2, 0x211, 0x120000, 2 ^ 14], none), ([0x60000, 0, 1, 0x11, 0, 0], none),
    ([0x50000, 0, 1, 0x11, 0, 0], some 5), ([0x60001, 0, 1, 0x11, 0, 0], some 2)],
    PgtReady (mapping q.1) 1 0 ∧ badMap (mapping q.1) 0 (argsOf (mapping q.1) (.pgt 0)) = q.2 := by
  intro q h
  exact ⟨pgtReady_of (by unfold Admitted; revert q; decide +kernel), by revert q; decide +kernel⟩
def tagged (s : State) : State :=
  setDie s 0 { DieSt.reset with streams := [(1, { SDesc.none with state := 1, arm := some ⟨⟨0, 0, false, none⟩, true, 1, [5], 0, false⟩ })] }
def moving (s : State) : State := setSlot s 0 { getSlot s 0 with transit := [⟨5, entry 3 0x120000, 1⟩] }
theorem witness_unmap : ∀ a3 ∈ [0, 0x0201, 0x001F, 1], let s := withArgs (.pgt 0) [0x50000, 0, 1, a3] (paged onPage)
    PgtReady s 1 0 ∧ badRange (argsOf s (.pgt 0)) = none ∧ (∀ v ∈ pgtPages 0x50000 1, pteValid (pteOf s 0 v) = true ∧ ptePinned (pteOf s 0 v) = false ∧
      tagsOn s 0 v = false ∧ pageHeld s 0 v = false) ∧ ckpCopies s 0 = false ∧ pgtStatic s 0 = false ∧ 0 ∈ diesOf s 0 := by
  intro a h
  exact ⟨pgtReady_of (by unfold Admitted; revert a; decide +kernel), by revert a; decide +kernel⟩
theorem witness_unmap_waits : let s := withArgs (.pgt 0) [0x50000, 0, 1, 1] (paged onPage)
    PgtReady (tagged s) 1 0 ∧ tagsOn (tagged s) 0 5 = true ∧ PgtReady (moving s) 1 0 ∧ pageHeld (moving s) 0 5 = true :=
  ⟨pgtReady_of (by unfold Admitted; decide +kernel), by decide +kernel, pgtReady_of (by unfold Admitted; decide +kernel), by decide +kernel⟩
/-- R207, R208, R213: room for the one page of a MAP and of a MIGRATE; a stack whose pool is empty. -/
theorem witness_room : let s := withArgs (.pgt 0) [0x50000, 0, 1, 1] (paged onPage)
    RoomToMap (getSlot s 0) 1 none 1 ∧ RoomToMove (getSlot s 0) 1 (some 0) 1 ∧ freeRanges (getSlot s 0) 1 (some 7) = [] ∧
    stackStalls s (pteOf s 0 5) = false ∧ busy s (.mem 0) = false ∧ badMap (mapping [0x60000, 0, 1, 0x1D1]) 0 (argsOf (mapping [0x60000, 0, 1, 0x1D1]) (.pgt 0)) = none := by
  refine ⟨fun new h => ?_, fun l h => ?_, by decide +kernel⟩
  · obtain rfl : new = [] := List.eq_nil_of_length_eq_zero (Nat.lt_one_iff.mp h)
    decide +kernel
  · obtain rfl : l = [] := List.eq_nil_of_length_eq_zero (Nat.lt_one_iff.mp h)
    decide +kernel
theorem witness_migrate_stalls : let s := startLong (withArgs (.pgt 0) [0x50000, 0, 1, 1] (paged onPage)) (.mem 0) 0
    PgtReady s 1 0 ∧ stackStalls s (pteOf s 0 5) = true := ⟨pgtReady_of (by unfold Admitted; decide +kernel), by decide +kernel⟩

/-- R209, R210, R213, R223: a sweep with a page used and one not; a demotion with enough free; a switch. -/
theorem witness_migrator : let s := paged onPage
    slotUsed s 0 = true ∧ pgtEnabled s 0 = true ∧ pgtStatic s 0 = false ∧ (rd s (homePgt s 0) hCTRL).testBit 3 = true ∧
    rd s (homePgt s 0) pgt_T0_LOW ≤ freeSectors (getSlot s 0) 0 + freeing (getSlot s 0) 0 ∧
    rd s (homePgt s 0) pgt_T1_LOW ≤ freeSectors (getSlot s 0) 1 + freeing (getSlot s 0) 1 ∧ Admitted s 1 (.mem 0) := by
  unfold Admitted; decide +kernel
/-- R210: page 6 in a frame of tier 0, below the low mark, and a stack with room. -/
def lowMark : State :=
  let s := paged [(6, pteAt 3 (0x4000 / 4096) 16 false)]
  let s := setSlot s 0 { getSlot s 0 with pools := ⟨0, 0, 32⟩ :: (getSlot s 0).pools }
  wr (wr (wr s (.mem 0) hCTRL 0) (.pgt 0) pgt_T0_LOW 64) (.pgt 0) pgt_T0_HIGH 64
theorem witness_demotion : let s := lowMark
    ∃ q rest, demotable (getSlot s 0) 0 = q :: rest ∧
      freeSectors (getSlot s 0) 0 + freeing (getSlot s 0) 0 < rd s (homePgt s 0) pgt_T0_LOW ∧
      freeSectors (getSlot s 0) 0 + freeing (getSlot s 0) 0 < rd s (homePgt s 0) pgt_T0_HIGH ∧
      stackStalls s (pteOf s 0 q.1) = false ∧ busy s (.mem (fld (pteAddr q.2) 43 3)) = false ∧
      (rd s (.mem (fld (pteAddr q.2) 43 3)) hCTRL).testBit 0 = false ∧
      (∃ r ∈ freeRanges (getSlot s 0) 1 (some (fld (pteAddr q.2) 43 3)), 16 ≤ r.2) ∧
      slotUsed s 0 = true ∧ pgtEnabled s 0 = true ∧ pgtStatic s 0 = false :=
  ⟨(6, pteAt 3 4 16 false), [], by decide +kernel⟩
theorem witness_switch : let s := moving (paged onPage)
    (getSlot s 0).pgtWait = none ∧ (getSlot s 0).transit.find? (·.vpn == 5) = some ⟨5, entry 3 0x120000, 1⟩ ∧ pteValid (pteOf s 0 5) = true ∧
    (∀ f < 9, (getFunc s f).waits = []) ∧ ∀ e ∈ diesOf s 0, (getDie s e).owed = [] := by
  decide +kernel
theorem witness_calibrated : let s := finishLong (startLong (paged onPage) (.mem 7) 9) (.mem 7) 0 0 2
    pageOf (BitVec.ofNat 26 (pageBase (.mem 7))).toNat = some (.mem 7) ∧
    tfind s.cmds (pageBase (.mem 7)) = some ⟨resultWord 0 0 9, 2, true, true⟩ ∧
    (getSlot s 0).pgtWait = none ∧ (∀ f < 9, (getFunc s f).waits = []) ∧ ∀ e ∈ diesOf s 0, (getDie s e).owed = [] := by decide +kernel

/-! ## Streams and gathers -/

/-- A stream of one run of 64 B from far address 0x50000 to near address 0x10000 of logical core 0, of two arms, completing as
`kind` of `target`; `more` bytes 13 to 16. -/
def stream0 (len : Nat) (more : List Byte) (kind target : Nat) : List Byte :=
  toBytes 6 0x50000 ++ toBytes 4 0x10000 ++ toBytes 3 len ++ more ++ List.replicate 11 0 ++ toBytes 2 1 ++ toBytes 2 (kind + 4 * target)
/-- A gather of `n` rows of 64 B of a table of 16 rows at far address 0x50000, with its indices at 0x20000. -/
def gather0 (n more : Nat) : List Byte :=
  toBytes 6 0x50000 ++ toBytes 4 0x10000 ++ toBytes 3 0x20000 ++ toBytes 3 n ++ toBytes 2 0 ++ toBytes 4 64 ++ toBytes 4 16
    ++ [BitVec.ofNat 8 more] ++ toBytes 3 0 ++ [0, 0]
def one : List Byte := [0, 0, 0, 0]
def desc (b : List Byte) (state : Nat) (arm : Option Arm) (shadow : Option ArmReq) : SDesc := ⟨b, state, 0, arm, shadow, 0⟩
def withDesc (g : Bool) (i : Nat) (x : SDesc) (s : State) : State := setDesc s 0 g i x

/-- R229: an ARM of an idle descriptor, of a busy one with its shadow register free and full, while the engine is off, and of a
bad descriptor; a save; RESTART of a halted and an idle descriptor. -/
def busyArm : Option Arm := some ⟨⟨0, 1, false, none⟩, true, 1, [], 0, false⟩
def arming (g on : Bool) (x : SDesc) : State :=
  withArgs (engPage 0 g) [1023, 1, 7] (wr (withDesc g 1023 x State.reset) (engPage 0 g) hCTRL (b2n on))
def bytes0 (g : Bool) : List Byte := if g then gather0 1 0 else stream0 64 one 1 3
theorem witness_arm : ∀ g ∈ [true, false], ∀ on ∈ [true, false], ∀ x ∈ [desc (bytes0 g) 0 none none, desc (bytes0 g) 1 busyArm none,
    desc (bytes0 g) 1 busyArm (some ⟨1, 5, false, none⟩), desc (bytes0 g) 2 busyArm none],
    Admitted (arming g on x) 1 (engPage 0 g) ∧ getDesc (arming g on x) 0 g 1023 = x ∧ arg (arming g on x) (engPage 0 g) 0 % 1024 = 1023 ∧
    arg (arming g on x) (engPage 0 g) 1 % 65536 < sArms (stream0 64 one 1 3) ∧ (rd (arming g on x) (engPage 0 g) hCTRL).testBit 0 = on ∧
    descBad (arming g on x) 0 g x.bytes = false ∧ saves (arming g on x) 0 = false := by
  unfold Admitted; decide +kernel
theorem witness_arm_bad : descBad State.reset 0 false (stream0 64 [4, 0, 0, 0] 1 3) = true ∧
    saves (setSlot State.reset 0 { SlotSt.reset with saving := some (0, false) }) 0 = true := by decide +kernel

/-- R230, R242: the end of an arm that satisfies the task of context 3 and one that signals semaphore 0 of logical core 0; with a
shadow register full, during a save, and muted. -/
def endArm (mute : Bool) : Arm := ⟨⟨0, 1, false, none⟩, true, 1, [], 0, mute⟩
def ends (kind : Nat) (mute : Bool) (shadow : Option ArmReq) : State :=
  withDesc false 1023 (desc (stream0 64 one kind (if kind = 1 then 3 else 0)) 1 (some (endArm mute)) shadow)
    (engine 3 [(3, ctxIn 3 .waiting 1 0)])
theorem witness_arm_end : ∀ kind ∈ [1, 2], ∀ mute ∈ [true, false], ∀ sh ∈ [none, some ⟨1, 5, false, none⟩], let s := ends kind mute sh
    getDesc s 0 false 1023 = desc (stream0 64 one kind (if kind = 1 then 3 else 0)) 1 (some (endArm mute)) sh ∧ saves s 0 = false ∧
    dKind (getDesc s 0 false 1023).bytes = kind ∧ (getCtx s 0 3).released = true ∧ (getCtx s 0 3).sample = (endArm mute).req.sample ∧
    (getCtx s 0 3).state = .waiting ∧ 0 < (getCtx s 0 3).dcur ∧ coreOf s 0 0 = some 0 := by decide +kernel

/-- R228, R230, R234, R235: an arm that may start, of no bytes, a LOAD, a STORE and one whose page is not mapped. -/
def starting (g : Bool) (ptes : List (Nat × Nat)) (b : List Byte) : State :=
  withDesc g 1023 (desc b 1 (some (newArm ⟨0, 1, false, none⟩)) none) (paged ptes)
theorem armReady_of {s : State} {d : Nat} {g : Bool} {i : Nat} {x : SDesc} {a : Arm} {key : Nat}
    (h : getDesc s d g i = x ∧ x.state = 1 ∧ x.arm = some a ∧ a.moved = false ∧ (movingArms s d).length < 32 ∧
      coreOf s d (dCore x.bytes) = some key ∧ ((getCore s key).shadows = [] ∧ openGroups (getCore s key) = [] ∧ (getCore s key).busy = []) ∧
      fenceHolds s d a.req = false ∧ s.synd = [] ∧ s.hard = []) : ArmReady s d g i x a key :=
  let ⟨desc, active, arm, fresh, room, core, flat, free, clean⟩ := h
  ⟨desc, active, arm, fresh, room, core, flat, free, clean⟩
/-- Where no table entry is damaged and no CALIBRATE stalls the tables, every translation cache finds the same. -/
theorem look_every {s : State} {k : Nat} (h : (getSlot s k).badPte = [] ∧ busy s (.mem (tableStack s k)) = false) (c vpn : Nat) (w r : Bool) :
    look s k c vpn w r = look s k 0 vpn w r := by
  simp [look, walkLost, walkStalls, entryLost, h.1, h.2, tfind]
theorem flat_of {s : State} {k va n : Nat} {w : Bool} {a e : Nat} (h : 0 < n ∧ va < 2 ^ 48 ∧ va % pageSize + n ≤ pageSize ∧
    look s k 0 (va / pageSize) w false = .found e ∧ ((getSlot s k).badPte = [] ∧ busy s (.mem (tableStack s k)) = false) ∧ pteTier e = 1 ∧
    pteCoded e = false ∧ a = pteAddr e + va % pageSize) : FlatAt s k va n w a :=
  let ⟨pos, low, inside, found, every, tier, raw, at_⟩ := h
  ⟨pos, low, inside, e, fun c => (look_every every c _ _ _).trans found, tier, raw, at_⟩
theorem witness_stream_arm : ∀ b ∈ [stream0 0 one 0 0, stream0 64 one 0 0, stream0 64 [1, 0, 0, 0] 0 0],
    ArmReady (starting false onPage b) 0 false 1023 (desc b 1 (some (newArm ⟨0, 1, false, none⟩)) none) (newArm ⟨0, 1, false, none⟩) 0 := by
  intro b h
  exact armReady_of (by revert b; decide +kernel)
theorem witness_stream_far : ∀ w ∈ [true, false], FlatAt (starting false onPage (stream0 64 [if w then 1 else 0, 0, 0, 0] 0 0)) 0 0x50000 64 w
    (hbm 0x100000) := by
  intro w h
  exact flat_of (e := entry 3 0x100000) (by revert w; decide +kernel)
theorem witness_stream_form : sCnt1 (stream0 64 one 0 0) = 1 ∧ sCnt2 (stream0 64 one 0 0) = 1 ∧ sLen (stream0 64 one 0 0) = 64 ∧
    sAhead (stream0 64 one 0 0) = 0 ∧ inData 0x10000 64 = true ∧ sStore (stream0 64 [1, 0, 0, 0] 0 0) = true ∧
    pgtPromote (paged onPage) 0 = false ∧ look (starting false [] (stream0 64 one 0 0)) 0 0 5 false false = .fault 0x0A 0 ∧
    sTotal (stream0 64 one 0 0) = 64 ∧ inData 0x27FFC1 64 = false := by decide +kernel
/-- The gather's index is `i`. -/
def gathering (more i : Nat) (n : Nat) : State := memWrite (starting true onPage (gather0 n more)) (coreAddr 0 0x20000) (toBytes 4 i)
theorem witness_gather_arm : ∀ q ∈ [(0, 0, 0), (8, 0xFFFFFFFF, 1), (8, 16, 1), (0, 16, 1), (0, 3, 1)],
    ArmReady (gathering q.1 q.2.1 q.2.2) 0 true 1023 (desc (gather0 q.2.2 q.1) 1 (some (newArm ⟨0, 1, false, none⟩)) none) (newArm ⟨0, 1, false, none⟩) 0 ∧
    bytesAt (memRead (gathering q.1 q.2.1 q.2.2) (coreAddr 0 0x20000) 4) 0 4 = q.2.1 := by
  intro q h
  exact ⟨armReady_of (by revert q; decide +kernel), by revert q; decide +kernel⟩
theorem witness_gather_far : FlatAt (gathering 0 3 1) 0 (0x50000 + 192) 64 false (hbm 0x1000C0) :=
  flat_of (e := entry 3 0x100000) (by decide +kernel)
theorem witness_gather_form : gCount (gather0 1 0) = 1 ∧ gGen (gather0 1 8) = 0 ∧ gRow (gather0 1 0) = 64 ∧ gRows (gather0 1 0) = 16 ∧
    gOobZero (gather0 1 8) = true ∧ gWidth (gather0 1 0) = 4 ∧ gIdx (gather0 1 0) = 0x20000 ∧ (getDie (gathering 0 3 1) 0).lines = [] ∧
    (rd (gathering 0 3 1) (.gch 0) hCTRL).testBit 1 = false ∧ 192 % 256 + 64 ≤ 256 := by decide +kernel

/-! ## Collectives -/

/-- Group 7: valid, version 3, two members, this module of rank 0, the other module 1. -/
def grp7 : List Byte := [1, 3, 0, 0] ++ toBytes 4 1 ++ toBytes 4 0 ++ toBytes 4 1 ++ toBytes 4 1 ++ List.replicate 12 0
/-- An operation entry of group 7: kind, 32 F32 elements from 0x51000 to 0x52000, parts, posts so far, STATE; completing task 3. -/
def opEntry (kind parts posts st : Nat) : List Byte :=
  [BitVec.ofNat 8 kind, 0] ++ toBytes 2 7 ++ toBytes 4 32 ++ toBytes 6 0x51000 ++ toBytes 6 0x52000 ++ List.replicate 16 0
    ++ toBytes 2 parts ++ toBytes 2 (1 + 4 * 3) ++ List.replicate 8 0 ++ toBytes 2 posts ++ toBytes 2 8 ++ [BitVec.ofNat 8 st] ++ List.replicate 11 0
/-- Operation 0 of job 0 at 0x50000, its engine on. -/
def coll (on : Bool) (e : List Byte) : State :=
  let s := wr (wr (wr (paged onPage) (.clv 0) hCTRL (b2n on)) (.clv 0) clv_OP_BASE_j_LO 0x50000) (.clv 0) clv_OP_BASE_j_HI 65536
  memWrite (setGroup s 0 7 grp7) (hbm 0x100000) e
/-- R311: GROUP_WRITE of the lowest and the highest index of a slot of eight, with a run of the group, of another slot's index. -/
def writing (g : Nat) (busy : Bool) : State :=
  let s := wr (withArgs (.clv 0) [0x301, 1, 0, 1, 1, 0, 0, 0] (coll true (opEntry 5 2 0 0))) (.clv 0) clv_GRP_SEL g
  if busy then setSlot s 0 { getSlot s 0 with runs := [⟨0, 9, g, 3, [], 2, 0, 1, 1, true, [], [], [], 0, [], [], false, none, none⟩] } else s
theorem witness_group : ∀ g ∈ [0, 4095], Admitted (writing g false) 1 (.clv 0) ∧ rd (writing g false) (.clv 0) clv_GRP_SEL % 4096 = g ∧
    slotUsed (writing g false) 0 = true ∧ inGroups (writing g false) 0 g = true ∧ (∀ r ∈ (getSlot (writing g false) 0).runs, r.group ≠ g) := by
  unfold Admitted; decide +kernel
theorem witness_group_broken : let s := setGroup (writing 7 true) 0 7 (3 :: grp7.drop 1)
    grpBroken (groupOf s 0 7) = true ∧ (∃ r ∈ (getSlot s 0).runs, r.group = 7) ∧ Admitted s 1 (.clv 0) := by
  unfold Admitted; decide +kernel
theorem witness_group_unused : slotUsed State.reset 1 = false ∧ Admitted State.reset 0 (.clv 1) := by unfold Admitted; decide +kernel

/-- R309: a post to an engine that is off; a post that is not the last of two; the last one of a BARRIER. -/
theorem witness_post_off : Admitted (coll false (opEntry 5 2 0 0)) 1 (.clv 0) ∧ postWaits (coll false (opEntry 5 2 0 0)) 0 0 = false ∧
    (rd (coll false (opEntry 5 2 0 0)) (.clv 0) hCTRL).testBit 0 = false := by unfold Admitted; decide +kernel
theorem witness_post : ∀ n ∈ [0, 1], let s := coll true (opEntry 5 2 n 0)
    Admitted s 1 (.clv 0) ∧ slotUsed s 0 = true ∧ (rd s (.clv 0) hCTRL).testBit 0 = true ∧ arg s (.clv 0) 0 % 4096 = 0 ∧
    opVa s 0 0 = some 0x50000 ∧ s.synd = [] ∧ memRead s (hbm 0x100000) 64 = opEntry 5 2 n 0 ∧ opPending (opEntry 5 2 n 0) = false ∧
    opLegal s 0 (opEntry 5 2 n 0) = true ∧ min (opPosts (opEntry 5 2 n 0) + 1) 65535 = n + 1 ∧ opState (opEntry 5 2 n 0) ≠ 2 ∧
    (getSlot s 0).saving = none ∧ grpValid (groupOf s 0 7) = true ∧ grpBroken (groupOf s 0 7) = false ∧ runOfOp s 0 0 = none := by
  unfold Admitted; decide +kernel
/-- A further run's last part while one is in progress, and one more post. -/
def further (pending : Bool) : List Byte := opEntry 5 2 1 (if pending then 2 + 4 else 2)
theorem witness_post_further : ∀ b ∈ [true, false], let s := coll true (further b)
    Admitted s 1 (.clv 0) ∧ slotUsed s 0 = true ∧ (rd s (.clv 0) hCTRL).testBit 0 = true ∧ opVa s 0 (arg s (.clv 0) 0 % 4096) = some 0x50000 ∧
    memRead s (hbm 0x100000) 64 = further b ∧ opPending (further b) = b ∧ opState (further b) = 2 ∧ opLegal s 0 (further b) = true ∧
    opParts (further b) ≤ min (opPosts (further b) + 1) 65535 := by unfold Admitted; decide +kernel
theorem witness_post_further_flat : ∀ b ∈ [true, false], FlatAt (coll true (further b)) 0 0x50000 64 true (hbm 0x100000) := by
  intro b h
  exact flat_of (e := entry 3 0x100000) (by revert b; decide +kernel)
theorem witness_post_flat : FlatAt (coll true (opEntry 5 2 0 0)) 0 0x50000 64 true (hbm 0x100000) := flat_of (e := entry 3 0x100000) (by decide +kernel)

/-- R313 to R317: a segment of run 9 of operation 0 at port 0, from rank 1; its run; another membership; no run. -/
def seg (kind version step off : Nat) (data : List Byte) : List Byte := segBytes kind 0 7 version 0 9 1 step off 1 0 data
def collRun (kind : Nat) : CollRun := ⟨0, 9, 7, 3, (opEntry kind 2 0 2).take 48, 2, 0, 1, 1, true, [], [], [], 64, [], [], false, some 1, none⟩
def data4 : List Byte := [0, 0, 0x80, 0x3F]
def segs (runs : List CollRun) (b : List Byte) : State :=
  let s := coll true (opEntry 2 2 0 2)
  setPort (setSlot s 0 { getSlot s 0 with runs := runs }) 0 { PortSt.reset with inbox := [(2, 1, b)] }
theorem segmentAt_of {s : State} {p kind k i : Nat} {b : List Byte} (h : firstSeg (getPort s p) = some (i, 1, b) ∧ segKind b = kind ∧
    portSlot s p = some k ∧ segDest b = moduleNo s ∧ (inGroups s k (segGroup b) = true ∧ grpValid (groupOf s k (segGroup b)) = true) ∧
    segVersion b = grpVersion (groupOf s k (segGroup b))) : SegmentAt s p kind k i b :=
  let ⟨first, kind, slot, dest, group, version⟩ := h
  ⟨⟨1, first⟩, kind, slot, dest, group, version⟩
theorem witness_segment : ∀ kind ∈ [0, 1, 2], ∀ l ∈ [[], [collRun 1], [collRun 2]],
    SegmentAt (segs l (seg kind 3 1 64 (if kind = 0 then data4 else []))) 0 kind 0 0 (seg kind 3 1 64 (if kind = 0 then data4 else [])) := by
  intro kind h l g
  exact segmentAt_of (by revert kind l; decide +kernel)
theorem witness_segment_run : ∀ kind ∈ [1, 2], let s := segs [collRun kind] (seg 0 3 1 0 data4)
    runOfOp s 0 0 = some (collRun kind) ∧ s.synd = [] ∧ ckPhase s 0 = 0 ∧ (collRun kind).n ≤ 1 + 1 ∧ opKind (collRun kind).entry = kind ∧
    (segData (seg 0 3 1 0 data4)).length = 4 ∧ segLength (seg 0 3 1 0 data4) = 4 ∧ runOfOp (segs [] (seg 0 3 1 0 data4)) 0 0 = none := by decide +kernel
theorem witness_segment_flat : ∀ a ∈ [0x52000, 0x52040], FlatAt (segs [collRun 2] (seg 0 3 1 0 data4)) 0 a 4 true (hbm 0xB0000 + a) ∧
    FlatAt (segs [collRun 1] (seg 0 3 1 0 data4)) 0 a 4 true (hbm 0xB0000 + a) := by
  intro a h
  exact ⟨flat_of (e := entry 3 0x100000) (by revert a; decide +kernel), flat_of (e := entry 3 0x100000) (by revert a; decide +kernel)⟩
theorem witness_segment_own : FlatAt (segs [collRun 1] (seg 0 3 1 0 data4)) 0 0x51040 4 false (hbm 0x101040) :=
  flat_of (e := entry 3 0x100000) (by decide +kernel)
theorem witness_segment_version : let s := segs [collRun 2] (seg 0 4 1 0 data4)
    firstSeg (getPort s 0) = some (0, 1, seg 0 4 1 0 data4) ∧ segVersion (seg 0 4 1 0 data4) ≠ grpVersion (groupOf s 0 7) ∧
    portSlot s 0 = some 0 := by decide +kernel
/-- R316: a run that has done everything. -/
def doneRun (kind : Nat) : CollRun := { collRun kind with due := 0, passed := true }
def finishing (kind : Nat) : State :=
  let s := coll true (opEntry kind 2 0 2)
  setDie (setSlot s 0 { getSlot s 0 with runs := [doneRun kind] }) 0 { DieSt.reset with ctxs := [(3, ctxIn 3 .waiting 1 0)] }
theorem witness_run_done : ∀ kind ∈ [0, 1, 5], runOfOp (finishing kind) 0 0 = some (doneRun kind) ∧ runDone (finishing kind) 0 (doneRun kind) = true ∧
    opVa (finishing kind) 0 0 = some 0x50000 ∧ (finishing kind).synd = [] ∧ memRead (finishing kind) (hbm 0x100000) 64 = opEntry kind 2 0 2 ∧
    opPending (opEntry kind 2 0 2) = false ∧ opPosts (opEntry kind 2 0 2) = 0 ∧ opCkind (doneRun kind).entry = 1 ∧
    (doneRun kind).sample = some 1 ∧ (getCtx (finishing kind) 0 3).sample = 1 ∧ (getCtx (finishing kind) 0 3).released = true ∧
    (getCtx (finishing kind) 0 3).state = .waiting ∧ (getCtx (finishing kind) 0 3).dcur = 1 ∧ opTarget (doneRun kind).entry % 8192 = 3 ∧
    ∀ q ∈ (getSlot (finishing kind) 0).runs, q.op = 0 → q = doneRun kind := by
  decide +kernel
theorem witness_run_flat : ∀ kind ∈ [0, 1, 5], FlatAt (finishing kind) 0 0x50000 64 true (hbm 0x100000) := by
  intro kind h
  exact flat_of (e := entry 3 0x100000) (by revert kind; decide +kernel)

/-! ## Flidric -/

/-- Port 7 in a state. -/
def port (st : Nat) (x : PortSt) : State := setPort (setPortState State.reset 7 st) 7 x
/-- Flits to it: of stream CTRL with a token, of a later number, a heartbeat with NAK, a broken one. -/
def tokF (die core : Nat) : Token := { tok 5 2 0 0 1 [] with dest := ⟨core, die, 0⟩ }
def flit (seq : Nat) : List Byte := flitBytes State.reset 3 PortSt.reset 0 0 seq 0 false false (tokenBytes (tokF 0 5))
def beat : List Byte := flitBytes State.reset 3 PortSt.reset 3 0 0 0 true true []
def listening (bad : Nat) (skip : Bool) (x : PortSt) : State := port 2 { x with bad := bad, skipping := skip }
theorem witness_flit : flVc (flit 0) = 0 ∧ flSeq (flit 0) = PortSt.reset.expect ∧ flSeq (flit 5) = 5 ∧ flVc (flit 5) = 0 ∧ flVc beat = 3 ∧
    flHb beat = true ∧ (flPayload (flit 0)).length = 32 ∧ unitSize 0 (flPayload (flit 0)) = 32 := by decide +kernel
theorem witness_flit_good : flGood (flit 0) = true ∧ flGood (flit 5) = true ∧ flGood beat = true := by
  refine ⟨?_, ?_, ?_⟩ <;> exact flGood_flitBytes (h := by decide) ..
/-- A flit that begins a token. -/
def partFlit : List Byte := flitBytes State.reset 3 PortSt.reset 0 0 0 0 false false [1, 2]
theorem witness_flit_part : flVc partFlit = 0 ∧ flSeq partFlit = PortSt.reset.expect ∧ (flPayload partFlit).length = 2 := by decide +kernel
theorem witness_flit_part_good : flGood partFlit = true := flGood_flitBytes (h := by decide) ..
theorem witness_flit_bad : ∃ n < 2, flGood (List.replicate 252 0 ++ toBytes 4 n) = false := by
  rcases Nat.eq_zero_or_pos (crc32 (List.replicate 252 0)) with h | h
  · exact ⟨1, by decide, by rw [flGood_append _ _ List.length_replicate (by decide), h]; decide⟩
  · exact ⟨0, by decide, by rw [flGood_append _ _ List.length_replicate (by decide)]; exact decide_eq_false (by omega)⟩
theorem witness_port : ∀ bad ∈ [0, 7], ∀ skip ∈ [true, false], portLive (listening bad skip PortSt.reset) 7 = true ∧
    (getPort (listening bad skip PortSt.reset) 7).bad = bad ∧ (getPort (listening bad skip PortSt.reset) 7).skipping = skip := by decide +kernel
theorem witness_flit_due : let b : List Byte := List.replicate 252 0
    flVc b = 0 ∧ flSeq b = PortSt.reset.expect ∧ (getPort (listening 7 true { PortSt.reset with expect := 5 }) 7).expect ≠ flSeq b := by decide +kernel
def replaying : PortSt := { PortSt.reset with nakIn := true, replay := [⟨4095, 0, 0, 0, [1, 2], []⟩, ⟨0, 0, 0, 0, [3], []⟩] }
theorem witness_replay : (getPort (listening 0 false replaying) 7).nakIn = true := by decide +kernel
/-- R307: a token of the slot's die, for its generator, for die 8's other slots, for die 9; of a port of no slot. -/
def arrived (die core : Nat) : State := port 2 { PortSt.reset with inbox := [(0, 0, tokenBytes (tokF die core))] }
theorem witness_token : ∀ q ∈ [(7, 5), (8, 0x168), (8, 0x169), (9, 5)],
    firstToken (arrived q.1 q.2) 7 = some (0, 0, tokenBytes (tokF q.1 q.2)) ∧ tokenFrom (tokenBytes (tokF q.1 q.2)) = tokF q.1 q.2 ∧
    portSlot (arrived q.1 q.2) 7 = some 0 ∧ moduleNo (arrived q.1 q.2) = 0 ∧ slotOf (arrived q.1 q.2) 7 = 0 := by decide +kernel
def outsider : State := { arrived 7 5 with masks := [0xFF7F] }
theorem witness_token_none : firstToken outsider 7 = some (0, 0, tokenBytes (tokF 7 5)) ∧ portSlot outsider 7 = none ∧
    firstToken State.reset 7 = none := by decide +kernel
/-- A TASK token and a claim; a hub whose way to the die is full of tokens. -/
theorem witness_token_kind : ∀ kind ∈ [2, 6], let t := { tokF 7 5 with kind := kind }
    firstToken (port 2 { PortSt.reset with inbox := [(0, 0, tokenBytes t)] }) 7 = some (0, 0, tokenBytes t) ∧
    (tokenFrom (tokenBytes t)).kind = kind ∧ (tokenFrom (tokenBytes t)).dest.mod = 0 := by decide +kernel
/-- R383: the life-cycle state DIAGNOSTIC, and another. -/
theorem witness_flit_diagnostic : rd State.reset .lcs lcs_STATE % 8 ≠ 3 ∧ rd (wr (listening 0 false PortSt.reset) .lcs lcs_STATE 3) .lcs lcs_STATE % 8 = 3 ∧
    portLive (wr (listening 0 false PortSt.reset) .lcs lcs_STATE 3) 7 = true ∧ portLive (listening 0 false PortSt.reset) 7 = true ∧
    PortSt.reset.void = [] ∧ PortSt.reset.rx = [] := by decide +kernel

/-! ## Links -/

theorem witness_link : ∀ st ∈ [0, 1, 2, 3, 4], portState (port st PortSt.reset) 7 = st ∧ Admitted (port st PortSt.reset) 1 (.fld 7) ∧
    (rd (port st PortSt.reset) (.fld 7) hCTRL).testBit 0 = true ∧ (∀ q < 16, q ≠ 7 → portState (port st PortSt.reset) q ≠ 2) := by
  unfold Admitted; decide +kernel
theorem witness_link_off : ∀ st ∈ [0, 1, 3, 4], let s := wr (port st PortSt.reset) (.fld 7) hCTRL 0
    portState s 7 = st ∧ Admitted s 1 (.fld 7) ∧ (rd s (.fld 7) hCTRL).testBit 0 = false := by unfold Admitted; decide +kernel
def named : State := { port 0 PortSt.reset with board := { Board.up with node := some 0 } }
theorem witness_link_node : portState named 7 = 0 ∧ named.board.node.isSome = true ∧ Admitted named 1 (.fld 7) := by unfold Admitted; decide +kernel
theorem witness_train : let s := startLong (port 1 PortSt.reset) (.fld 7) 9
    portState s 7 = 1 ∧ tfind s.cmds (pageBase (.fld 7)) = some ⟨65536 * 9, 0, true, false⟩ := by decide +kernel
theorem witness_saddle : hubUp State.reset = true ∧ ∀ k < 12, (rd State.reset .hub (hub_SADDLE_k_STATE + 16 * k)).testBit 7 = false := by decide +kernel

/-! ## Checkpoints -/

/-- Registers of the CKP page of slot 0: CTRL, the local area of 32 sectors a slot at 0x500000, the held area of two pages a slot at
0x400000 for module 5, the buddy module 5; STATE. -/
def ckp (ptes : List (Nat × Nat)) (state : Nat) : State :=
  let p : Page := .ckp 0
  let s := wr (wr (wr (paged ptes) p hCTRL 1) p ckp_AREA_OFF 0x50) p ckp_AREA_SIZE 2
  let s := wr (wr (wr s p ckp_HOST_AREA_LO 0x400000) p ckp_HOST_AREA_HI (2 ^ 14)) p ckp_HOST_AREA_SIZE 2
  wr (wr (wr s p ckp_BUDDY (2 ^ 31 + 5)) p ckp_HOST_FOR (2 ^ 31 + 5)) p ckp_STATE state
def ck (x : CkSt) (s : State) : State := setCk s 0 x
def cowPage : CkPage := ⟨5, false, false, false, 16, 1, 0, 0, 0, false, 0⟩

/-- R339: CKPT_BEGIN of region 0, its list of one region at 0x50000, with each slot LAST; with the engine off. -/
theorem witness_ckpt_begin : ∀ last ∈ [0, 16], let s := withArgs (.ckp 0) [0x50000, 0, 1] (ckp onPage last)
    Admitted s 1 (.ckp 0) ∧ slotUsed s 0 = true ∧ (rd s (.ckp 0) hCTRL).testBit 0 = true ∧ ckPhase s 0 = 0 ∧ phase s 0 = 0 ∧
    fld (rd s (.ckp 0) hCTRL) 1 2 = 0 ∧ (getSlot s 0).current = some 0 ∧ s.synd = [] ∧ (getSlot s 0).transit = [] ∧
    arg s (.ckp 0) 0 + 2 ^ 32 * (arg s (.ckp 0) 1 % 65536) = 0x50000 ∧ arg s (.ckp 0) 2 = 1 ∧
    bytesAt (memRead s (hbm 0x100000) 4) 0 4 % 2 ^ 19 = 0 ∧ tfind (getSlot s 0).regions 0 = some 0 := by
  unfold Admitted; decide +kernel
theorem witness_ckpt_list : ∀ last ∈ [0, 16], FlatAt (withArgs (.ckp 0) [0x50000, 0, 1] (ckp onPage last)) 0 0x50000 4 false (hbm 0x100000) := by
  intro last h
  exact flat_of (e := entry 3 0x100000) (by revert last; decide +kernel)
theorem witness_ckpt_arm : ∀ ph ∈ [3, 4], let s := setPhase (withArgs (.ckp 0) [0x50000, 0, 1] (ckp onPage 0)) 0 ph
    phase s 0 = ph ∧ Admitted s 1 (.ckp 0) := by unfold Admitted; decide +kernel
theorem witness_ckpt_off : Admitted State.reset 1 (.ckp 0) ∧ (rd State.reset (.ckp 0) hCTRL).testBit 0 = false ∧ ckPhase State.reset 0 ≠ 3 := by
  unfold Admitted; decide +kernel
/-- R342, R344: CKPT_CANCEL, and the copy of the one page left, of a checkpoint that copies. -/
def copying (slot dest : Nat) : State :=
  ck { CkSt.reset with dest := dest, slot := slot, number := 1, pages := [cowPage], record := List.replicate 288 0 }
    (wr (ckp [(5, entry 7 0x100000)] 3) (.mem 0) hCTRL 0)
theorem witness_ckpt_cancel : ∀ slot ∈ [0, 1], Admitted (copying slot 0) 1 (.ckp 0) ∧ ckPhase (copying slot 0) 0 = 3 ∧
    (getCk (copying slot 0) 0).slot = slot ∧ (getSlot (copying slot 0) 0).pgtWait = none := by unfold Admitted; decide +kernel
theorem witness_ckpt_copy : ∀ slot ∈ [0, 1], let s := copying slot 0
    slotUsed s 0 = true ∧ ckPhase s 0 = 3 ∧ (getCk s 0).dest = 0 ∧ (getCk s 0).pages = [cowPage] ∧ cowPage.made = false ∧
    288 ≤ (getCk s 0).record.length ∧ (getSlot s 0).cowNext = [] ∧ (getSlot s 0).transit = [] ∧ (getSlot s 0).pgtWait = none ∧ s.synd = [] ∧
    s.hard = [] ∧ copyStalls s 0 cowPage = false ∧ (∀ f < 9, (getFunc s f).waits = []) ∧ pteOf s 0 5 = entry 7 0x100000 ∧ pteValid (entry 7 0x100000) = true ∧ pteTier (entry 7 0x100000) = 1 ∧
    pteCoded (entry 7 0x100000) = false ∧ (rd s (.mem (copyStack s 0 (entry 7 0x100000))) hCTRL).testBit 0 = false ∧
    areaPlace s 0 0 16 = some 16 := by decide +kernel
/-- R341: a hold of page 5 of a partition that is stopped. -/
def holding : State := ck { CkSt.reset with slot := 1, number := 1, regions := [0] } (wr (ckp onPage 1) (.ckp 0) ckp_AREA_SIZE 32)
theorem holding_set : ckSet holding 0 = [cowPage] := by decide +kernel
theorem holding_groups : (getSlot holding 0).groups = [] := by decide +kernel
theorem holding_area : areaSectors holding 0 = 512 := by decide +kernel
theorem witness_ckpt_hold : slotUsed holding 0 = true ∧ ckPhase holding 0 = 1 ∧ phase holding 0 = 0 ∧ (getCk holding 0).dest = 0 ∧
    (getCk holding 0).slot = 1 ∧ liveCaps holding 0 = [] ∧ (getSlot holding 0).captured = [] ∧ cowPage.tier ≠ 0 ∧
    pteValid (pteOf holding 0 cowPage.vpn) = true ∧ holding.hard = [] ∧ slotStalls holding 0 = false ∧
    slotStalls (startLong holding (.mem 7) 0) 0 = true ∧ ckPhase (startLong holding (.mem 7) 0) 0 = 1 := by decide +kernel
theorem witness_ckpt_record : cdiv (makeRecord holding 0 (ckSet holding 0)).2.length 4096 ≤ areaSectors holding 0 := by
  rw [holding_area, length_makeRecord _ _ _ holding_groups, holding_set]
  decide +kernel
/-- R341: the hold at the end of the window of a partition in RUN, whose boundary has passed, and one in the middle of it. -/
def holdingRun (b : Bool) : State := setTick (setPhase holding 0 3) 0 { TickSt.reset with bounded := b }
theorem witness_hold_run : ∀ b ∈ [true, false], let s := holdingRun b
    ticking s 0 = true ∧ roleNo s 0 ≠ 2 ∧ windowOver s 0 = false ∧ (getTick s 0).bounded = b ∧ slotUsed s 0 = true ∧ ckPhase s 0 = 1 ∧
    slotStalls s 0 = false ∧ 2 ≤ phase s 0 := by decide +kernel
theorem windowBoundary_holdingRun : windowBoundary (holdingRun true) 0 = holdingRun true := rfl
theorem boundary_set : ckSet (holdingRun true) 0 = [cowPage] := by decide +kernel
theorem boundary_groups : (getSlot (holdingRun true) 0).groups = [] := by decide +kernel
theorem boundary_area : areaSectors (holdingRun true) 0 = 512 := by decide +kernel
theorem witness_hold_boundary : let u := windowBoundary (holdingRun true) 0
    u.hard = [] ∧ phase u 0 ≠ 2 ∧ (getCk u 0).dest = 0 ∧ (getCk u 0).slot = 1 ∧ liveCaps u 0 = [] ∧ (getSlot u 0).captured = [] ∧
    pteValid (pteOf u 0 cowPage.vpn) = true ∧ cdiv (makeRecord u 0 (ckSet u 0)).2.length 4096 ≤ areaSectors u 0 := by
  simp only [windowBoundary_holdingRun, boundary_area, length_makeRecord _ _ _ boundary_groups, boundary_set]
  decide +kernel
/-- R346: an acknowledgement of the first of two pages. -/
def sent (i : Nat) : CkPage := { cowPage with vpn := i, made := true, buddy := 1 }
def ackSeg : List Byte := segBytes 3 0 0 0 1 1 5 0 0 0 0 []
def acking : State :=
  setPort (ck { CkSt.reset with dest := 2, slot := 1, number := 1, pages := [sent 5, sent 6] } (ckp onPage 3)) 7
    { PortSt.reset with inbox := [(2, 0, ackSeg)] }
theorem witness_ckpt_ack : firstSeg (getPort acking 7) = some (0, 0, ackSeg) ∧ segKind ackSeg = 3 ∧ segOp ackSeg = 1 ∧
    portSlot acking 7 = some 0 ∧ segDest ackSeg = moduleNo acking ∧ ckPhase acking 0 = 3 ∧ buddyOf acking 0 = some (segSrank ackSeg) ∧
    segRun ackSeg = 1 ∧ (getCk acking 0).pages = [sent 5, sent 6] ∧ segChunk ackSeg = 0 := by decide +kernel

/-- R346, R351: a COPY, the requests, and what answers a VERIFY. -/
def ckSegOf (op chunk off : Nat) (data : List Byte) : List Byte := segBytes 3 0 0 0 op 1 5 0 off chunk 0 data
def told (task : Option CkTask) (b : List Byte) : State :=
  setPort (startLong (ck { CkSt.reset with task := task } (ckp onPage 0)) (.ckp 0) 9) 7 { PortSt.reset with inbox := [(2, 0, b)] }
theorem witness_ckpt_seg : ∀ q ∈ [(0, recChunk, 16, [1, 2]), (2, 0, 0, toBytes 4 5), (4, 0, 0, toBytes 4 5), (6, recChunk, 65536, []),
    (5, 0, 0, [1, 2]), (5, 0, 0, []), (7, recChunk, 0, [1, 2])], let b := ckSegOf q.1 q.2.1 q.2.2.1 q.2.2.2
    firstSeg (getPort (told none b) 7) = some (0, 0, b) ∧ segKind b = 3 ∧ segOp b = q.1 ∧ portSlot (told none b) 7 = some 0 ∧
    segDest b = moduleNo (told none b) ∧ (told none b).synd = [] ∧ hostFor (told none b) 0 = some (segSrank b) ∧
    hostFor (wr (told none b) (.ckp 0) ckp_HOST_FOR 0) 0 = none ∧ segChunk b = q.2.1 ∧ segOffset b = q.2.2.1 ∧ segData b = q.2.2.2 ∧
    segLength b = q.2.2.2.length ∧ answersLive (told none b) 0 = true ∧ (getSlot (told none b) 0).transit = [] := by decide +kernel
theorem witness_ckpt_held : let s := told none []
    inHeld s 0 1 16 2 = true ∧ heldPart s 0 1 = (hbm 0x420000, 131072) ∧ inHeld s 0 1 65536 2048 = true ∧ (hbm 0x420000 + 65536) / 2 ^ 46 = 1 := by
  decide +kernel
theorem witness_ckpt_page : FlatAt (told none (ckSegOf 2 0 0 (toBytes 4 5))) 0 (5 * pageSize) pageSize false (hbm 0x100000) ∧
    FlatAt (told none (ckSegOf 4 0 0 (toBytes 4 5))) 0 (5 * pageSize) pageSize false (hbm 0x100000) :=
  ⟨flat_of (e := entry 3 0x100000) (by decide +kernel), flat_of (e := entry 3 0x100000) (by decide +kernel)⟩
def waiting (op want flags : Nat) (todo : List CkPage) : CkTask := ⟨op, flags, 5, want, [], [], todo, false, false⟩
theorem witness_ckpt_task : ∀ q ∈ [(5, 4), (7, 1)], ∀ d ∈ [[1, 2], []], let s := told (some (waiting 4 q.2 0 [])) (ckSegOf q.1 0 0 d)
    (getCk s 0).task = some (waiting 4 q.2 0 []) ∧ buddyOf s 0 = some 5 ∧ segSrank (ckSegOf q.1 0 0 d) = 5 ∧
    tfind s.cmds (pageBase (.ckp 0)) = some ⟨65536 * 9, 0, true, false⟩ := by decide +kernel
/-- The CRC of a page of zeros, as VERIFY of page 5 gets it. -/
def zeroCrc : Nat := crc64 (List.replicate pageSize 0)
def ridePage : CkPage := { cowPage with ride := true }
def crcSeg : List Byte := ckSegOf 3 0 0 (toBytes 8 zeroCrc)
def verifying : State := told (some (waiting 4 3 0 [ridePage])) crcSeg
theorem witness_ckpt_crc : firstSeg (getPort verifying 7) = some (0, 0, crcSeg) ∧ (getCk verifying 0).task = some (waiting 4 3 0 [ridePage]) ∧
    bytesAt (segData crcSeg) 0 8 = crc64 (memRead verifying (hbm 0x100000) pageSize) := by
  refine ⟨rfl, rfl, ?_⟩
  rw [memRead_zero verifying _ _ (by decide +kernel), show bytesAt (segData crcSeg) 0 8 = ofBytes (toBytes 8 zeroCrc) from rfl,
    ofBytes_toBytes]
  exact Nat.mod_eq_of_lt (crc64_lt _)
theorem witness_ckpt_crc_seg : segKind crcSeg = 3 ∧ segOp crcSeg = 3 ∧ portSlot verifying 7 = some 0 ∧ segDest crcSeg = moduleNo verifying ∧
    segSrank crcSeg = 5 ∧ segLength crcSeg = 8 ∧ (segData crcSeg).length = 8 ∧ (getSlot verifying 0).transit = [] ∧ verifying.synd = [] ∧
    verifying.hard = [] ∧ slotStalls verifying 0 = false ∧
    rd verifying (.ckp 0) ckp_VERIFY_BAD = 0 ∧ (tfind verifying.cmds (pageBase (.ckp 0))).isSome = true := by decide +kernel
theorem witness_ckpt_crc_page : FlatAt verifying 0 (5 * pageSize) pageSize false (hbm 0x100000) :=
  flat_of (e := entry 3 0x100000) (by decide +kernel)

/-- R349, R351, R359: a record of page 5 at a place; RESTORE, VERIFY and EXPOSE that find it, and that are refused. -/
def header0 : List Byte :=
  toBytes 4 0x4A38434B ++ toBytes 2 1 ++ [3, 0] ++ toBytes 4 1 ++ toBytes 4 0 ++ [1, 0, 0, 0] ++ toBytes 4 4 ++ toBytes 8 77 ++ toBytes 4 6
    ++ toBytes 8 0 ++ toBytes 4 1 ++ List.replicate 16 0 ++ toBytes 4 1 ++ toBytes 4 0 ++ toBytes 4 256 ++ toBytes 4 32 ++ List.replicate 176 0
def record0 (crc : Nat) : List Byte := header0 ++ dirBytes { cowPage with crc := crc }
def reading (ph flags crc a : Nat) : State :=
  { withArgs (.ckp 0) [flags, 0x50000, 0, 1, 0x60000, 0] (setPhase (wr (ckp [(5, entry 3 0x100000), (6, entry 3 0x600000)] 0) (.ckp 0)
      ckp_SLOT_n_STATE 2) 0 ph) with mem := cells a (record0 crc) }
theorem witness_ck_refused : Admitted (reading 0 0 0 0) 1 (.ckp 0) ∧ phase (reading 0 0 0 0) 0 ≠ 1 ∧ Admitted (ck CkSt.reset (ckp onPage 3)) 1 (.ckp 0) ∧
    ckPhase (ckp onPage 3) 0 ≠ 0 ∧ phase (reading 1 1 0 0) 0 = 1 ∧ ckPhase (reading 1 1 0 0) 0 = 0 ∧ localUsable (reading 1 1 0 0) 0 1 = false ∧
    (rd (reading 1 1 0 0) (.tmt 0) hCTRL).testBit 0 = false ∧ buddyOf (wr (reading 1 1 0 0) (.ckp 0) ckp_BUDDY 0) 0 = none := by
  unfold Admitted; decide +kernel
theorem witness_ck_restore : ∀ f ∈ [0, 512], let s := reading 1 f 0 (areaPart (reading 1 f 0 0) 0 0 0)
    Admitted s 1 (.ckp 0) ∧ phase s 0 = 1 ∧ localUsable s 0 0 = true ∧ (localRecord s 0 0).2 = some (record0 0) ∧
    bytesAt (record0 0) 16 1 % 128 = layoutN s + 16 * 0 ∧ bytesAt (record0 0) 12 4 % 2 ^ 18 = moduleNo s ∧ s.synd = [] := by
  unfold Admitted; decide +kernel
def verified0 : State := reading 1 0 zeroCrc (hbm 0x500000)
theorem header0_fields : header0.length = 256 ∧ recMagic header0 = true ∧ recLength header0 = 288 ∧ bytesAt header0 44 4 = 1 ∧
    (List.range 12).find? (fun i => bytesAt header0 (64 + 16 * i) 2 == 1) = some 0 ∧ bytesAt header0 72 4 = 256 ∧ bytesAt header0 76 4 = 32 := by
  decide +kernel
theorem entry0 (c : Nat) (h : c < 2 ^ 64) : dirFrom (dirBytes { cowPage with crc := c }) = { cowPage with made := true, crc := c } := by
  have hd : dirBytes { cowPage with crc := c } = [5, 0, 0, 0, 0xF0, 1, 0, 0] ++ (toBytes 8 c ++ List.replicate 16 0) := by
    simp [dirBytes, cowPage, toBytes, b2n, List.replicate]
  have hl : ∀ o n, o + n ≤ 8 → bytesAt (dirBytes { cowPage with crc := c }) o n = bytesAt [5, 0, 0, 0, 0xF0, 1, 0, 0] o n :=
    fun o n ho => by rw [hd]; exact bytesAt_left _ _ o n ho
  have hr : ∀ o n, bytesAt (dirBytes { cowPage with crc := c }) (8 + o) n = bytesAt (toBytes 8 c ++ List.replicate 16 0) o n :=
    fun o n => by rw [hd]; exact bytesAt_right _ _ o n
  have h8 := hr 0 8
  have h16 := (hr 8 4).trans (bytesAt_right (toBytes 8 c) (List.replicate 16 0) 0 4)
  rw [bytesAt_left _ _ _ _ (by simp)] at h8
  have hc : bytesAt (toBytes 8 c) 0 8 = c := by
    have := bytesAt_between [] [] 8 c
    rw [List.nil_append, List.append_nil] at this
    exact this.trans (Nat.mod_eq_of_lt h)
  simp only [dirFrom, hl 0 4 (by decide), hl 4 1 (by decide), hl 5 1 (by decide), h8, h16, hc]
  rfl
theorem record0_dir (c : Nat) (h : c < 2 ^ 64) : recDir (record0 c) = [{ cowPage with made := true, crc := c }] := by
  have hf := header0_fields
  have e : ∀ o n, o + n ≤ 256 → bytesAt (record0 c) o n = bytesAt header0 o n := fun o n ho => bytesAt_left _ _ _ _ (by rw [hf.1]; exact ho)
  have hs : recSection (record0 c) 1 = dirBytes { cowPage with crc := c } := by
    have hg : (List.range 12).find? (fun i => bytesAt (record0 c) (64 + 16 * i) 2 == 1) = some 0 := by
      rw [← hf.2.2.2.2.1]
      exact find_congr _ _ _ (fun i hi => by rw [e _ _ (by have := List.mem_range.mp hi; omega)])
    rw [recSection, hg]
    dsimp only
    rw [e _ _ (by decide), e _ _ (by decide), hf.2.2.2.2.2.1, hf.2.2.2.2.2.2, record0, ← hf.1, List.drop_left]
    rfl
  rw [recDir, recPages, e _ _ (by decide), hf.2.2.2.1, hs]
  exact congrArg (fun q => [q]) (entry0 c h)
theorem record0_length (c : Nat) : (record0 c).length = 288 := by rw [record0, List.length_append, header0_fields.1, length_dirBytes]
theorem verified0_reads : memRead verified0 (hbm 0x500000) 288 = record0 zeroCrc := by
  have h := memRead_cells verified0 (hbm 0x500000) (record0 zeroCrc) rfl
  rwa [record0_length] at h
theorem verified0_record : recMagic (memRead verified0 (hbm 0x500000) 256) = true ∧ recLength (memRead verified0 (hbm 0x500000) 256) = 288 ∧
    areaPart verified0 0 0 (homeDie verified0 0) = hbm 0x500000 ∧ verified0.synd = [] := by decide +kernel
theorem verified0_still : verified0.hard = [] ∧ slotStalls verified0 0 = false ∧ (getSlot verified0 0).transit = [] := by decide +kernel
theorem witness_ck_verify : phase verified0 0 = 1 ∧ localUsable verified0 0 0 = true ∧ (localRecord verified0 0 0).2 = some (record0 zeroCrc) ∧
    ∃ q, recDir (record0 zeroCrc) = [q] ∧ q.ride = false ∧ q.vpn = 5 ∧ crc64 (memRead verified0 (hbm 0x100000) pageSize) = q.crc := by
  refine ⟨by decide +kernel, by decide +kernel, ?_, _, record0_dir _ (crc64_lt _), rfl, rfl, ?_⟩
  · rw [localRecord, verified0_record.2.2.1, readRecord_clean _ _ (by decide) verified0_record.2.2.2 verified0_record.1, verified0_record.2.1,
      verified0_reads]
  · rw [memRead_zero verified0 _ _ (by decide +kernel)]
    rfl
theorem witness_ck_verify_page : FlatAt verified0 0 (5 * pageSize) pageSize false (hbm 0x100000) :=
  flat_of (e := entry 3 0x100000) (by decide +kernel)
def exposing : State := reading 0 0 0 (hbm 0x400000)
theorem witness_ck_expose : Admitted exposing 1 (.ckp 0) ∧ ckPhase exposing 0 = 0 ∧ (getSlot exposing 0).current = some 0 ∧
    (hostFor exposing 0).isSome = true ∧ inHeld exposing 0 0 0 256 = true ∧ (readRecord exposing (heldPart exposing 0 0).1).2 = some (record0 0) ∧
    recBuddyDone (record0 0) = true ∧ recDir (record0 0) = [{ cowPage with made := true }] ∧ arg exposing (.ckp 0) 3 = 1 ∧
    (arg exposing (.ckp 0) 1 + 2 ^ 32 * (arg exposing (.ckp 0) 2 % 65536)) / pageSize = 5 ∧ heldPage exposing 0 0 0 / 2 ^ 46 = 1 ∧
    (arg exposing (.ckp 0) 4 + 2 ^ 32 * (arg exposing (.ckp 0) 5 % 65536)) / pageSize = 6 ∧
    inPool (getSlot exposing 0) (pteRange (pteOf exposing 0 6)) = false := by unfold Admitted; decide +kernel
theorem witness_ck_still : ∀ f ∈ [0, 512], let s := reading 1 f 0 (areaPart (reading 1 f 0 0) 0 0 0)
    s.hard = [] ∧ slotStalls s 0 = false ∧ (getSlot s 0).transit = [] ∧ slotStalls exposing 0 = false := by decide +kernel
theorem witness_ck_expose_page : FlatAt exposing 0 (6 * pageSize) pageSize true (hbm 0x600000) :=
  flat_of (e := entry 3 0x600000) (by decide +kernel)

/-! ## Protection, firmware, power -/

/-- R376, R389: LOG_ADD of a new and a known entry, of a reserved kind, of a full log; WIPE_SITE of a reserve, of a site in use, past
the last site. -/
def logging (kind : Nat) (l : List Repair) : State := { withArgs .fus [kind + 256 * 7 + 65536 * 383, 0, 0] State.reset with repairs := l }
def known : Repair := ⟨3, 7, 383, 0, 0, 0, 0, true⟩
theorem witness_log : ∀ kind ∈ [0, 3], ∀ l ∈ [[], [known]], Admitted (logging kind l) 0 .fus ∧
    badEntry (arg (logging kind l) .fus 0) (arg (logging kind l) .fus 1) (arg (logging kind l) .fus 2) = (kind == 0) ∧
    (logging kind l).repairs = l ∧ fld (arg (logging kind l) .fus 0) 0 4 = kind ∧ fld (arg (logging kind l) .fus 0) 8 3 = 7 ∧
    fld (arg (logging kind l) .fus 0) 16 9 = 383 := by unfold Admitted; decide +kernel
def fullLog : List Repair := List.replicate 4096 { known with kind := 4 }
theorem witness_log_full : (logging 3 fullLog).repairs.length = 4096 ∧ ∀ r ∈ (logging 3 fullLog).repairs, r.kind = 4 := by
  rw [show (logging 3 fullLog).repairs = List.replicate 4096 { known with kind := 4 } from rfl]
  exact ⟨List.length_replicate, fun r hr => by rw [List.eq_of_mem_replicate hr]⟩
def wiping (site : Nat) : State := withArgs .fus [7 + 256 * site] State.reset
theorem witness_wipe_site : ∀ q ∈ [(siteAt 23 15, 1), (siteAt 23 14, 0), (384, 0)], Admitted (wiping q.1) 0 .fus ∧
    fld (arg (wiping q.1) .fus 0) 8 9 = q.1 ∧ arg (wiping q.1) .fus 0 % 8 = 7 ∧ (q.1 < 384 → roleOf (wiping q.1) 7 q.1 = q.2) ∧
    busy (wiping q.1) (.wip 7) = false := by unfold Admitted; decide +kernel
theorem witness_wipe_site_busy : let s := startLong (wiping (siteAt 23 15)) (.wip 7) 0
    Admitted s 0 .fus ∧ busy s (.wip 7) = true ∧ roleOf s 7 (siteAt 23 15) = 1 ∧ fld (arg s .fus 0) 8 9 = siteAt 23 15 := by
  unfold Admitted; decide +kernel

/-- R373, R374: a pass over a die's SRAM, its stack and the hub; one correctable bit of a core's SRAM. -/
theorem witness_scrub : ∀ w < 9, (rd State.reset (if w < 8 then .scb w else .scbH) hCTRL).testBit 0 = true ∧
    (getSlot State.reset (slotOf State.reset w)).saving = none ∧ (w < 8 → busy State.reset (.wip w) = false) ∧
    rd State.reset .lcs lcs_STATE % 8 ≠ 4 := by decide +kernel
def upset : State := { State.reset with synd := [(coreAddr 0 0x10000 / 8, column 0)] }
theorem witness_scrub_word : upset.synd = [(coreAddr 0 0x10000 / 8, column 0)] ∧ syndBit (column 0) = some 0 := ⟨rfl, syndBit_column 0 (by decide)⟩
theorem witness_scrub_place : let i := coreAddr 0 0x10000 / 8
    fld (8 * i) 43 3 = 0 ∧ fld (8 * i) 46 2 = 0 ∧ roleOf upset 0 (fld (8 * i) 34 9) ≠ 2 ∧ (rd upset (.scb 0) hCTRL).testBit 0 = true := by decide +kernel

/-- R384, R392: a change that is refused, and one with everything right but perhaps the signature. -/
theorem ofBytes_words (a b : Nat) : ofBytes (toBytes 4 a ++ toBytes 4 b) = a % 2 ^ 32 + 2 ^ 32 * (b % 2 ^ 32) := by
  have h : ofBytes (toBytes 4 a ++ toBytes 4 b) = ofBytes (toBytes 4 a) + 2 ^ 32 * ofBytes (toBytes 4 b) := by
    simp [toBytes, ofBytes]
    omega
  rw [h, ofBytes_toBytes, ofBytes_toBytes, show 256 ^ 4 = 2 ^ 32 from rfl]
/-- AUTH names the target and brings the NONCE v. -/
def bringing (v : BitVec 64) (target : Nat) : State :=
  { State.reset with regs := [lcs_ID_LO, lcs_ID_HI].map (fun o => (pageBase .lcs + o, (0 : W32)))
      ++ [(pageBase .lcs + lcs_AUTH_n + 8, v.setWidth 32), (pageBase .lcs + lcs_AUTH_n + 12, (v >>> 32).setWidth 32),
          (pageBase .lcs + lcs_AUTH_n + 16, w32 target)] }
theorem auth_nonce (v : BitVec 64) : bytesAt (authBytes (bringing v 4)) 8 8 = v.toNat := by
  have h : bytesAt (authBytes (bringing v 4)) 8 8 = ofBytes (toBytes 4 (v.setWidth 32).toNat ++ toBytes 4 ((v >>> 32).setWidth 32).toNat) := rfl
  rw [h, ofBytes_words, BitVec.toNat_setWidth, BitVec.toNat_setWidth, BitVec.toNat_ushiftRight,
    Nat.shiftRight_eq_div_pow]
  have := v.isLt
  omega
def authorized (target : Nat) : State := bringing (Config.nonce 0) target
theorem witness_lc_refused : Admitted (authorized 4) 0 .lcs ∧ lcReason (authorized 1) = some 1 ∧
    ∀ w < 9, busy (authorized 4) (wipPage w) = false := by unfold Admitted; decide +kernel
theorem witness_lc : lcReason (authorized 4) = none ∨ lcReason (authorized 4) = some 4 := by
  have h : lcReason (authorized 4) = if !Config.signatureOk ((authBytes (authorized 4)).take 32) ((authBytes (authorized 4)).drop 32) then some 4 else none := by
    unfold lcReason
    dsimp only
    rw [if_neg (by decide +kernel), if_neg (by decide +kernel), if_neg (c := bytesAt (authBytes (authorized 4)) 8 8 ≠ (Config.nonce (authorized 4).board.nonce).toNat)
      (not_not_intro (auth_nonce (Config.nonce 0)))]
    rw [if_neg (c := bytesAt (authBytes (authorized 4)) 16 1 % 8 = 3 ∧ fld (rd (authorized 4) .lcs lcs_STATE) 8 5 = 0) (by decide +kernel)]
  rw [h]
  cases Config.signatureOk ((authBytes (authorized 4)).take 32) ((authBytes (authorized 4)).drop 32) with
  | true => exact Or.inl rfl
  | false => exact Or.inr rfl

/-- R448, R449, R460: an image of no length, one of 1 byte at the start of a stack; FW_ACTIVATE of each area; SEQ_UPDATE of a die that
ticks and of none; a switch that waits and one that does not; a firmware that has still to prove itself. -/
def staging (n : Nat) : State := withArgs (.kld 8) [0, 2 ^ 14, n] State.reset
theorem witness_stage : ∀ n ∈ [0, 1, fwMax, fwMax + 1], Admitted (staging n) 0 (.kld 8) ∧ arg (staging n) (.kld 8) 2 = n ∧
    arg (staging n) (.kld 8) 0 + 2 ^ 32 * (arg (staging n) (.kld 8) 1 % 65536) = 2 ^ 46 ∧ (staging n).synd = [] := by unfold Admitted; decide +kernel
/-- Whether the header of a staged image is formed is open (log entry 67); each of the two clauses states one of its values. -/
theorem witness_stage_formed : Config.firmwareFormed (memRead (staging 1) (2 ^ 46) 1) = true ∨ Config.firmwareFormed (memRead (staging 1) (2 ^ 46) 1) = false :=
  Bool.eq_false_or_eq_true _
theorem witness_activate : ∀ a ∈ [0, 1], let s := withArgs (.kld 8) [a] State.reset
    Admitted s 0 (.kld 8) ∧ arg s (.kld 8) 0 % 2 = a ∧ fwBit s (1 + a) = (a == 0) := by unfold Admitted; decide +kernel
theorem witness_seq : ∀ ph ∈ [0, 3], let s := setPhase (withArgs (.kld 8) [128] State.reset) 0 ph
    Admitted s 0 (.kld 8) ∧ (arg s (.kld 8) 0).testBit 7 = true ∧ (∀ d < 7, (arg s (.kld 8) 0).testBit d = false) ∧
    activePhase (phase s (slotOf s 7)) = (ph == 3) := by unfold Admitted; decide +kernel
def switching (x : State) : State := { x with board := { Board.up with fwNext := some 1, fwOld := some 0 } }
theorem witness_switch_fw : (switching State.reset).board.fwNext = some 1 ∧ (switching State.reset).board.fwOld = some 0 ∧
    busy (switching State.reset) .lcs = false ∧ busy (switching State.reset) .fus = false ∧
    (∀ i < 9, busy (switching State.reset) (.kld i) = false) ∧ busy (switching (startLong State.reset .lcs 0)) .lcs = true := by decide +kernel

/-- R425, R428, R441 to R444: the board with its input, rails, latches and pins as each clause has them. -/
def onBoard (b : Board) : State := { State.reset with board := b }
theorem witness_board : Board.up.input = true ∧ Board.up.powerFault = false ∧ Board.up.trip = false ∧ Board.up.rails = true ∧ Board.up.perst = false ∧
    hubUp State.reset = true ∧ State.reset.repairs = [] ∧ (onBoard { Board.up with perst := true }).board.perst = true ∧
    (onBoard { Board.up with trip := true }).board.trip = true ∧ (onBoard { Board.up with pwrEn := false }).board.pwrEn = false ∧
    (onBoard { Board.up with node := some 5 }).board.node = some 5 ∧
    (onBoard { Board.up with rails := false, powerFault := true }).board.powerFault = true := by decide +kernel
theorem witness_log_copy : let s := { State.reset with repairs := [known], fuses := { State.reset.fuses with badCopy := [(0, 1)] } }
    s.repairs[0]? = some known ∧ (0, 0) ∉ s.fuses.badCopy := by decide +kernel
theorem witness_fault : (Instr.railOutOfRegulation 15, 3, 15) ∈ [(Instr.inputUndervoltage, 1, 0), (.inputOvervoltage, 2, 0),
    (.railOutOfRegulation 15, 3, (15 : Fin 16).val), (.inputOvercurrent, 4, 0), (.converterOvertemperature, 5, 0)] := by decide
/-- R450: tract temperatures that are all alike: at the limit, above the threshold, at it, between it and its hysteresis, and below. -/
theorem witness_thermal : ∀ t ∈ [105, 104, 95, 94, 93, 92, (-40 : Int)], hottest ((diesOf State.reset 0).flatMap (tractTemps (List.replicate 192 t))) = t := by
  decide +kernel
theorem witness_thermal_marks : rd State.reset .thmH thm_THROTTLE_C = 95 ∧ rd State.reset .thmH thm_HYST_C = 3 ∧ rd State.reset .thmH thm_HBM_THROTTLE_C = 88 ∧
    (rd State.reset .thmH hCTRL).testBit 0 = true ∧ hottest ((diesOf State.reset 0).map (fun d => (rd State.reset (.mem d) mem_TEMP % 256 : Nat))) = 0 := by
  decide +kernel

/-! ## Host -/

/-- R394, R395, R415: functions with a slot and without; a source that is pending with its entry enabled, while messages are off; a
vector that holds one back. -/
theorem witness_function : hubUp State.reset = true ∧ slotUsed State.reset 0 = true ∧ slotUsed State.reset 7 = false ∧ 7 ∈ diesOf State.reset 0 ∧
    (∀ f < 9, hears State.reset f = true ∧ present State.reset f = true) ∧ portSlot State.reset 15 = some 0 := by
  decide +kernel
/-- R394, R395: a function that does not exist, and one in D3hot. -/
theorem witness_silent : present { State.reset with vfOn := false } 3 = false ∧ hubUp { State.reset with vfOn := false } = true ∧
    hears { State.reset with vfOn := false } 3 = false ∧ hears (setFunc State.reset 2 { FuncSt.reset with d3 := true }) 2 = false ∧
    commandPage (.halt 2 1 9) = some (2, .tmt 1) := by decide +kernel
def pendingHub (x : FuncSt) : State := setFunc (wr (wr (wr State.reset .hub hEVT 1) .hub hENABLE 1) (.pcx 0) pcx_VMAP_n 0x87FF) 0 x
theorem witness_msix : ∀ x ∈ [FuncSt.reset, { FuncSt.reset with msix := true, fmask := true }], let s := pendingHub x
    hubUp s = true ∧ srcPending s 0 = true ∧ ownsSrc s 0 0 = true ∧ vmapEntry s 0 0 = 0x87FF ∧
    ((getFunc s 0).msix = false ∨ (getFunc s 0).fmask = true) := by decide +kernel
def openVector : FuncSt := 
  { FuncSt.reset with msix := true, fmask := true, table := [(4 * 0x7FF + 3, 0), (4 * 0x7FF, 0xFEE00000), (4 * 0x7FF + 2, 0x31)] }
theorem witness_msix_open : (tget 1 (getFunc (pendingHub openVector) 0).table (4 * (vmapEntry (pendingHub openVector) 0 0 % 2048) + 3)).toNat.testBit 0 = false := by
  decide +kernel
theorem witness_unmask : let s := pendingHub { FuncSt.reset with msix := true, pba := [(0x7FF, true)] }
    hears s 0 = true ∧ (getFunc s 0).msix = true ∧ (getFunc s 0).fmask = false ∧ tget false (getFunc s 0).pba 0x7FF = true ∧ 0x7FF < msixEntries 0 ∧
    255 < msixEntries 8 := by decide +kernel
/-- R423: a new width, and the link as it was. -/
theorem witness_pcie_link : fld (rd State.reset (.pcx 0) pcx_LINK) 0 9 ≠ 1 + 16 * 8 ∧
    rd (wr State.reset (.pcx 0) pcx_LINK 0x706) (.pcx 0) pcx_LINK = (6 : BitVec 3).toNat + 16 * (16 : BitVec 5).toNat + 512 + 1024 := by decide +kernel

/-- R446, R447: the standby rail up and down, an alert and none, a page that REG_READ reaches, one that REG_WRITE does and one that it
does not, an offset that is no word. -/
theorem witness_smbus : State.reset.board.input = true ∧ State.reset.board.rails = true ∧ State.reset.board.slotId < 8 ∧ State.reset.board.alert = 0 ∧
    (onBoard { Board.up with input := false }).board.input = false ∧ (onBoard { Board.up with alert := 8 }).board.alert ≠ 0 ∧
    pageOf (BitVec.ofNat 26 (pageBase .thmH)).toNat = some .thmH ∧ answers State.reset .thmH = true ∧
    (BitVec.ofNat 26 (pageBase .thmH + thm_THROTTLE_C)).toNat = pageBase .thmH + thm_THROTTLE_C ∧
    busy State.reset .thmH = false ∧ pageOf (BitVec.ofNat 26 (pageBase .hub)).toNat = some .hub ∧ smbPage .hub = false ∧
    pageBase .thmH % 4 = 0 ∧ pageBase .thmH + 0xFFC < msixTable ∧ (3 : BitVec 26).toNat % 4 ≠ 0 := by decide +kernel

/-- R397: half a word, three words, a word off its place, one with a byte disabled. -/
theorem witness_bad_access : ∀ q ∈ [(0, 2, true), (0, 12, true), (2, 4, true), (4, 8, true), (0, 4, false)],
    wordAccess (BitVec.ofNat 26 q.1).toNat q.2.1 q.2.2 = false ∧ pageOf (BitVec.ofNat 26 q.1).toNat = some .hub := by decide +kernel
/-- R3, R5, R408: pages of the hub, of a die and of the last core, with a register that a read clears and one that it does not. -/
theorem witness_window : ∀ p ∈ [Page.hub, .pgt 7, .cor 7 383, .wkc 0 3, .pcx 8],
    pageOf (BitVec.ofNat 26 (pageBase p + 0xFFC)).toNat = some p ∧ pageBase p + 0xFFC < msixTable ∧ pageBase p % 4 = 0 ∧
    answers State.reset p = true ∧ Admitted State.reset 0 p ∧ spare State.reset p = false := by unfold Admitted; decide +kernel
theorem witness_window_spare : hears State.reset 0 = true ∧ (getFunc State.reset 0).waits = [] ∧ ∀ p ∈ [Page.tckG 1, .tmt 7], spare State.reset p = true ∧
    Admitted State.reset 0 p ∧ pageOf (BitVec.ofNat 26 (pageBase p)).toNat = some p := by unfold Admitted; decide +kernel
theorem witness_rc : (rowAt .hub hCTRL).map (·.acc) ≠ some .rc ∧ (rowAt (.pcx 0) pcx_BAD_ACCESS).map (·.acc) = some .rc := by decide +kernel
theorem witness_pgt_arg : ∀ n ∈ [0, 7], (BitVec.ofNat 26 (pageBase (.pgt 7) + hARG + 4 * n)).toNat = pageBase (.pgt 7) + hARG + 4 * n ∧
    pageOf (pageBase (.pgt 7) + hARG + 4 * n) = some (.pgt 7) := by decide +kernel
theorem witness_page_busy : ∀ p ∈ [Page.lcs, .pgt 0], busy (startLong State.reset p 9) p = true ∧ answers (startLong State.reset p 9) p = true ∧
    owns (startLong State.reset p 9) 0 p = true ∧ (∃ c, tfind (startLong State.reset p 9).cmds (pageBase p) = some c ∧ c.long = true ∧ c.ready = false) ∧
    ∃ c, tfind (finishLong (startLong State.reset p 9) p 0 0 1).cmds (pageBase p) = some c ∧ c.long = true ∧ c.ready = true := by
  intro p h
  rcases List.mem_cons.mp h with rfl | h
  · refine ⟨?_, ?_, ?_, ⟨_, rfl, ?_⟩, _, rfl, ?_⟩ <;> decide +kernel
  · obtain rfl : p = .pgt 0 := by simpa using h
    refine ⟨?_, ?_, ?_, ⟨_, rfl, ?_⟩, _, rfl, ?_⟩ <;> decide +kernel
theorem witness_stalled : let s := startLong (finishLong (startLong State.reset (.tmt 0) 9) (.tmt 0) 0 0 0x20) (.mem 7) 0
    stalledOp s (.tmt 0) = true ∧ tfind s.cmds (pageBase (.tmt 0)) = some ⟨resultWord 0 0 9, 0x20, true, true⟩ ∧
    stalledOp s (.lcs) = false := by decide +kernel
theorem witness_undefined : ∀ p ∈ [Page.hub, .pgt 0, .pgt 1], (opcodes State.reset p).contains 0xFF = false ∧ cmdActive State.reset p = false := by
  decide +kernel
/-- R422: a source of the function with the last vector and one past it; a source of another owner. -/
theorem witness_vmap : Admitted State.reset 1 (.pcx 1) ∧ Admitted State.reset 0 (.pcx 0) ∧ ownsSrc State.reset 0 0 = true ∧ fld 0x87FF 0 11 < msixEntries 0 ∧
    ownsSrc State.reset 1 0 = false ∧ ownsSrc State.reset 1 50 = true ∧ ¬ fld 0x8100 0 11 < msixEntries 1 := by unfold Admitted; decide +kernel
theorem witness_amax : Admitted State.reset 1 (corPage (cid ⟨7, 383⟩)) := by unfold Admitted; decide +kernel
/-- R429: the least and the greatest frequency, one that is no step, and a slot that ticks. -/
theorem witness_mhz : Admitted State.reset 0 .pwr ∧ (∀ k < layoutN State.reset, quiet State.reset k = true) ∧ (∀ e ∈ State.reset.cmds, e.2.long = false) ∧
    quiet inRun 0 = false := by unfold Admitted; decide +kernel

/-- R416 to R418: slot 0 through its function and through the PF, with memory that holds one byte; the PF with no slot chosen, and a
function without a slot. -/
def windowed : State := memWrite (wr (paged onPage) (.pcx 0) pcx_MW_SLOT 0x100) (hbm 0x100008) [7]
theorem witness_window_slot : ∀ f ∈ [0, 1], windowSlot windowed f = some 0 ∧ (∀ d ∈ diesOf windowed 0, busy windowed (.wip d) = false) ∧ windowed.synd = [] ∧
    ∀ n ∈ [1, 16], ∀ w ∈ [true, false], FlatAt windowed 0 (windowVa windowed f (BitVec.ofNat 38 0x50008).toNat) n w (hbm 0x100008) := by
  intro f h
  refine ⟨by revert f; decide +kernel, by decide +kernel, rfl, fun n hn w hw => flat_of (e := entry 3 0x100000) (by revert f n w; decide +kernel)⟩
theorem witness_window_hears : ∀ f ∈ [0, 1], hears windowed f = true ∧ (getFunc windowed f).waits = [] := by decide +kernel
/-- R342: a page under COW. -/
def windowedCow : State := setSlot windowed 0 { getSlot windowed 0 with ptes := [(5, entry 7 0x100000)] }
theorem witness_window_cow : (∀ c, look windowedCow 0 c 5 true false = .cow) ∧ windowVa windowedCow 1 (BitVec.ofNat 38 0x50008).toNat / pageSize = 5 ∧
    pteTier (pteOf windowedCow 0 5) = 1 ∧ hears windowedCow 1 = true ∧ (getFunc windowedCow 1).waits = [] ∧ windowSlot windowedCow 1 = some 0 :=
  ⟨fun c => (look_every (by decide +kernel) c _ _ _).trans (by decide +kernel), by decide +kernel⟩
theorem witness_window_wiped : let s := startLong windowed (.wip 3) 0
    hears s 1 = true ∧ (getFunc s 1).waits = [] ∧ windowSlot s 1 = some 0 ∧ 3 ∈ diesOf s 0 ∧ busy s (.wip 3) = true ∧ windowed.hard = [] := by decide +kernel
theorem witness_window_shut : hears windowed 8 = true ∧ hears State.reset 0 = true ∧ windowSlot State.reset 0 = none ∧ windowSlot State.reset 8 = none := by decide +kernel

/-- R398, R419: VF 2 on a page of slot 0 and VF 1 on its own; both while LAYOUT runs. -/
theorem witness_isolation : ∀ l ∈ [true, false], let s := if l then startLong State.reset (.tmt 8) 1 else State.reset
    hears s 2 = true ∧ hears s 1 = true ∧ (getFunc s 2).waits = [] ∧ layoutRuns s = l ∧ owns s 2 (.tckG 0) = false ∧ owns s 1 (.tckG 0) = true ∧ owns s 1 .hub = false ∧
    pageOf (BitVec.ofNat 26 (pageBase (.tckG 0))).toNat = some (.tckG 0) ∧ commandPage (.halt 2 0 9) = some (2, .tmt 0) := by decide +kernel
/-- R398: unassigned offsets below, between and past the MSI-X table and PBA of a VF. -/
theorem witness_unassigned : ∀ o ∈ [0x0001A000, 0x02000000, 0x03001000, 0x03008020, 0x03FFFFFC], pageOf (BitVec.ofNat 26 o).toNat = none ∧
    (o < msixTable ∨ (msixTable + 16 * msixEntries 3 ≤ o ∧ o < msixPba) ∨ msixPba + msixEntries 3 / 8 ≤ o) := by decide +kernel
/-- A queue with a command that can occur, and its step from memory that is not empty. -/
theorem witness_step : Memory.wf windowed.mem = true ∧ QueueWf { windowed with pending := [.memoryWindowWrite 1 0x50008 [0], .pfFlr] } = true := by decide +kernel

end Sys2Proof.Tests
end

section
/-! Proofs about the register window: where a page of the window lies, what a read and a write of one of its words do, and what
each command of the window so does. -/
namespace Sys2Proof.Proofs
open Sys2Proof.Machine Sys2Proof.Safety Sys2Proof.Laws

/-! ## Pages and offsets (R399) -/

/-- The pages end below the second half of the window. -/
theorem pageOf_lt {off : Nat} {p : Page} (h : pageOf off = some p) : off < 0x02000000 := by
  by_contra hge
  simp only [pageOf] at h
  repeat rw [if_neg (by omega)] at h
  cases h

/-- A page of the hub begins at the block of its offsets. -/
theorem pageBase_hubPage {off : Nat} {p : Page} (hb : off / 0x1000 < 0x1000) :
    pageOf off = some p → pageBase p = off / 0x1000 * 0x1000 := by
  fun_cases pageOf off
  all_goals intro h; cases h
  all_goals simp only [pageBase]; omega

/-- So does a page of a die: its block has a die's number d and a place q in the die's region. -/
theorem pageBase_diePage {off : Nat} {p : Page} (hb : 0x1000 ≤ off / 0x1000) (h : pageOf off = some p) :
    pageBase p = off / 0x1000 * 0x1000 := by
  have hlt := pageOf_lt h
  obtain ⟨d, q, hq, e⟩ : ∃ d q, q < 0x200 ∧ off / 0x1000 = 0x1000 + 0x200 * d + q :=
    ⟨(off / 0x1000 - 0x1000) / 0x200, (off / 0x1000 - 0x1000) % 0x200, by omega, by omega⟩
  have ed : (0x1000 + 0x200 * d + q - 0x1000) / 0x200 = d := by omega
  have eq : (0x1000 + 0x200 * d + q - 0x1000) % 0x200 = q := by omega
  simp only [pageOf, e, ed, eq] at h
  repeat rw [if_neg (by omega)] at h
  rw [if_pos (by omega)] at h
  rw [e]
  clear ed eq e hb hlt
  by_cases h14 : q < 14
  · rw [if_pos h14] at h
    interval_cases q <;> cases h <;> simp only [pageBase, dieBase] <;> omega
  · rw [if_neg h14] at h
    split at h
    · cases h; simp only [pageBase, dieBase]; omega
    · split at h <;> cases h
      simp only [pageBase, dieBase]; omega

/-- The base of a page and the place in it make up the offset. -/
theorem pageBase_pageOf {off : Nat} {p : Page} (h : pageOf off = some p) : pageBase p + off % 0x1000 = off := by
  have hb : pageBase p = off / 0x1000 * 0x1000 := by
    by_cases hd : off / 0x1000 < 0x1000
    · exact pageBase_hubPage hd h
    · exact pageBase_diePage (by omega) h
  omega

theorem pageOf_kld {off i : Nat} : pageOf off = some (.kld i) → i < 9 := by
  fun_cases pageOf off
  all_goals intro h; cases h
  omega

/-! ## A write to CMD (R405) -/

theorem pgtCmd_is_hostCmd (s : State) (fn d tag op : Nat) (g : List Nat → State → State) :
    ∃ f, pgtCmd s fn d tag op g = hostCmd s fn (.pgt d) f := ⟨_, rfl⟩

/-- Of the KLD pages only page 8 defines opcodes. -/
theorem kld_opcode {s : State} {off i op : Nat} (hp : pageOf off = some (.kld i))
    (hop : ¬(!(opcodes s (.kld i)).contains op) = true) : i = 8 := by
  have h9 := pageOf_kld hp
  have h8 : ¬ i < 8 := fun h => hop (by simp [opcodes, h])
  omega

/-- Whatever command a write to CMD starts, it is judged as a write of that page's CMD; FW_STAGE alone draws an open number first. -/
theorem cmdWrite_is_hostCmd {off : Nat} {p : Page} (hp : pageOf off = some p) (fn v : Nat) (s : State) :
    ∃ f u, cmdWrite fn p v s = hostCmd u fn p f ∧ (u = s ∨ u = (drawNat s).2) := by
  fun_cases cmdWrite fn p v s
  -- the three commands of the card controller: FW_STAGE, FW_ACTIVATE and SEQ_UPDATE
  case case42 =>
    obtain rfl := kld_opcode hp ‹_›
    exact ⟨_, _, rfl, .inr rfl⟩
  case case43 | case44 =>
    obtain rfl := kld_opcode hp ‹_›
    exact ⟨_, s, rfl, .inl rfl⟩
  -- LOAD
  case case12 => unfold loadWritten execLoad; exact ⟨_, s, rfl, .inl rfl⟩
  -- the nine commands of a page table
  case case20 | case21 | case22 | case23 | case24 | case25 | case26 | case27 | case28 =>
    obtain ⟨f, e⟩ := pgtCmd_is_hostCmd ..
    exact ⟨f, s, e, .inl rfl⟩
  all_goals exact ⟨_, s, rfl, .inl rfl⟩

/-! ## Reads (R4, R5) -/

/-- No LAYOUT keeps the function out (R419). -/
theorem layout_lets {s : State} {fn : Nat} (h : fn = 0 ∨ layoutRuns s = false) : (fn != 0 && layoutRuns s) = false := by
  rcases h with rfl | h
  · rfl
  · rw [h, Bool.and_false]

/-- A read is performed at once where no earlier request of the function waits. -/
theorem arrive_idle {s : State} {fn : Nat} (h : (getFunc s fn).waits = []) (off len : Nat) (full : Bool) :
    arrive fn (.regRead off len full) s = registerRead fn off len full s := by
  have hs : serve fn s = s := by simp [serve, h, serveN]
  simp [arrive, hs, h, perform]

theorem registerRead_word {off : Nat} (h4 : off % 4 = 0) (fn : Nat) (s : State) : registerRead fn off 4 true s =
    { (windowReadWord s fn off).1 with answer := toBytes 4 (windowReadWord s fn off).2 } := by
  simp [registerRead, wordAccess, h4]

theorem windowReadWord_page {s : State} {fn off : Nat} {p : Page} (hp : pageOf off = some p) (ho : owns s fn p = true)
    (hl : fn = 0 ∨ layoutRuns s = false) (ha : answers s p = true) : windowReadWord s fn off = readWord s p (off % 4096) := by
  have hlt := pageOf_lt hp
  have hl' := layout_lets hl
  simp only [windowReadWord, hl', Bool.false_eq_true, if_false, hp, ho, ha, Bool.not_true, Bool.false_and]
  rw [if_neg (by simp only [msixTable]; omega), if_neg (by simp only [msixPba]; omega)]

theorem readWord_value (s : State) (p : Page) (o : Nat) : (readWord s p o).2 = regView s p o := by
  fun_cases readWord s p o <;> rfl

theorem readWord_mem (s : State) (p : Page) (o : Nat) : (readWord s p o).1.mem = s.mem := by
  fun_cases readWord s p o <;> rfl

theorem readWord_regs {s : State} {p : Page} {o : Nat} (h : ∀ r, rowAt p o = some r → r.acc ≠ .rc) :
    (readWord s p o).1.regs = s.regs := by
  fun_cases readWord s p o
  case case2 r hr hrc => exact absurd hrc (h r hr)
  all_goals rfl

/-- TCK.RESIDUE, which alone shows a running count, is no register that a read clears. -/
theorem drawsCount_rc {p : Page} {o : Nat} {r : RegRow} (hr : rowAt p o = some r) (hrc : r.acc = .rc) (s : State) :
    drawsCount s p o = false := by
  cases p with
  | tckG k =>
    have hne : o ≠ tck_RESIDUE := by
      rintro rfl
      have e : rowAt (.tckG k) tck_RESIDUE = some ⟨0x138, 4, 1, .ro, 0, 0⟩ := rfl
      rw [e] at hr
      cases hr
      cases hrc
    simp [drawsCount, hne]
  | _ => rfl

theorem rd_readWord_rc {p : Page} {o : Nat} {r : RegRow} (hr : rowAt p o = some r) (hrc : r.acc = .rc) (s : State) :
    rd (readWord s p o).1 p o = 0 := by
  simp only [readWord, drawsCount_rc hr hrc, Bool.false_eq_true, if_false, hr, hrc, if_true, rd_wr, Nat.zero_mod]

/-! ## Refused accesses (R397, R408) -/

@[simp] theorem badAccess_mem (s : State) (fn : Nat) : (badAccess s fn).mem = s.mem := by
  rw [badAccess, raise_mem]; rfl

theorem rd_badAccess (s : State) (fn : Nat) :
    rd (badAccess s fn) (.pcx fn) pcx_BAD_ACCESS = min (rd s (.pcx fn) pcx_BAD_ACCESS + 1) 0xFFFFFFFF := by
  rw [badAccess, rd_raise_ne _ _ (by simp [pcx_BAD_ACCESS, hEVT]), rd_bump]

theorem rd_rejectBusy_count (s : State) (fn off : Nat) :
    rd (rejectBusy s fn off) .hub hub_REJECT_COUNT = min (rd s .hub hub_REJECT_COUNT + 1) 0xFFFFFFFF := by
  rw [rejectBusy, rd_raise_ne _ _ (by decide), rd_wr_ne _ _ (by decide),
    rd_bump_ne _ _ (by simp only [pageBase, hub_REJECT_COUNT, pcx_REJECTS]; omega), rd_bump]

theorem rd_rejectBusy_last (s : State) {fn off : Nat} (h : off + 2 ^ 26 * fn < 2 ^ 32) :
    rd (rejectBusy s fn off) .hub hub_REJECT_LAST = off + 2 ^ 26 * fn := by
  rw [rejectBusy, rd_raise_ne _ _ (by decide), rd_wr, Nat.mod_eq_of_lt h]

/-! ## Writes -/

/-- A write to a busy page is refused, whatever its effect would be (R408). -/
theorem hostWrite_busy {s : State} {fn : Nat} {p : Page} (hh : hears s fn = true) (ho : owns s fn p = true)
    (hl : fn = 0 ∨ layoutRuns s = false) (ha : answers s p = true) (hb : busy s p = true) (o : Nat) (f : State → State) :
    hostWrite s fn p o f = rejectBusy s fn (pageBase p + o) := by
  have hl' := layout_lets hl
  simp [hostWrite, hh, ho, hl', ha, hb]

theorem execRegisterWrite_word {s : State} {fn off : Nat} (hh : hears s fn = true) (h4 : off % 4 = 0) (x : Nat) :
    execRegisterWrite fn off 4 x true s = windowWriteWord fn off (fld x 0 32) s := by
  simp [execRegisterWrite, hh, wordAccess, h4, each]

theorem windowWriteWord_page {s : State} {fn off : Nat} {p : Page} (hp : pageOf off = some p)
    (hl : fn = 0 ∨ layoutRuns s = false) (v : Nat) : windowWriteWord fn off v s =
      if off % 4096 = hCMD then cmdWrite fn p v s else hostWrite s fn p (off % 4096) (pageWrite p (off % 4096) v) := by
  have hlt := pageOf_lt hp
  have hl' := layout_lets hl
  simp only [windowWriteWord, hl', Bool.false_eq_true, if_false, hp]
  rw [if_neg (by simp only [msixTable]; omega), if_neg (by simp only [msixPba]; omega)]

/-- A word written to a busy page is refused at every offset, CMD included. -/
theorem windowWriteWord_busy {s : State} {fn off : Nat} {p : Page} (hp : pageOf off = some p) (hh : hears s fn = true)
    (ho : owns s fn p = true) (hl : fn = 0 ∨ layoutRuns s = false) (ha : answers s p = true) (hb : busy s p = true) (v : Nat) :
    ∃ u, windowWriteWord fn off v s = rejectBusy u fn off ∧ (u = s ∨ u = (drawNat s).2) := by
  have e := pageBase_pageOf hp
  rw [windowWriteWord_page hp hl]
  by_cases hc : off % 4096 = hCMD
  · obtain ⟨f, u, hf, hu⟩ := cmdWrite_is_hostCmd hp fn v s
    have key : hostWrite u fn p hCMD f = rejectBusy u fn (pageBase p + hCMD) := by
      rcases hu with rfl | rfl
      · exact hostWrite_busy hh ho hl ha hb ..
      · exact hostWrite_busy (s := (drawNat s).2) hh ho hl ha hb ..
    exact ⟨u, by rw [if_pos hc, hf, hostCmd, key, ← hc, e], hu⟩
  · exact ⟨s, by rw [if_neg hc, hostWrite_busy hh ho hl ha hb, e], .inl rfl⟩

theorem pageWrite_spare {s : State} {p : Page} (h : spare s p = true) (o v : Nat) : pageWrite p o v s = s := by
  rw [pageWrite, if_pos h]

theorem wkcGate_other {p : Page} (h : ∀ d i, p ≠ .wkc d i) (s : State) (f : State → State) : wkcGate s p f = f s := by
  cases p with
  | wkc d i => exact absurd rfl (h d i)
  | _ => rfl

theorem onPage_admitted {s : State} {fn off : Nat} {p : Page} (hp : pageOf off = some p) (h : Admitted s fn p) (o v : Nat) :
    onPage fn off o v s = pageWrite p o v s := by
  simp only [onPage, hp, hostWrite_admitted _ _ _ _ _ h]

section
variable {s : State} {p : Page} (hs : spare s p = false) (hw : ∀ d i, p ≠ .wkc d i)
include hs hw

theorem pageWrite_evtStatus (v : Nat) : pageWrite p hEVT v s = evtClear s p v := by
  simp [pageWrite, hs, wkcGate_other hw]

theorem pageWrite_evtEnable (v : Nat) : pageWrite p hENABLE v s = evtEnable s p v := by
  simp [pageWrite, hs, wkcGate_other hw, hENABLE, hEVT]

theorem pageWrite_evtForce (v : Nat) : pageWrite p hFORCE v s = raise s p v := by
  simp [pageWrite, hs, wkcGate_other hw, hENABLE, hEVT, hFORCE, evtForce]

end

/-! ## Event registers (R405, R406) -/

theorem reevaluate_eq (s : State) (p : Page) : ∃ ms fs, reevaluate s p = { s with msgs := ms, funcs := fs } := by
  unfold reevaluate
  split
  · exact deliver_eq _ _
  · exact ⟨s.msgs, s.funcs, rfl⟩

theorem evtClear_spec (s : State) (p : Page) (v : Nat) :
    rd (evtClear s p v) p hEVT = rd s p hEVT - (rd s p hEVT &&& v) ∧ (evtClear s p v).mem = s.mem := by
  obtain ⟨ms, fs, e⟩ := reevaluate_eq (wr s p hEVT (rd s p hEVT - (rd s p hEVT &&& v))) p
  have hlt := rd_lt s p hEVT
  rw [evtClear, e]
  exact ⟨(rd_wr ..).trans (Nat.mod_eq_of_lt (by omega)), rfl⟩

theorem evtEnable_spec (s : State) (p : Page) {v : Nat} (h : v < 2 ^ 32) :
    rd (evtEnable s p v) p hENABLE = v &&& evtOf p ∧ (evtEnable s p v).mem = s.mem := by
  obtain ⟨ms, fs, e⟩ := reevaluate_eq (wr s p hENABLE (v &&& evtOf p)) p
  rw [evtEnable, e]
  exact ⟨(rd_wr ..).trans (Nat.mod_eq_of_lt (Nat.lt_of_le_of_lt Nat.and_le_left h)), rfl⟩

theorem evtOf_lt (p : Page) : evtOf p < 2 ^ 32 := by
  fun_cases evtOf p <;> decide

theorem rd_raise_evt (s : State) (p : Page) (b : Nat) : rd (raise s p b) p hEVT = (rd s p hEVT ||| (b &&& evtOf p)) := by
  rw [rd_raise, Nat.mod_eq_of_lt]
  exact Nat.or_lt_two_pow (rd_lt ..) (Nat.and_lt_two_pow _ (evtOf_lt p))

/-! ## The arguments of a PGT command -/

theorem rowAt_arg (p : Page) {n : Nat} (h : n < 8) : rowAt p (hARG + 4 * n) = some ⟨hARG, 4, 8, .rw, 0, 0xFFFFFFFF⟩ := by
  interval_cases n <;> rfl

theorem pageWrite_pgt_arg (s : State) (d v : Nat) {n : Nat} (h : n < 8) :
    pageWrite (.pgt d) (hARG + 4 * n) v s = wr s (.pgt d) (hARG + 4 * n) (v % 2 ^ 32) := by
  have hm : v % 2 ^ 32 &&& 0xFFFFFFFF = v % 2 ^ 32 := (Nat.and_two_pow_sub_one_eq_mod _ 32).trans (Nat.mod_mod ..)
  have hr : regWrite s (.pgt d) (hARG + 4 * n) v = wr s (.pgt d) (hARG + 4 * n) (v % 2 ^ 32) := by
    simp only [regWrite, rowAt_arg _ h, hm]
    interval_cases n <;> rfl
  simp only [pageWrite, spare, wkcGate, hr]
  interval_cases n <;> rfl

theorem arg_wr (s : State) (p : Page) (n v : Nat) : arg (wr s p (hARG + 4 * n) v) p n = v % 2 ^ 32 := rd_wr ..

theorem arg_wr_ne (s : State) (p : Page) (v : Nat) {n m : Nat} (h : m ≠ n) : arg (wr s p (hARG + 4 * n) v) p m = arg s p m :=
  rd_wr_ne s v (by omega)

/-! ## An opcode that the page does not define (R405) -/

/-- The reason of the refusal: a page table that is not its slot's home or not enabled gives its own (R219). -/
def undefinedReason (s : State) (p : Page) : Nat :=
  match p with
  | .pgt d => if homeDie s (slotOf s d) ≠ d then 1 else if pgtEnabled s (slotOf s d) = true then 0 else 9
  | _ => 0

theorem undefinedReason_lt (s : State) (p : Page) : undefinedReason s p < 256 := by
  unfold undefinedReason
  split
  · split
    · decide
    · split <;> decide
  · decide

theorem undefinedOp_reject {s : State} {p : Page} {op : Nat} (ho : (opcodes s p).contains op = false) (ha : cmdActive s p = false)
    (tag : Nat) : undefinedOp s p op tag = reject s p (undefinedReason s p) tag := by
  simp only [undefinedOp, ho, ha, Bool.false_eq_true, if_false]
  cases p <;> rfl

theorem rd_reject_result (s : State) (p : Page) {reason tag : Nat} (hr : reason < 256) (ht : tag < 2 ^ 16) :
    rd (reject s p reason tag) p hRESULT = 0x14 + 65536 * tag + 256 * reason := by
  rw [reject, rd_endCmd_result, resultWord]; omega

/-! ## The vector map (R422) -/

theorem fld_above_of_split {l lo len m hi a n : Nat} (hl : l < 2 ^ lo) (hm : m < 2 ^ len) (h : lo + len ≤ a) :
    fld (l + 2 ^ lo * (m + 2 ^ len * hi)) a n = fld hi (a - (lo + len)) n := by
  obtain ⟨b, rfl⟩ := Nat.exists_eq_add_of_le h
  rw [fld, fld, Nat.shiftRight_eq_div_pow, Nat.shiftRight_eq_div_pow, Nat.add_sub_cancel_left, Nat.pow_add, Nat.pow_add,
    ← Nat.div_div_eq_div_mul, ← Nat.div_div_eq_div_mul, Nat.add_mul_div_left _ _ (Nat.two_pow_pos lo), Nat.div_eq_of_lt hl,
    Nat.zero_add, Nat.add_mul_div_left _ _ (Nat.two_pow_pos len), Nat.div_eq_of_lt hm, Nat.zero_add]

/-- A field that lies above the one written keeps its value. -/
theorem fld_setFld_above {x lo len v a n : Nat} (h : lo + len ≤ a) : fld (setFld x lo len v) a n = fld x a n := by
  have hlow : x % 2 ^ lo < 2 ^ lo := Nat.mod_lt _ (Nat.two_pow_pos lo)
  have hin : ∀ y, y % 2 ^ len < 2 ^ len := fun y => Nat.mod_lt _ (Nat.two_pow_pos len)
  calc fld (setFld x lo len v) a n
    _ = fld (x / 2 ^ (lo + len)) (a - (lo + len)) n := by rw [setFld_split, fld_above_of_split hlow (hin v) h]
    _ = fld (x % 2 ^ lo + 2 ^ lo * (fld x lo len + 2 ^ len * (x / 2 ^ (lo + len)))) a n :=
        (fld_above_of_split hlow (hin _) h).symm
    _ = fld x a n := by rw [← fld_split x lo len]

theorem rd_wrFld_above (s : State) (p : Page) (o v : Nat) {lo len a n : Nat} (hl : lo + len ≤ 32) (h : lo + len ≤ a) :
    fld (rd (wrFld s p o lo len v) p o) a n = fld (rd s p o) a n := by
  rw [wrFld, rd_wr, Nat.mod_eq_of_lt (setFld_lt _ _ _ _ (rd_lt s p o) hl), fld_setFld_above h]

/-- Who owns a page depends on the layout and the port masks alone (R398). -/
theorem owns_congr {s t : State} (hl : layoutN t = layoutN s) (hm : t.masks = s.masks) (f : Nat) (p : Page) :
    owns t f p = owns s f p := by
  have hu : slotUsed t = slotUsed s := by funext k; simp only [slotUsed, hl]
  have hd : slotOf t = slotOf s := by funext d; simp only [slotOf, diesPer, hl]
  have hp : portMask t = portMask s := by funext k; simp only [portMask, hu, hm, diesPer, hl]
  simp only [owns, ownerOf, portSlot, hu, hd, hp]

theorem ownsSrc_congr {s t : State} (hl : layoutN t = layoutN s) (hm : t.masks = s.masks) (f n : Nat) :
    ownsSrc t f n = ownsSrc s f n := by
  have ho : owns t f = owns s f := funext (owns_congr hl hm f)
  rw [ownsSrc, ho, ownsSrc]

theorem layoutN_wr {p : Page} {o : Nat} (h : pageBase (.tmt 8) + tmt_LAYOUT ≠ pageBase p + o) (s : State) (v : Nat) :
    layoutN (wr s p o v) = layoutN s := by
  rw [layoutN, rd_wr_ne s v h, layoutN]

theorem deliverTo_eq (n f : Nat) (s : State) : ∃ ms fs, deliverTo n f s = { s with msgs := ms, funcs := fs } := by
  unfold deliverTo
  dsimp only
  split
  · exact sendMsi_eq ..
  · exact ⟨s.msgs, s.funcs, rfl⟩

/-- When a half of a vector map word takes its value: the function owns the source and has the vector. -/
abbrev VmapTakes (s : State) (i n h v : Nat) : Prop :=
  ownsSrc s i (2 * n + h) = true ∧ fld v (16 * h) 11 < msixEntries i

/-- The bits of the vector number are all defined. -/
theorem fld_vmap (v h : Nat) : (fld v (16 * h) 16 &&& 0x87FF) % 2048 = fld v (16 * h) 11 := by
  have hm : ∀ x : Nat, (x &&& 0x87FF) % 2 ^ 11 = x % 2 ^ 11 := by
    intro x
    rw [Nat.and_mod_two_pow]
    exact (Nat.and_two_pow_sub_one_eq_mod (x % 2 ^ 11) 11).trans (Nat.mod_mod ..)
  exact (hm _).trans (Nat.mod_mod_of_dvd _ (show 2048 ∣ 65536 by decide))

theorem vmapHalf_taken {s : State} {i n h v : Nat} (ht : VmapTakes s i n h v) : ∃ ms fs, vmapHalf i n h v s =
    { wrFld s (.pcx i) (pcx_VMAP_n + 4 * n) (16 * h) 16 (fld v (16 * h) 16 &&& 0x87FF) with msgs := ms, funcs := fs } := by
  obtain ⟨ho, hv⟩ := ht
  unfold vmapHalf
  simp only [ho, fld_vmap, hv, decide_true, Bool.and_self, if_true]
  split
  · exact deliverTo_eq ..
  · exact ⟨_, _, rfl⟩

theorem vmapHalf_ignored {s : State} {i n h v : Nat} (ht : ¬ VmapTakes s i n h v) : vmapHalf i n h v s = s := by
  unfold vmapHalf
  simp only [fld_vmap]
  rw [if_neg]
  simpa [VmapTakes] using ht

theorem vmapHalf_keeps {s : State} {i n : Nat} (hn : n < 128) (h v : Nat) :
    (vmapHalf i n h v s).mem = s.mem ∧ (vmapHalf i n h v s).masks = s.masks ∧ layoutN (vmapHalf i n h v s) = layoutN s := by
  by_cases ht : VmapTakes s i n h v
  · obtain ⟨ms, fs, e⟩ := vmapHalf_taken ht
    rw [e]
    exact ⟨rfl, rfl, layoutN_wr (by simp only [pageBase, tmt_LAYOUT, pcx_VMAP_n]; omega) s _⟩
  · rw [vmapHalf_ignored ht]; exact ⟨rfl, rfl, rfl⟩

theorem rd_vmapHalf_taken {s : State} {i n h v : Nat} (ht : VmapTakes s i n h v) :
    rd (vmapHalf i n h v s) (.pcx i) (pcx_VMAP_n + 4 * n) =
    rd (wrFld s (.pcx i) (pcx_VMAP_n + 4 * n) (16 * h) 16 (fld v (16 * h) 16 &&& 0x87FF)) (.pcx i) (pcx_VMAP_n + 4 * n) := by
  obtain ⟨ms, fs, e⟩ := vmapHalf_taken ht
  rw [e]; rfl

theorem vmapEntry_half (s : State) (i n : Nat) {h : Nat} (hh : h < 2) :
    vmapEntry s i (2 * n + h) = fld (rd s (.pcx i) (pcx_VMAP_n + 4 * n)) (16 * h) 16 := by
  rw [vmapEntry, show (2 * n + h) / 2 = n by omega, show (2 * n + h) % 2 = h by omega]

theorem vmapEntry_vmapHalf (s : State) (i n v : Nat) {h : Nat} (hh : h < 2) : vmapEntry (vmapHalf i n h v s) i (2 * n + h) =
    if ownsSrc s i (2 * n + h) = true ∧ fld v (16 * h) 11 < msixEntries i then fld v (16 * h) 16 &&& 0x87FF
    else vmapEntry s i (2 * n + h) := by
  by_cases ht : VmapTakes s i n h v
  · have hw : fld v (16 * h) 16 &&& 0x87FF < 2 ^ 16 := Nat.and_lt_two_pow _ (by decide)
    rw [if_pos ht, vmapEntry_half _ _ _ hh, rd_vmapHalf_taken ht, rd_wrFld _ _ _ _ _ _ (by omega), Nat.mod_eq_of_lt hw]
  · rw [if_neg ht, vmapHalf_ignored ht]

theorem vmapEntry_vmapHalf_ne (s : State) (i n v : Nat) {h g : Nat} (hh : h < 2) (hg : g < 2) (hne : g ≠ h) :
    vmapEntry (vmapHalf i n h v s) i (2 * n + g) = vmapEntry s i (2 * n + g) := by
  by_cases ht : VmapTakes s i n h v
  · rw [vmapEntry_half _ _ _ hg, vmapEntry_half _ _ _ hg, rd_vmapHalf_taken ht]
    rcases Nat.lt_or_gt_of_ne hne with hlt | hgt
    · exact rd_wrFld_below _ _ _ _ _ _ _ _ (by omega) (by omega)
    · exact rd_wrFld_above _ _ _ _ (by omega) (by omega)
  · rw [vmapHalf_ignored ht]

theorem vmapWrite_mem (s : State) {i n : Nat} (hn : n < 128) (v : Nat) : (vmapWrite s i n v).mem = s.mem :=
  (vmapHalf_keeps hn 1 v).1.trans (vmapHalf_keeps hn 0 v).1

theorem vmapEntry_vmapWrite (s : State) {i n h : Nat} (hn : n < 128) (hh : h < 2) (v : Nat) :
    vmapEntry (vmapWrite s i n v) i (2 * n + h) =
    if ownsSrc s i (2 * n + h) = true ∧ fld v (16 * h) 11 < msixEntries i then fld v (16 * h) 16 &&& 0x87FF
    else vmapEntry s i (2 * n + h) := by
  obtain ⟨-, hm, hl⟩ := vmapHalf_keeps (s := s) hn 0 v
  unfold vmapWrite
  obtain rfl | rfl : h = 0 ∨ h = 1 := by omega
  · rw [vmapEntry_vmapHalf_ne _ _ _ _ (by decide) (by decide) (by decide), vmapEntry_vmapHalf _ _ _ _ (by decide)]
  · rw [vmapEntry_vmapHalf _ _ _ _ (by decide), ownsSrc_congr hl hm, vmapEntry_vmapHalf_ne _ _ _ _ (by decide) (by decide) (by decide)]

/-! ## CORE_MHZ (R434) -/

/-- When PWR.CORE_MHZ takes a value: every slot in use is stopped, no page is busy, and the value is a step of its range. -/
def MhzTaken (s : State) (m : Nat) : Prop :=
  (∀ k < layoutN s, quiet s k = true) ∧ (∀ e ∈ s.cmds, e.2.long = false) ∧ 600 ≤ m ∧ m ≤ 1000 ∧ m % 25 = 0

theorem coreMhz_cond (s : State) (m : Nat) : ((usedSlots s).all (quiet s) && s.cmds.all (fun e => !e.2.long) &&
    decide (600 ≤ m ∧ m ≤ 1000) && m % 25 == 0) = true ↔ MhzTaken s m := by
  simp [MhzTaken, usedSlots, and_assoc]

theorem coreMhz_taken {s : State} {v : Nat} (h : MhzTaken s (v % 2048)) : coreMhz v s = wr s .pwr pwr_CORE_MHZ (v % 2048) :=
  if_pos ((coreMhz_cond ..).mpr h)

theorem coreMhz_ignored {s : State} {v : Nat} (h : ¬ MhzTaken s (v % 2048)) : coreMhz v s = s :=
  if_neg (mt (coreMhz_cond ..).mp h)

/-! ## The end of a long operation (R410) -/

section
variable {s : State} {off : Nat} {p : Page} {c : CmdRun} (hp : pageOf off = some p) (hc : tfind s.cmds (pageBase p) = some c)
include hp hc

theorem longOperationEnd_waits (h : c.ready = false ∨ stalledOp s p = true) : execLongOperationEnd off s = s := by
  have hn : ¬ (c.long && c.ready && !stalledOp s p) = true := by rcases h with h | h <;> simp [h]
  simp only [execLongOperationEnd, hp, hc, if_neg hn]

theorem longOperationEnd_ends (hl : c.long = true) (hr : c.ready = true) (hs : stalledOp s p = false) (hm : ∀ d, p ≠ .mem d) :
    ∃ x, execLongOperationEnd off s =
      raise { wr { s with cmds := tdel s.cmds (pageBase p) } p hRESULT c.result with slots := x } p c.evt := by
  simp only [execLongOperationEnd, hp, hc, hl, hr, hs, Bool.not_false, Bool.and_self, if_true]
  cases p with
  | mem d => exact absurd rfl (hm d)
  | tmt k => by_cases hk : k < 8 <;> simp only [hk, if_true, if_false] <;> exact ⟨_, rfl⟩
  | _ => exact ⟨_, rfl⟩

end

/-! ## The commands of the register window -/

section
variable {s : State} {fn : Func} {off : BitVec 26} {p : Page}

theorem registerWrite_refused (hh : hears s fn = true) {len : Nat} {full : Bool} (hw : wordAccess off.toNat len full = false)
    (x : W64) : ∃ t, exec (.registerWrite fn off len x full) s = .next t ∧ t.mem = s.mem ∧
      rd t (.pcx fn) pcx_BAD_ACCESS = min (rd s (.pcx fn) pcx_BAD_ACCESS + 1) 0xFFFFFFFF := by
  have e : execRegisterWrite fn off.toNat len x.toNat full s = badAccess s fn := by simp [execRegisterWrite, hh, hw]
  exact ⟨_, congrArg (answer s) e, badAccess_mem .., rd_badAccess ..⟩

theorem execRcRead_idle (hh : hears s fn = true) (hi : (getFunc s fn).waits = []) (o len : Nat) (full : Bool) :
    execRcRead fn o len full s = registerRead fn o len full s := by
  rw [execRcRead, if_pos hh, arrive_idle hi]

theorem rcRead_refused (hh : hears s fn = true) (hi : (getFunc s fn).waits = []) {len : Nat} {full : Bool}
    (hw : wordAccess off.toNat len full = false) : ∃ t, exec (.rcRead fn off len full) s = .next t ∧
      t.answer = List.replicate len 255 ∧ rd t (.pcx fn) pcx_BAD_ACCESS = min (rd s (.pcx fn) pcx_BAD_ACCESS + 1) 0xFFFFFFFF := by
  have e : execRcRead fn off.toNat len full s = { badAccess s fn with answer := List.replicate len 255 } := by
    simp [execRcRead_idle hh hi, registerRead, hw]
  exact ⟨_, congrArg (answer s) e, rfl, rd_badAccess ..⟩

theorem rcRead_word (hh : hears s fn = true) (hp : pageOf off.toNat = some p) (hi : (getFunc s fn).waits = [])
    (h4 : off.toNat % 4 = 0) (ho : owns s fn p = true) (hl : fn.val = 0 ∨ layoutRuns s = false) (ha : answers s p = true) :
    ∃ t, exec (.rcRead fn off 4 true) s = .next t ∧ t.answer = toBytes 4 (regView s p (off.toNat % 4096)) ∧ t.mem = s.mem ∧
      ((∀ r, rowAt p (off.toNat % 4096) = some r → r.acc ≠ .rc) → t.regs = s.regs) ∧
      ∀ r, rowAt p (off.toNat % 4096) = some r → r.acc = .rc → rd t p (off.toNat % 4096) = 0 := by
  have e : execRcRead fn off.toNat 4 true s = { (readWord s p (off.toNat % 4096)).1 with
      answer := toBytes 4 (regView s p (off.toNat % 4096)) } := by
    rw [execRcRead_idle hh hi, registerRead_word h4, windowReadWord_page hp ho hl ha, readWord_value]
  exact ⟨_, congrArg (answer s) e, rfl, readWord_mem .., fun h => readWord_regs h, fun r hr hrc => rd_readWord_rc hr hrc s⟩

theorem registerWrite_pgt_arg {d n : Nat} (hp : pageOf off.toNat = some (.pgt d)) (hn : n < 8) (h : Admitted s fn (.pgt d))
    (hoff : off.toNat = pageBase (.pgt d) + hARG + 4 * n) (x : W64) :
    ∃ t, exec (.registerWrite fn off 4 x true) s = .next t ∧ arg t (.pgt d) n = x.toNat % 2 ^ 32 ∧ t.mem = s.mem ∧
      ∀ m, m ≠ n → arg t (.pgt d) m = arg s (.pgt d) m := by
  obtain ⟨hh, -, hl, -, -⟩ := id h
  have hb := pageBase_pageOf hp
  have hal := pageBase_aligned (.pgt d)
  have h4 : off.toNat % 4 = 0 := by simp only [hARG] at hoff; omega
  have ho : off.toNat % 4096 = hARG + 4 * n := by omega
  have hc : ¬ hARG + 4 * n = hCMD := by simp only [hARG, hCMD]; omega
  have e : execRegisterWrite fn off.toNat 4 x.toNat true s = wr s (.pgt d) (hARG + 4 * n) (fld x.toNat 0 32 % 2 ^ 32) := by
    rw [execRegisterWrite_word hh h4, windowWriteWord_page hp hl, ho, if_neg hc, hostWrite_admitted _ _ _ _ _ h,
      pageWrite_pgt_arg _ _ _ hn]
  refine ⟨_, (congrArg (answer s) e).trans (answer_eq (wr_pending ..)), (arg_wr ..).trans ?_, wr_mem ..,
    fun m hm => arg_wr_ne s _ _ hm⟩
  simp only [fld, Nat.shiftRight_zero, Nat.mod_mod]

theorem registerWrite_busy (hh : hears s fn = true) (hp : pageOf off.toNat = some p) (hb : busy s p = true)
    (h4 : off.toNat % 4 = 0) (ho : owns s fn p = true) (hl : fn.val = 0 ∨ layoutRuns s = false) (ha : answers s p = true)
    (x : W64) : ∃ t, exec (.registerWrite fn off 4 x true) s = .next t ∧ t.mem = s.mem ∧
      rd t .hub hub_REJECT_COUNT = min (rd s .hub hub_REJECT_COUNT + 1) 0xFFFFFFFF ∧
      rd t .hub hub_REJECT_LAST = off.toNat + 2 ^ 26 * fn := by
  obtain ⟨u, e, hu⟩ := windowWriteWord_busy hp hh ho hl ha hb (fld x.toNat 0 32)
  rw [← execRegisterWrite_word hh h4] at e
  have hm : (rejectBusy u fn off.toNat).mem = s.mem := (rejectBusy_mem ..).trans (by rcases hu with rfl | rfl <;> rfl)
  have hr : rd u .hub hub_REJECT_COUNT = rd s .hub hub_REJECT_COUNT := by rcases hu with rfl | rfl <;> rfl
  have hlt : off.toNat + 2 ^ 26 * fn < 2 ^ 32 := by omega
  exact ⟨_, congrArg (answer s) e, hm, hr ▸ rd_rejectBusy_count .., rd_rejectBusy_last _ hlt⟩

theorem evtWrites_spare (hp : pageOf off.toNat = some p) (h : Admitted s fn p) (hs : spare s p = true) (v : W32) :
    exec (.evtStatusWrite fn off v) s = .next s ∧ exec (.evtEnableWrite fn off v) s = .next s ∧
      exec (.evtForce fn off v) s = .next s := by
  have e : ∀ o, answer s (onPage fn off.toNat o v.toNat s) = .next s := fun o => by
    rw [onPage_admitted hp h, pageWrite_spare hs, answer_self]
  exact ⟨e hEVT, e hENABLE, e hFORCE⟩

theorem evtWrites_take (hp : pageOf off.toNat = some p) (h : Admitted s fn p) (hs : spare s p = false)
    (hw : ∀ d i, p ≠ .wkc d i) (v : W32) :
    (∃ t, exec (.evtStatusWrite fn off v) s = .next t ∧ rd t p hEVT = rd s p hEVT - (rd s p hEVT &&& v.toNat) ∧ t.mem = s.mem) ∧
    (∃ t, exec (.evtEnableWrite fn off v) s = .next t ∧ rd t p hENABLE = v.toNat &&& evtOf p ∧ t.mem = s.mem) ∧
    ∃ t, exec (.evtForce fn off v) s = .next t ∧ rd t p hEVT = (rd s p hEVT ||| (v.toNat &&& evtOf p)) ∧ t.mem = s.mem := by
  have e := fun o => onPage_admitted hp h o v.toNat
  exact ⟨⟨_, congrArg (answer s) ((e hEVT).trans (pageWrite_evtStatus hs hw _)), evtClear_spec ..⟩,
    ⟨_, congrArg (answer s) ((e hENABLE).trans (pageWrite_evtEnable hs hw _)), evtEnable_spec _ _ v.isLt⟩,
    ⟨_, congrArg (answer s) ((e hFORCE).trans (pageWrite_evtForce hs hw _)), rd_raise_evt .., raise_mem ..⟩⟩

theorem undefinedOpcode_rejected (hp : pageOf off.toNat = some p) (h : Admitted s fn p) (hw : ∀ d i, p ≠ .wkc d i)
    {op : BitVec 8} (ho : (opcodes s p).contains op.toNat = false) (ha : cmdActive s p = false) (tag : BitVec 16) :
    ∃ t, exec (.undefinedOpcode fn off op tag) s = .next t ∧ t.mem = s.mem ∧
      rd t p hRESULT = 0x14 + 65536 * tag.toNat + 256 * undefinedReason s p := by
  have e : execUndefinedOpcode fn off.toNat op.toNat tag.toNat s = reject s p (undefinedReason s p) tag.toNat := by
    simp only [execUndefinedOpcode, hp, hostCmd, hostWrite_admitted _ _ _ _ _ h, wkcGate_other hw, undefinedOp_reject ho ha]
  exact ⟨_, congrArg (answer s) e, reject_mem .., rd_reject_result _ _ (undefinedReason_lt ..) tag.isLt⟩

theorem vmapWrite_takes {i : Func} (n : Fin 128) (h : Admitted s fn (.pcx i)) (v : W32) :
    ∃ t, exec (.vmapWrite fn i n v) s = .next t ∧ t.mem = s.mem ∧ ∀ h < 2, vmapEntry t i (2 * n + h) =
      if ownsSrc s i (2 * n + h) = true ∧ fld v.toNat (16 * h) 11 < msixEntries i
      then fld v.toNat (16 * h) 16 &&& 0x87FF else vmapEntry s i (2 * n + h) :=
  ⟨_, congrArg (answer s) (hostWrite_admitted _ _ _ _ _ h), vmapWrite_mem _ n.isLt _,
    fun _ hh => vmapEntry_vmapWrite _ n.isLt hh _⟩

theorem amaxWrite_takes {c : CoreId} (n : Fin 16) (h : Admitted s fn (corPage (cid c))) (v : W32) :
    ∃ t, exec (.amaxWrite fn c n v) s = .next t ∧ rd t (corPage (cid c)) (cor_AMAX_n + 4 * n) = v.toNat ∧ t.mem = s.mem ∧
      t.cores = s.cores :=
  ⟨_, (congrArg (answer s) (hostWrite_admitted _ _ _ _ _ h)).trans (answer_eq (wr_pending ..)),
    (rd_wr ..).trans (Nat.mod_eq_of_lt v.isLt), wr_mem .., wr_cores ..⟩

theorem coreMhzWrite_takes (h : Admitted s fn .pwr) {v : W32} (hm : MhzTaken s (v.toNat % 2048)) :
    ∃ t, exec (.coreMhzWrite fn v) s = .next t ∧ rd t .pwr pwr_CORE_MHZ = v.toNat % 2048 :=
  ⟨_, congrArg (answer s) ((hostWrite_admitted _ _ _ _ _ h).trans (coreMhz_taken hm)),
    (rd_wr ..).trans (Nat.mod_eq_of_lt (by omega))⟩

theorem coreMhzWrite_ignored (h : Admitted s fn .pwr) {v : W32} (hm : ¬ MhzTaken s (v.toNat % 2048)) :
    exec (.coreMhzWrite fn v) s = .next s :=
  congrArg (answer s) ((hostWrite_admitted _ _ _ _ _ h).trans (coreMhz_ignored hm))

theorem longOperationEnd_result {c : CmdRun} (hp : pageOf off.toNat = some p) (hc : tfind s.cmds (pageBase p) = some c)
    (hl : c.long = true) (hr : c.ready = true) (hs : stalledOp s p = false) (hm : ∀ d, p ≠ .mem d) :
    ∃ t, exec (.longOperationEnd off) s = .next t ∧ busy t p = false ∧ rd t p hRESULT = c.result % 2 ^ 32 ∧
      rd t p hEVT = (rd s p hEVT ||| (c.evt &&& evtOf p)) ∧ t.mem = s.mem := by
  obtain ⟨x, e⟩ := longOperationEnd_ends hp hc hl hr hs hm
  refine ⟨_, congrArg (answer s) e, ?_, ?_, ?_, raise_mem ..⟩
  · simp [busy, wr, tfind_tdel_same]
  · exact (rd_raise_ne _ _ (by simp [hRESULT, hEVT])).trans (rd_wr ..)
  · refine (rd_raise_evt ..).trans (congrArg (· ||| (c.evt &&& evtOf p)) ?_)
    exact rd_wr_ne _ _ (by simp [hRESULT, hEVT])

theorem longOperationEnd_idle {c : CmdRun} (hp : pageOf off.toNat = some p) (hc : tfind s.cmds (pageBase p) = some c)
    (h : c.ready = false ∨ stalledOp s p = true) : exec (.longOperationEnd off) s = .next s :=
  congrArg (answer s) (longOperationEnd_waits hp hc h)

end

/-- Settles O55: each clause by the rule of its command. -/
theorem registerWindow : Obligations.RegisterWindow := by
  unfold Obligations.RegisterWindow
  intro s fn off v p hh hp idle
  refine ⟨fun len x full hw => ⟨registerWrite_refused hh hw x, fun hi => rcRead_refused hh hi hw⟩,
    fun hi h4 _ ho hl ha => rcRead_word hh hp hi h4 ho hl ha, ?_,
    fun hb _ h4 ho hl ha x => registerWrite_busy hh hp hb h4 ho hl ha x,
    fun h hs => evtWrites_spare hp h hs v, fun h hs hw => ?_,
    fun i n h => vmapWrite_takes n h v, fun c n h => amaxWrite_takes n h v,
    fun h => ⟨coreMhzWrite_takes h, coreMhzWrite_ignored h⟩,
    fun c hc hl => ⟨fun hr hs hm => longOperationEnd_result hp hc hl hr hs hm, longOperationEnd_idle hp hc⟩⟩
  · rintro d n rfl hn h hoff x
    exact registerWrite_pgt_arg hp hn h hoff x
  · obtain ⟨hstatus, henable, hforce⟩ := evtWrites_take hp h hs hw v
    exact ⟨hstatus, henable, hforce, fun op tag ho ha => undefinedOpcode_rejected hp h hw ho ha tag⟩

end Sys2Proof.Proofs
end

section
/-! Proofs about the reset state: what the registers, the remap tables and the wipe pages read. -/
namespace Sys2Proof.Proofs
open Sys2Proof.Machine Sys2Proof.Safety Sys2Proof.Laws

/-! ## Registers at reset (R7) -/

/-- A register of the window reads its row's reset value. -/
theorem rd_reset {p : Page} {o v : Nat} {r : RegRow} (hp : pageOf (pageBase p) = some p) (ho : o < 0x1000)
    (hr : rowAt p o = some r) (hv : (resetOf p o r).toNat = v) : rd State.reset p o = v := by
  have hpage := pageOf_add p o hp ho
  have haligned := pageBase_aligned p
  have hoff : (pageBase p + o) % 0x1000 = o := by omega
  change (regDefault (pageBase p + o)).toNat = v
  simp only [regDefault, hpage, hoff, hr, hv]

theorem layoutN_reset : layoutN State.reset = 1 := by
  rw [layoutN, show rd State.reset (.tmt 8) tmt_LAYOUT = 1 from rd_reset (page_tmt 8) (by decide) rfl rfl]
  rfl

theorem slotUsed_reset (k : Nat) : slotUsed State.reset k = (k == 0) := by
  rw [slotUsed, layoutN_reset, Bool.eq_iff_iff, decide_eq_true_iff, beq_iff_eq, Nat.lt_one_iff]

section
variable {k : Nat} (hk : k < 8)
include hk

theorem phase_reset : phase State.reset k = 0 := by
  rw [phase, show rd State.reset (.tckG k) tck_PHASE = 0 from rd_reset (page_tckG ⟨k, hk⟩) (by decide) rfl rfl]; rfl

theorem epochOf_reset : epochOf State.reset k = 0 := by
  rw [epochOf, show rd State.reset (.tckG k) tck_EPOCH = 0 from rd_reset (page_tckG ⟨k, hk⟩) (by decide) rfl rfl]

/-- R155: the registers of a generator. -/
theorem tickRegisters_reset : rd State.reset (.tckG k) tck_TICK_LEN = 4096 ∧ rd State.reset (.tckG k) tck_STRETCH_LIMIT = 0 ∧
    rd State.reset (.tckG k) tck_ALIGN = 0x40 ∧ rd State.reset (.tckG k) tck_GUARD = 0x80 ∧
    rd State.reset (.tckG k) tck_WINDOW = 0 ∧ rd State.reset (.tckG k) tck_DEPTH = 0 :=
  have hp := page_tckG ⟨k, hk⟩
  ⟨rd_reset hp (by decide) rfl rfl, rd_reset hp (by decide) rfl rfl, rd_reset hp (by decide) rfl rfl,
    rd_reset hp (by decide) rfl rfl, rd_reset hp (by decide) rfl rfl, rd_reset hp (by decide) rfl rfl⟩

end

/-! ## Sites of a tract (R12, R14) -/

theorem tractOf_siteAt {t ls : Nat} (hl : ls < 16) : tractOf (siteAt t ls) = t := by
  simp only [tractOf, siteAt]; omega

theorem localOf_siteAt {t ls : Nat} (hl : ls < 16) : localOf (siteAt t ls) = ls := by
  simp only [localOf, siteAt]; omega

/-- A table word names a local site, with the bit that says that it names one. -/
theorem mapped_word {ls : Nat} (hl : ls < 16) : (0x100 + ls).testBit 8 = true ∧ (0x100 + ls) % 16 = ls := by
  refine ⟨?_, by omega⟩
  rw [show 0x100 + ls = 2 ^ 8 + ls from rfl, Nat.testBit_two_pow_add_eq, Nat.testBit_lt_two_pow (by omega)]; rfl

section
variable {d t : Nat} (hd : d < 8) (ht : t < 24)
include hd ht

theorem map_reset {n : Nat} (hn : n < 15) : rd State.reset (.trc d t) (trc_MAP_n + 4 * n) = 0x100 + n := by
  have hr : rowAt (.trc d t) (trc_MAP_n + 4 * n) = some ⟨0x100, 4, 15, .ro, 0, 0⟩ := by interval_cases n <;> rfl
  refine rd_reset (page_trc ⟨d, hd⟩ ⟨t, ht⟩) (by simp only [trc_MAP_n]; omega) hr ?_
  interval_cases n <;> rfl

theorem reserve_reset : rd State.reset (.trc d t) trc_RESERVE = 0x10F :=
  rd_reset (page_trc ⟨d, hd⟩ ⟨t, ht⟩) (by decide) rfl rfl

theorem siteState_reset : rd State.reset (.trc d t) trc_SITE_STATE = 0 :=
  rd_reset (page_trc ⟨d, hd⟩ ⟨t, ht⟩) (by decide) rfl rfl

theorem siteOf_reset {n : Nat} (hn : n < 15) : siteOf State.reset d (15 * t + n) = some (siteAt t n) := by
  obtain ⟨hbit, hlow⟩ := mapped_word (show n < 16 by omega)
  have hq : (15 * t + n) / 15 = t := by omega
  have hr : (15 * t + n) % 15 = n := by omega
  simp only [siteOf, hq, hr, map_reset hd ht hn, hbit, hlow, if_true, siteAt]
  rw [if_pos (by omega)]

/-- A site carries a logical core exactly where it is not the last of its tract. -/
theorem logicalOf_reset {ls : Nat} (hl : ls < 16) : (logicalOf State.reset d (siteAt t ls)).isSome = decide (ls < 15) := by
  rw [logicalOf, Option.isSome_map, tractOf_siteAt hl, localOf_siteAt hl, Bool.eq_iff_iff, List.find?_isSome, decide_eq_true_iff]
  constructor
  · rintro ⟨n, hn, hm⟩
    have hn := List.mem_range.mp hn
    obtain ⟨-, hlow⟩ := mapped_word (show n < 16 by omega)
    simp only [map_reset hd ht hn, hlow, Bool.and_eq_true, beq_iff_eq] at hm
    omega
  · intro hlt
    obtain ⟨hbit, hlow⟩ := mapped_word hl
    exact ⟨ls, List.mem_range.mpr hlt, by simp [map_reset hd ht hlt, hbit, hlow]⟩

theorem roleOf_reset {ls : Nat} (hl : ls < 16) : roleOf State.reset d (siteAt t ls) = if ls < 15 then 0 else 1 := by
  simp only [roleOf, tractOf_siteAt hl, localOf_siteAt hl, siteState_reset hd ht, reserve_reset hd ht, Nat.zero_testBit,
    logicalOf_reset hd ht hl, Bool.false_eq_true, if_false, decide_eq_true_iff]
  split
  · rfl
  · rw [if_pos (by omega)]

end

/-! ## Wipes (R390) -/

theorem wipState_reset (w : Nat) : rd State.reset (wipPage w) wip_STATE = 0 := by
  unfold wipPage
  split
  next h => exact rd_reset (page_wip ⟨w, h⟩) (by decide) rfl rfl
  next => exact rd_reset rfl (by decide) rfl rfl

/-- Settles O57: the registers read their reset values, and the tables of the state are empty. -/
theorem resetState : Obligations.ResetState := by
  unfold Obligations.ResetState
  refine ⟨layoutN_reset, ?_, ?_, fun k _ => slotUsed_reset k,
    fun k hk => ⟨phase_reset hk, epochOf_reset hk, tickRegisters_reset hk⟩,
    fun d hd t ht => ⟨fun n hn => siteOf_reset hd ht hn, roleOf_reset hd ht (by decide), fun n hn => ?_⟩,
    fun w hw => ⟨rfl, ?_⟩, rd_reset rfl (by decide) rfl rfl, rd_reset rfl (by decide) rfl rfl, rd_reset rfl (by decide) rfl rfl,
    rfl, rfl, rfl, reset_mem_wf⟩
  · rw [diesOf, slotUsed_reset, diesPer, layoutN_reset]; rfl
  · rw [homeDie, Nat.zero_mul]
  · rw [roleOf_reset hd ht (by omega), if_pos hn]
  · rw [wipState_reset, Nat.zero_testBit]

end Sys2Proof.Proofs
end

section
/-! Proofs about what leaves a page of the register window alone: its registers, and the commands in progress. -/
namespace Sys2Proof.Proofs
open Sys2Proof.Machine Sys2Proof.Safety Sys2Proof.Laws

/-- The errors of a site's words are counted and logged on the page of its core (R370, R371). -/
theorem eccPage_site {key a : Nat} (hk : key < 3072) (hlo : coreAddr key 0 ≤ a) (hhi : a < coreAddr key 0 + siteBytes) :
    eccPage a = some (corPage key) := by
  simp only [coreAddr, siteBytes, Nat.shiftLeft_eq] at hlo hhi
  simp only [eccPage, fld, Nat.shiftRight_eq_div_pow]
  have h46 : a / 2 ^ 46 % 2 ^ 2 = 0 := by omega
  have h43 : a / 2 ^ 43 % 2 ^ 3 = key / 384 := by omega
  have h34 : a / 2 ^ 34 % 2 ^ 9 = key % 384 := by omega
  rw [if_pos h46, h43, h34, corPage]

/-- `u` shows the registers of a page, and has the commands in progress, that `s` has. -/
structure KeepsPage (p : Page) (s u : State) : Prop where
  cmds : u.cmds = s.cmds
  reads : ∀ o < 0x1000, rd u p o = rd s p o

namespace KeepsPage
variable {p q : Page} {s t u : State}

theorem of_regs (hc : t.cmds = s.cmds) (hr : t.regs = s.regs) : KeepsPage p s t :=
  ⟨hc, fun o _ => by rw [rd, regAt, hr, ← regAt, ← rd]⟩

theorem refl (p : Page) (s : State) : KeepsPage p s s := .of_regs rfl rfl

theorem trans (h : KeepsPage p s t) (g : KeepsPage p t u) : KeepsPage p s u :=
  ⟨g.cmds.trans h.cmds, fun o ho => (g.reads o ho).trans (h.reads o ho)⟩

theorem setCore (s : State) (k : Nat) (x : Core) : KeepsPage p s (setCore s k x) := .of_regs rfl rfl
theorem setDie (s : State) (d : Nat) (x : DieSt) : KeepsPage p s (setDie s d x) := .of_regs rfl rfl
theorem setSlot (s : State) (k : Nat) (x : SlotSt) : KeepsPage p s (setSlot s k x) := .of_regs rfl rfl
theorem setTick (s : State) (k : Nat) (x : TickSt) : KeepsPage p s (setTick s k x) := .of_regs rfl rfl
theorem wrByte (s : State) (a : Nat) (b : Byte) : KeepsPage p s (wrByte s a b) := .of_regs rfl rfl
theorem setSynd (s : State) (w : Nat) (x : Byte) : KeepsPage p s (setSynd s w x) := .of_regs rfl rfl
theorem memClear (s : State) (a n : Nat) : KeepsPage p s (memClear s a n) := .of_regs rfl rfl

/-- Whichever way a choice goes, the page is kept. -/
theorem ite {c : Prop} [Decidable c] (ht : KeepsPage p s t) (hu : KeepsPage p s u) : KeepsPage p s (if c then t else u) := by
  split
  · exact ht
  · exact hu

theorem each {α : Type} {f : α → State → State} {l : List α} (hf : ∀ a ∈ l, ∀ t, KeepsPage p t (f a t)) (s : State) :
    KeepsPage p s (each l f s) :=
  List.foldlRecOn l (fun t a => f a t) (refl p s) fun t ht a ha => ht.trans (hf a ha t)

section
variable (h : pageBase q ≠ pageBase p)
include h

/-- A write to a page whose base is another one. -/
theorem wr {o : Nat} (ho : o < 0x1000) (s : State) (v : Nat) : KeepsPage p s (wr s q o v) :=
  ⟨rfl, fun u hu => rd_wr_ne s v (by have := pageBase_aligned p; have := pageBase_aligned q; omega)⟩

theorem bump {o : Nat} (ho : o < 0x1000) (s : State) (n : Nat) : KeepsPage p s (bump s q o n) := wr h ho s _

theorem raise (s : State) (b : Nat) : KeepsPage p s (raise s q b) := by
  obtain ⟨ms, fs, e⟩ := raise_eq s q b
  rw [e]
  exact (wr h (by decide) s _).trans (.of_regs rfl rfl)

theorem logEntry (s : State) (source syn word : Nat) (ue scrub : Bool) :
    KeepsPage p s (logEntry s q source syn word ue scrub) := by
  unfold Machine.logEntry
  refine ite (refl p s) (((wr h ?_ s _).trans (wr h ?_ _ _)).trans (.of_regs rfl rfl)) <;> omega

theorem countErr (s : State) (source syn word : Nat) (ue scrub : Bool) : KeepsPage p s (countErr s q source syn word ue scrub) :=
  (bump h (by split <;> decide) s 1).trans (logEntry h ..)

end

theorem wipeTimed {w : Nat} (h : pageBase (wipPage w) ≠ pageBase p) (s : State) : KeepsPage p s (wipeTimed w s) :=
  trans (t := (drawNat s).2) (.of_regs rfl rfl) ((bump h (show wip_COUNT < 0x1000 by decide) _ 1).trans
    ((wr h (show wip_LAST_US < 0x1000 by decide) _ _).trans (raise h _ 1)))

/-! ## The field-repair log -/

section
variable (h : pageBase .fus ≠ pageBase p)
include h

theorem addRepair (s : State) (kind die site mac index hword : Nat) : KeepsPage p s (addRepair s kind die site mac index hword) :=
  ite (refl p s) (ite (raise h s 1) (.of_regs rfl rfl))

theorem noteCorrection (s : State) (w syn n : Nat) (scrub : Bool) : KeepsPage p s (noteCorrection s w syn n scrub) := by
  unfold Machine.noteCorrection
  extract_lets e s1 a d thrice site mac s2
  have h1 : KeepsPage p s s1 := .of_regs rfl rfl
  have h2 : KeepsPage p s s2 := ite (h1.trans (addRepair h ..)) h1
  exact ite (ite (h1.trans (addRepair h ..)) h1) (ite (h2.trans (addRepair h ..)) h2)

theorem applyRepair (r : Repair) (s : State) : KeepsPage p s (applyRepair r s) := by
  unfold Machine.applyRepair
  split
  · refine trans ?_ (bump h (by decide) _ 1)
    exact .of_regs rfl rfl
  · exact ite (refl p s) (ite (raise h s 2) (addRepair h ..))

theorem applyRepairs (s : State) (covers : Repair → Bool) : KeepsPage p s (applyRepairs s covers) :=
  each (fun r _ t => applyRepair h r t) s

theorem logRow (s : State) (w : Nat) : KeepsPage p s (logRow s w) := ite (addRepair h ..) (addRepair h ..)

theorem refail (a n : Nat) (s : State) : KeepsPage p s (refail a n s) := by
  refine each (fun e _ t => ?_) s
  exact ite ((setSynd ..).trans (logRow h ..)) (setSynd ..)

theorem wipeSite (key : Nat) (s : State) : KeepsPage p s (wipeSite key s) :=
  (applyRepairs h s _).trans ((memClear ..).trans ((refail h ..).trans (setCore ..)))

theorem copyRange (src dest n : Nat) (bad : List Nat) (s : State) : KeepsPage p s (copyRange src dest n bad s) := by
  refine trans ((memClear s dest n).trans (trans (each ?_ _) (each ?_ _))) (refail h ..)
  · exact fun _ _ t => wrByte t ..
  · exact fun _ _ t => setSynd t ..

end

/-! ## Errors of a site's words (R364, R371) -/

theorem flipBit (s : State) (w n : Nat) : KeepsPage p s (flipBit s w n) := ite (wrByte ..) (refl p s)

section
variable (hf : pageBase .fus ≠ pageBase p)
include hf

theorem readBad {e : Nat × Byte} (he : eccPage (8 * e.1) = some q) (h : pageBase q ≠ pageBase p) (scrub : Bool)
    (r : State × Bool) : KeepsPage p r.1 (readBad scrub e r).1 := by
  simp only [Machine.readBad, he]
  split
  · exact ((countErr h ..).trans (flipBit ..)).trans ((setSynd ..).trans (noteCorrection hf ..))
  · exact countErr h ..

theorem checkSite {key : Nat} (hk : key < 3072) (h : pageBase (corPage key) ≠ pageBase p) (s : State) :
    KeepsPage p s (checkSite key s) := by
  refine List.foldlRecOn (motive := fun r : State × Bool => KeepsPage p s r.1) _ _ (refl p s) fun r hr e he => ?_
  refine hr.trans (readBad hf (eccPage_site hk ?_ ?_) h false r)
  all_goals
    rw [badWords, if_neg (by decide)] at he
    obtain ⟨-, hin⟩ := List.mem_filter.mp he
    rw [decide_eq_true_iff] at hin
    simp only [coreAddr, siteBytes, Nat.shiftLeft_eq] at hin ⊢
    omega

/-- A site is copied: the errors found on the old one show on its core's page, the AMAX slots on the page of the new one. -/
theorem copySite {old new : Nat} (hk : old < 3072) (ho : pageBase (corPage old) ≠ pageBase p)
    (hn : pageBase (corPage new) ≠ pageBase p) (s : State) : KeepsPage p s (copySite s old new) := by
  unfold Machine.copySite
  refine (checkSite hf hk ho s).trans (((setCore ..).trans (copyRange hf ..)).trans (each (fun e he t => ?_) _))
  obtain ⟨o, hmem, rfl⟩ := List.mem_map.mp he
  obtain ⟨i, hi, rfl⟩ := List.mem_map.mp (List.mem_filter.mp hmem).1
  have hi := List.mem_range.mp hi
  have hlt : pageBase (corPage old) + cor_AMAX_n + 4 * i - pageBase (corPage old) < 0x1000 := by
    simp only [cor_AMAX_n]; omega
  exact wr hn hlt t _

end

theorem coreReset {key : Nat} (hp : pageOf (pageBase p) = some p) (h : p ≠ corPage key) (s : State) :
    KeepsPage p s (coreReset key s) := by
  refine ⟨rfl, fun o ho => ?_⟩
  have hb : (p == corPage key) = false := beq_false_of_ne h
  simp only [Machine.coreReset, dropRegs, rd, regAt, tget_tkeep, pageOf_add p o hp ho, hb, Bool.false_and, Bool.not_false,
    if_true]
  rfl

/-! ## The window boundary (R144) -/

theorem settleSamples {k : Nat} (h : pageBase (.ckp k) ≠ pageBase p) (s : State) (l : List Nat) :
    KeepsPage p s (settleSamples s k l) := by
  unfold Machine.settleSamples
  split
  · exact refl p s
  · exact ((wr h (show ckp_SETTLED < 0x1000 by decide) s _).trans (setTick ..)).trans (each (fun _ _ _ => setDie ..) _)

theorem reloadCounters {d : Nat} (h : ∀ i < 4, pageBase (.wkc d i) ≠ pageBase p) (mode : Nat) (s : State) :
    KeepsPage p s (reloadCounters mode d s) := by
  refine each (fun c hc t => ?_) s
  have hc := List.mem_range.mp hc
  unfold reloadCounter
  have ho : wkc_VALUE_m + wkcOff c < 0x1000 := by simp only [wkc_VALUE_m, wkcOff]; omega
  exact ite ((wr (h (c / 64) (by omega)) ho t _).trans (setDie ..)) (refl p t)

theorem endGatherEpoch {d : Nat} (h : pageBase (.gch d) ≠ pageBase p) (s : State) : KeepsPage p s (endGatherEpoch d s) :=
  (bump h (show gch_RA_EVICT < 0x1000 by decide) s _).trans
    ((bump h (show gch_INVALIDATIONS < 0x1000 by decide) _ _).trans (setDie ..))

theorem windowBoundary {k : Nat} (ht : pageBase (.tckG k) ≠ pageBase p) (hc : pageBase (.ckp k) ≠ pageBase p)
    (hw : ∀ d, ∀ i < 4, pageBase (.wkc d i) ≠ pageBase p) (hg : ∀ d, pageBase (.gch d) ≠ pageBase p) (s : State) :
    KeepsPage p s (windowBoundary s k) := by
  unfold Machine.windowBoundary
  refine ite (refl p s) ?_
  exact (((((setTick ..).trans (bump ht (show tck_WINDOW_COUNT < 0x1000 by decide) _ 1)).trans (raise ht _ 4)).trans
    (settleSamples hc _ _)).trans (each (fun d _ t => reloadCounters (hw d) 1 t) _)).trans
    (each (fun d _ t => endGatherEpoch (hg d) t) _)

end KeepsPage

end Sys2Proof.Proofs
end

section
/-! Proofs about CORE_SWAP: what keeps the page of a tract, the reasons of a refusal, and what the page shows once a swap has
taken effect. -/
namespace Sys2Proof.Proofs
open Sys2Proof.Machine Sys2Proof.Safety Sys2Proof.Laws

/-! ## Sites -/

theorem siteAt_lt {t ls : Nat} (ht : t < 24) (hl : ls < 16) : siteAt t ls < 384 := by
  simp only [siteAt]; omega

theorem slotSite_lt {s : State} {d t n ls : Nat} (h : slotSite s d t n = some ls) : ls < 16 := by
  dsimp only [slotSite] at h
  split at h
  · cases h; omega
  · cases h

theorem reserveOf_lt {s : State} {d t rs : Nat} (h : reserveOf s d t = some rs) : rs < 16 := by
  dsimp only [reserveOf] at h
  split at h
  · cases h; omega
  · cases h

/-! ## What keeps the page of a tract -/

namespace KeepsPage
variable {s v : State} {d t : Nat} (h : KeepsPage (.trc d t) s v)
include h

theorem unfinished : unfinished v (.trc d t) = unfinished s (.trc d t) := by
  rw [Machine.unfinished, h.cmds, Machine.unfinished]

theorem arg {m : Nat} (hm : m < 8) : arg v (.trc d t) m = arg s (.trc d t) m := h.reads _ (by simp only [hARG]; omega)

theorem slotSite {n : Nat} (hn : n ≤ 14) : slotSite v d t n = slotSite s d t n := by
  have hr := h.reads (trc_MAP_n + 4 * n) (by simp only [trc_MAP_n]; omega)
  simp only [Machine.slotSite, hr]

theorem reserveOf : reserveOf v d t = reserveOf s d t := by
  simp only [Machine.reserveOf, h.reads trc_RESERVE (by decide)]

end KeepsPage

section
variable {d t : Nat} (hd : d < 8) (ht : t < 24)
include hd ht

theorem windowBoundary_keeps_tract {k : Nat} (hk : k < 8) (s : State) : KeepsPage (.trc d t) s (windowBoundary s k) := by
  apply KeepsPage.windowBoundary <;> simp only [pageBase, dieBase] <;> omega

omit hd in
theorem fus_ne_tract : pageBase .fus ≠ pageBase (.trc d t) := by
  simp only [pageBase, dieBase]; omega

omit hd in
theorem corPage_ne_tract {ls : Nat} (hl : ls < 16) : pageBase (corPage (384 * d + siteAt t ls)) ≠ pageBase (.trc d t) := by
  have := siteAt_lt ht hl
  simp only [corPage, pageBase, dieBase]; omega

theorem coreReset_keeps_tract (key : Nat) (s : State) : KeepsPage (.trc d t) s (coreReset key s) :=
  .coreReset (page_trc ⟨d, hd⟩ ⟨t, ht⟩) (fun e => by cases e) s

/-- The reserve is wiped, takes the state of the vacated site on a partition that ticks, and the frames of the vacated site name it
(R352, R353). -/
theorem moveSite_keeps_tract {ls rs k : Nat} (hl : ls < 16) (hr : rs < 16) (s : State) :
    let old := 384 * d + siteAt t ls
    let new := 384 * d + siteAt t rs
    let w := wipeTimed d (coreReset new (wipeSite new s))
    let u := if activePhase (phase w k) = true then copySite w old new else w
    KeepsPage (.trc d t) s (coreReset old (moveFrames u k old (some new))) := by
  intro old new w u
  have hfus := fus_ne_tract (d := d) ht
  have hwip : pageBase (wipPage d) ≠ pageBase (.trc d t) := by simp only [wipPage, hd, if_true, pageBase, dieBase]; omega
  have hold : old < 3072 := by have := siteAt_lt ht hl; omega
  have hw : KeepsPage (.trc d t) s w :=
    (KeepsPage.wipeSite hfus _ s).trans ((coreReset_keeps_tract hd ht _ _).trans (.wipeTimed hwip _))
  have hcopy : KeepsPage (.trc d t) w (copySite w old new) :=
    .copySite hfus hold (corPage_ne_tract ht hl) (corPage_ne_tract ht hr) w
  exact ((KeepsPage.ite (hw.trans hcopy) hw).trans (.setSlot ..)).trans (coreReset_keeps_tract hd ht old _)

end

/-! ## What the page of a tract shows of a swap -/

/-- Slot n of the tract names the reserve site rs, and the swap is counted, but the vacated site is not yet judged. -/
structure Remapped (s u : State) (d t n rs : Nat) : Prop where
  maps : rd u (.trc d t) (trc_MAP_n + 4 * n) = 0x100 + rs
  counts : rd u (.trc d t) trc_SWAP_COUNT = min (rd s (.trc d t) trc_SWAP_COUNT + 1) 0xFFFFFFFF
  runs : (tfind u.cmds (pageBase (.trc d t))).isSome = true

/-- A swap of slot n from site ls to the reserve site rs has taken effect: the operation is about to end, and the vacated site is the
reserve or retired. -/
structure SwapDone (s u : State) (d t n ls rs : Nat) : Prop where
  maps : rd u (.trc d t) (trc_MAP_n + 4 * n) = 0x100 + rs
  counts : rd u (.trc d t) trc_SWAP_COUNT = min (rd s (.trc d t) trc_SWAP_COUNT + 1) 0xFFFFFFFF
  ready : ∃ c, tfind u.cmds (pageBase (.trc d t)) = some c ∧ c.ready = true
  vacated : rd u (.trc d t) trc_RESERVE = 0x100 + ls ∨ (rd u (.trc d t) trc_SITE_STATE).testBit (localOf (siteAt t ls)) = true
  retired : (arg s (.trc d t) 0).testBit 8 = true →
    rd u (.trc d t) trc_RESERVE = 0 ∧ (rd u (.trc d t) trc_SITE_STATE).testBit (localOf (siteAt t ls)) = true

theorem SwapDone.of_keeps {s v u : State} {d t n ls rs : Nat} (hk : KeepsPage (.trc d t) s v) (h : SwapDone v u d t n ls rs) :
    SwapDone s u d t n ls rs where
  maps := h.maps
  counts := hk.reads trc_SWAP_COUNT (by decide) ▸ h.counts
  ready := h.ready
  vacated := h.vacated
  retired := hk.arg (show 0 < 8 by decide) ▸ h.retired

theorem finishLong_ready {s : State} {p : Page} (h : (tfind s.cmds (pageBase p)).isSome = true) (code reason evt : Nat) :
    ∃ c, tfind (finishLong s p code reason evt).cmds (pageBase p) = some c ∧ c.ready = true := by
  obtain ⟨c, hc⟩ := Option.isSome_iff_exists.mp h
  simp only [finishLong, hc, tfind_tput_same]
  exact ⟨_, rfl, rfl⟩

section
variable {d t n : Nat} (hn : n ≤ 14)
include hn

/-- The slots' words lie below the tract's other registers. -/
theorem map_off_lt : trc_MAP_n + 4 * n < trc_RESERVE := by
  simp only [trc_MAP_n, trc_RESERVE]; omega

/-- The table word is written over a page that shows the swap counted. -/
theorem Remapped.of_map {s m : State} {rs : Nat} (hr : rs < 16) (hrun : (tfind s.cmds (pageBase (.trc d t))).isSome = true)
    (h : KeepsPage (.trc d t) (bump s (.trc d t) trc_SWAP_COUNT 1) m) :
    Remapped s (wr m (.trc d t) (trc_MAP_n + 4 * n) (0x100 + rs)) d t n rs where
  maps := (rd_wr ..).trans (Nat.mod_eq_of_lt (by omega))
  counts := by
    have hoff := map_off_lt hn
    rw [rd_wr_ne _ _ (by simp only [trc_SWAP_COUNT, trc_RESERVE] at hoff ⊢; omega), h.reads _ (by decide), rd_bump]
  runs := by rw [wr_cmds, h.cmds, bump_cmds, hrun]

end

theorem Remapped.of_keeps {s u v : State} {d t n rs : Nat} (hn : n ≤ 14) (h : Remapped s u d t n rs)
    (hk : KeepsPage (.trc d t) u v) : Remapped s v d t n rs where
  maps := (hk.reads _ (by simp only [trc_MAP_n]; omega)).trans h.maps
  counts := (hk.reads _ (by decide)).trans h.counts
  runs := hk.cmds.symm ▸ h.runs

theorem testBit_of_fld {x n : Nat} (h : fld x n 1 = 1) : x.testBit n = true := by
  rw [Nat.testBit_eq_decide_div_mod_eq, decide_eq_true_iff, ← Nat.shiftRight_eq_div_pow]
  exact h

theorem retireSite_eq (s : State) (d site : Nat) : retireSite s d site =
    raise (condition (wrFld (wr s (.trc d (tractOf site)) trc_RESERVE 0) (.trc d (tractOf site)) trc_SITE_STATE (localOf site) 1 1)
      (.trc d (tractOf site)) 0x17 2) .fus 4 := rfl

theorem retireSite_cmds (s : State) (d site : Nat) : (retireSite s d site).cmds = s.cmds := by
  rw [retireSite_eq, raise_cmds, condition_cmds, wrFld_cmds, wr_cmds]

section
variable {d t ls : Nat} (ht : t < 24) (hl : ls < 16)
include ht hl

/-- Retiring a site writes RESERVE and SITE_STATE of its tract; of that page it further changes STATUS and EVT_STATUS (R379). -/
theorem rd_retireSite (s : State) {o : Nat} (ho : o < 0x1000) (hs : o ≠ hSTATUS) (he : o ≠ hEVT) :
    rd (retireSite s d (siteAt t ls)) (.trc d t) o =
    rd (wrFld (wr s (.trc d t) trc_RESERVE 0) (.trc d t) trc_SITE_STATE ls 1 1) (.trc d t) o := by
  rw [retireSite_eq, tractOf_siteAt hl, localOf_siteAt hl, (KeepsPage.raise (fus_ne_tract ht) _ 4).reads o ho, condition,
    rd_raise_ne _ _ (by omega), last, rd_wrFld_ne _ _ _ _ (by omega)]

theorem rd_retireSite_ne (s : State) {o : Nat} (ho : o < 0x1000) (hs : o ≠ hSTATUS) (he : o ≠ hEVT) (hr : o ≠ trc_RESERVE)
    (hst : o ≠ trc_SITE_STATE) : rd (retireSite s d (siteAt t ls)) (.trc d t) o = rd s (.trc d t) o := by
  rw [rd_retireSite ht hl s ho hs he, rd_wrFld_ne _ _ _ _ (by omega), rd_wr_ne _ _ (by omega)]

theorem reserve_retireSite (s : State) : rd (retireSite s d (siteAt t ls)) (.trc d t) trc_RESERVE = 0 := by
  rw [rd_retireSite ht hl s (by decide) (by decide) (by decide),
    rd_wrFld_ne _ _ _ _ (by simp [trc_RESERVE, trc_SITE_STATE]), rd_wr, Nat.zero_mod]

theorem siteState_retireSite (s : State) :
    (rd (retireSite s d (siteAt t ls)) (.trc d t) trc_SITE_STATE).testBit (localOf (siteAt t ls)) = true := by
  rw [rd_retireSite ht hl s (by decide) (by decide) (by decide), localOf_siteAt hl]
  exact testBit_of_fld (rd_wrFld _ _ _ _ _ _ (by omega))

/-- The vacated site is retired. -/
theorem Remapped.retire {s u : State} {n rs : Nat} (hn : n ≤ 14) (h : Remapped s u d t n rs) (code : Nat) :
    SwapDone s (finishLong (retireSite u d (siteAt t ls)) (.trc d t) code 0 1) d t n ls rs where
  maps := by
    have hoff := map_off_lt hn
    rw [rd_finishLong, rd_retireSite_ne ht hl, h.maps]
    all_goals simp only [trc_RESERVE, trc_MAP_n, trc_SITE_STATE, hSTATUS, hEVT] at hoff ⊢; omega
  counts := by
    rw [rd_finishLong, rd_retireSite_ne ht hl, h.counts]
    all_goals decide
  ready := finishLong_ready (by rw [retireSite_cmds, h.runs]) ..
  vacated := .inr (by rw [rd_finishLong]; exact siteState_retireSite ht hl u)
  retired _ := by
    rw [rd_finishLong, rd_finishLong]
    exact ⟨reserve_retireSite ht hl u, siteState_retireSite ht hl u⟩

omit ht in
/-- The vacated site becomes the reserve. -/
theorem Remapped.reserve {s u : State} {n rs : Nat} (hn : n ≤ 14) (h : Remapped s u d t n rs)
    (hkeep : (arg s (.trc d t) 0).testBit 8 = false) :
    SwapDone s (finishLong (wr u (.trc d t) trc_RESERVE (0x100 + ls)) (.trc d t) 0 0 1) d t n ls rs where
  maps := by
    have hoff := map_off_lt hn
    rw [rd_finishLong, rd_wr_ne _ _ (by omega), h.maps]
  counts := by rw [rd_finishLong, rd_wr_ne _ _ (by simp [trc_RESERVE, trc_SWAP_COUNT]), h.counts]
  ready := finishLong_ready (by rw [wr_cmds, h.runs]) ..
  vacated := .inl (by rw [rd_finishLong, rd_wr, Nat.mod_eq_of_lt (by omega)])
  retired hr := by rw [hkeep] at hr; cases hr

end

/-- A swap of a mapped slot of a tract that has a reserve (R15, R352, R379, R451). -/
theorem swapNow_onto_reserve {s : State} {d t ls rs : Nat} (hd : d < 8) (ht : t < 24) (hn : arg s (.trc d t) 0 % 16 ≤ 14)
    (hrun : (tfind s.cmds (pageBase (.trc d t))).isSome = true) (hls : slotSite s d t (arg s (.trc d t) 0 % 16) = some ls)
    (hrs : reserveOf s d t = some rs) : SwapDone s (swapNow s d t) d t (arg s (.trc d t) 0 % 16) ls rs := by
  have hl := slotSite_lt hls
  have hr := reserveOf_lt hrs
  have hcounted : rd (bump s (.trc d t) trc_SWAP_COUNT 1) (.trc d t) trc_RESERVE = rd s (.trc d t) trc_RESERVE :=
    rd_bump_ne _ _ (by simp [trc_RESERVE, trc_SWAP_COUNT])
  have hbump : reserveOf (bump s (.trc d t) trc_SWAP_COUNT 1) d t = some rs := by
    rw [← hrs]
    simp only [reserveOf, hcounted]
  have hmoved := Remapped.of_map hn hr hrun (moveSite_keeps_tract (k := slotOf s d) hd ht hl hr
    (bump s (.trc d t) trc_SWAP_COUNT 1))
  fun_cases swapNow s d t
  case case1 p a n hnone =>
    rw [hls] at hnone
    cases hnone
  case case2 p a n k ls' hls' site old counted rs' hrs' new wiped copied moved mapped retire hkeep =>
    obtain rfl : ls = ls' := Option.some.inj (hls.symm.trans hls')
    obtain rfl : rs = rs' := Option.some.inj (hbump.symm.trans hrs')
    exact hmoved.reserve hl hn (by simpa using (Bool.and_eq_true_iff.mp hkeep).1)
  case case3 p a n k ls' hls' site old counted rs' hrs' new wiped copied moved mapped retire hvacated logged =>
    obtain rfl : ls = ls' := Option.some.inj (hls.symm.trans hls')
    obtain rfl : rs = rs' := Option.some.inj (hbump.symm.trans hrs')
    exact (hmoved.of_keeps hn (.ite (.addRepair (fus_ne_tract ht) ..) (.refl ..))).retire ht hl hn 0x17
  case case4 p a n k ls' hls' site old counted hnone moved logged =>
    rw [hbump] at hnone
    cases hnone

/-! ## The command -/

section
variable {s : State} {d t : Nat}

/-- A page whose operation is unfinished runs one. -/
theorem unfinished_runs {p : Page} (h : unfinished s p = true) : (tfind s.cmds (pageBase p)).isSome = true := by
  unfold unfinished at h
  split at h
  next c hc => rw [hc]; rfl
  next => cases h

theorem coreSwapApply_waits (hactive : activePhase (phase s (slotOf s d)) = true) (hwait : ticking s (slotOf s d) = false ∨
    roleNo s (slotOf s d) ≠ 2 ∧ windowOver s (slotOf s d) = false ∧ (getTick s (slotOf s d)).bounded = false) :
    execCoreSwapApply d t s = s := by
  fun_cases execCoreSwapApply d t s
  case case1 => rfl
  case case2 p k hgoes hhalted =>
    rw [hhalted] at hactive
    cases hactive
  case case3 p k hgoes hphase hquiet => simp [k, hactive] at hquiet
  case case4 p k hgoes hphase hactive' ended hboundary =>
    rcases hwait with hstill | ⟨hrole, hopen, hbounded⟩
    · simp [k, hstill] at hboundary
    · simp [ended, k, hrole, hopen, hbounded] at hboundary
  case case5 => rfl

/-- A swap takes effect at once on a partition that is not active, and at the window boundary of one that ticks (R15, R352). -/
theorem coreSwapApply_swaps (hrun : unfinished s (.trc d t) = true) (hload : (getSlot s (slotOf s d)).loading = false)
    (hphase : phase s (slotOf s d) ≠ 5) (hgo : activePhase (phase s (slotOf s d)) = false ∨
      ticking s (slotOf s d) = true ∧ roleNo s (slotOf s d) ≠ 2 ∧ windowOver s (slotOf s d) = true) :
    ∃ v, (v = s ∨ v = windowBoundary s (slotOf s d)) ∧ execCoreSwapApply d t s = swapNow v d t := by
  fun_cases execCoreSwapApply d t s
  case case1 p k hstays => simp [p, k, hrun, hload] at hstays
  case case2 p k hgoes hhalted => exact absurd hhalted hphase
  case case3 => exact ⟨s, .inl rfl, rfl⟩
  case case4 => exact ⟨_, .inr rfl, rfl⟩
  case case5 p k hgoes hphase' hactive ended hnot =>
    rcases hgo with hquiet | ⟨hticks, hrole, hover⟩
    · simp [k, hquiet] at hactive
    · simp [ended, k, hrole, hover, hticks] at hnot

theorem slotOf_lt (s : State) {d : Nat} (hd : d < 8) : slotOf s d < 8 := Nat.lt_of_le_of_lt (Nat.div_le_self ..) hd

/-- Once it has taken effect, the page of the tract shows it, also where the window's boundary came first. -/
theorem coreSwapApply_done {ls rs : Nat} (hd : d < 8) (ht : t < 24) (hrun : unfinished s (.trc d t) = true)
    (hload : (getSlot s (slotOf s d)).loading = false) (hphase : phase s (slotOf s d) ≠ 5)
    (hgo : activePhase (phase s (slotOf s d)) = false ∨
      ticking s (slotOf s d) = true ∧ roleNo s (slotOf s d) ≠ 2 ∧ windowOver s (slotOf s d) = true)
    (hn : arg s (.trc d t) 0 % 16 ≤ 14) (hls : slotSite s d t (arg s (.trc d t) 0 % 16) = some ls)
    (hrs : reserveOf s d t = some rs) : SwapDone s (execCoreSwapApply d t s) d t (arg s (.trc d t) 0 % 16) ls rs := by
  obtain ⟨v, hv, e⟩ := coreSwapApply_swaps hrun hload hphase hgo
  have hkeep : KeepsPage (.trc d t) s v := by
    rcases hv with rfl | rfl
    · exact .refl ..
    · exact windowBoundary_keeps_tract hd ht (slotOf_lt s hd) s
  have harg := hkeep.arg (m := 0) (by decide)
  rw [e, ← harg]
  rw [← harg] at hn hls
  exact (swapNow_onto_reserve hd ht hn (unfinished_runs (hkeep.unfinished.trans hrun)) ((hkeep.slotSite hn).trans hls)
    (hkeep.reserveOf.trans hrs)).of_keeps hkeep

end

section
variable {s : State} {fn : Func} {d : Die} {t : Fin 24} (h : Admitted s fn (.trc d t)) (tag : BitVec 16)
include h

/-- What an admitted CORE_SWAP does. -/
theorem coreSwap_admitted : execCoreSwap fn d t tag.toNat s =
    if 14 < arg s (.trc d t) 0 % 16 || (slotSite s d t (arg s (.trc d t) 0 % 16)).isNone then reject s (.trc d t) 2 tag.toNat
    else if phase s (slotOf s d) = 5 then reject s (.trc d t) 3 tag.toNat
    else if (reserveOf s d t).isNone && activePhase (phase s (slotOf s d)) then reject s (.trc d t) 4 tag.toNat
    else startLong s (.trc d t) tag.toNat := by
  rw [execCoreSwap, hostCmd, hostWrite_admitted _ _ _ _ _ h]

theorem coreSwap_mapped (hn : arg s (.trc d t) 0 % 16 ≤ 14) (hmap : (slotSite s d t (arg s (.trc d t) 0 % 16)).isSome = true) :
    execCoreSwap fn d t tag.toNat s =
    if phase s (slotOf s d) = 5 then reject s (.trc d t) 3 tag.toNat
    else if (reserveOf s d t).isNone && activePhase (phase s (slotOf s d)) then reject s (.trc d t) 4 tag.toNat
    else startLong s (.trc d t) tag.toNat :=
  (coreSwap_admitted h tag).trans (if_neg (by simp [hn, Option.isSome_iff_ne_none.mp hmap]))

end

/-- A refusal shows its reason in CMD_RESULT (R405). -/
theorem coreSwap_rejected {s : State} {fn : Func} {d : Die} {t : Fin 24} {tag : BitVec 16} {reason : Nat} (hr : reason < 256)
    (e : execCoreSwap fn d t tag.toNat s = reject s (.trc d t) reason tag.toNat) :
    ∃ u, exec (.coreSwap fn d t tag) s = .next u ∧ rd u (.trc d t) hRESULT = 0x14 + 256 * reason + 65536 * tag.toNat :=
  ⟨_, congrArg (answer s) e, (rd_reject_result s _ hr tag.isLt).trans (by omega)⟩

theorem coreSwap_started {s : State} {fn : Func} {d : Die} {t : Fin 24} {tag : BitVec 16}
    (e : execCoreSwap fn d t tag.toNat s = startLong s (.trc d t) tag.toNat) :
    ∃ u, exec (.coreSwap fn d t tag) s = .next u ∧ busy u (.trc d t) = true ∧ u.regs = s.regs ∧ u.mem = s.mem := by
  refine ⟨_, congrArg (answer s) e, ?_, rfl, rfl⟩
  simp only [busy, startLong, tfind_tput_same]

/-- Settles O33: the command by its reasons in their order, the swap by what the tract's page shows once it has taken effect. -/
theorem coreSwapCommands : Obligations.CoreSwapCommands := by
  unfold Obligations.CoreSwapCommands
  intro s fn d t tag p n k
  refine ⟨fun h => ?_, fun _ _ hactive hwait => congrArg (answer s) (coreSwapApply_waits hactive hwait),
    fun ls rs hrun hload hphase hgo hn hls hrs => ?_⟩
  · refine ⟨fun hbad => coreSwap_rejected (by decide) ((coreSwap_admitted h tag).trans (if_pos ?_)), fun hn hmap hhalted => ?_,
      fun hn hmap hphase hnone hactive => ?_, fun hn hmap hphase hcan => ?_⟩
    · simpa [← Option.isNone_iff_eq_none] using hbad
    · exact coreSwap_rejected (by decide) ((coreSwap_mapped h tag hn hmap).trans (if_pos hhalted))
    · refine coreSwap_rejected (by decide) ((coreSwap_mapped h tag hn hmap).trans ((if_neg hphase).trans (if_pos ?_)))
      rw [hnone, hactive]; rfl
    · refine coreSwap_started ((coreSwap_mapped h tag hn hmap).trans ((if_neg hphase).trans (if_neg ?_)))
      rcases hcan with hreserve | hquiet
      · rw [← Option.not_isSome, hreserve]; simp
      · rw [hquiet, Bool.and_false]; decide
  · have done := coreSwapApply_done d.isLt t.isLt hrun hload hphase hgo hn hls hrs
    obtain ⟨c, hc, hready⟩ := done.ready
    exact ⟨_, c, rfl, done.maps, done.counts, hc, hready, done.vacated, done.retired⟩

end Sys2Proof.Proofs
end
section
/-! Proofs about the way an attempt leaves its core (R43, R93). -/
namespace Sys2Proof.Proofs
open Sys2Proof.Machine Sys2Proof.Safety Sys2Proof.Laws

/-! ## The die and the network of a core -/

theorem cid_div (id : CoreId) : cid id / 384 = id.die.val := by have := id.site.isLt; simp only [cid]; omega

theorem cid_die_lt (id : CoreId) : cid id / 384 < 8 := by rw [cid_div]; exact id.die.isLt

/-- A report of a core sets out for the slice of its own die. -/
theorem netSend_report {s : State} {d : Nat} (hd : d < 8) (l tag task sample info : Nat) (b : List Byte) :
    netSend s (taskToken s d l tag task sample info false b) .nobody (slotOf s d) =
      { s with net := s.net ++ [⟨taskToken s d l tag task sample info false b, .nobody, slotOf s d⟩] } :=
  netSend_near s _ _ _ rfl (fun _ => rfl) (fun h => absurd h (Nat.not_le.mpr hd))

/-! ## END and YIELD (R43, R93) -/

section
variable {s : State} {id : CoreId} {r : Run} {w : Nat} (h : Ready s id r w) (hq : (getCore s (cid id)).queue = [])
include h hq

/-- An END of a task that has nothing outstanding leaves the core with the report of R177. -/
theorem execEnd_leaves (hop : opcodeOf w = 0x50) (hg : openGroups (getCore s (cid id)) = []) (hu : unaccepted s (cid id) r.ctx = []) :
    execEnd id s = leave s (cid id) r
      (if r.narrow && r.fmtNow != r.ceiling && ufTrips (classB s (cid id / 384) r.fmtc) r.nz r.uf then 5 else 0) := by
  rw [execEnd, issue_ready h hop]
  simp [hq, hg, hu, settle]

/-- A YIELD of a task whose array work is done leaves the core with the record of R93. -/
theorem execYield_leaves (hop : opcodeOf w = 0x51) : ∃ e : Core, e.run = none ∧ e.v = [] ∧
    e.away = (getCore s (cid id)).away ++ [{ r with ended := true }] ∧
    execYield id s = { setCore s (cid id) e with net := s.net ++ [⟨taskToken (setCore s (cid id) e) (cid id / 384)
      (selfCore (setCore s (cid id) e) (cid id)) 3 r.task r.sample 0 false (runBytes (yieldRecord (getCore s (cid id)) r)),
      .nobody, slotOf (setCore s (cid id) e) (cid id / 384)⟩] } := by
  refine ⟨{ getCore s (cid id) with
    run := none, stall := 0, retained := none, v := [], away := (getCore s (cid id)).away ++ [{ r with ended := true }] },
    rfl, rfl, rfl, ?_⟩
  rw [execYield, issue_ready h hop]
  simp only [hq, List.any_nil, Bool.false_eq_true, if_false, settle]
  exact netSend_report (cid_die_lt id) ..

end

/-- What leaving a core leaves of it, and the report. -/
theorem leave_spec (s : State) {k : Nat} (hk : k / 384 < 8) (r : Run) (info : Nat) :
    (getCore (leave s k r info) k).run = none ∧
    (getCore (leave s k r info) k).away = (getCore s k).away ++ [{ r with ended := true }] ∧
    ∀ l, logicalOf s (k / 384) (k % 384) = some l → ∃ f, (leave s k r info).net = s.net ++ [f] ∧ f.tok.kind = 2 ∧ f.tok.tag = 2 ∧
      f.tok.value = r.task ∧ f.tok.dcount = info := by
  have hl : ∀ c, logicalOf (setCore s k c) (k / 384) (k % 384) = logicalOf s (k / 384) (k % 384) := fun _ => rfl
  simp only [leave, hl]
  cases hc : logicalOf s (k / 384) (k % 384) with
  | none => simp
  | some l =>
    simp only [netSend_report hk]
    refine ⟨?_, ?_, fun _ _ => ⟨_, rfl, rfl, rfl, rfl, rfl⟩⟩
    · exact congrArg Core.run (getCore_setCore s k _)
    · exact congrArg Core.away (getCore_setCore s k _)

/-- Settles O17: an attempt leaves its core by `leave`, or by YIELD's own report. -/
theorem endAndYieldLeaveCore : Obligations.EndAndYieldLeaveCore := by
  unfold Obligations.EndAndYieldLeaveCore
  intro s id r w h k c hq
  refine ⟨fun hop hg hu => ?_, fun hop => ?_⟩
  · obtain ⟨hrun, haway, hreport⟩ := leave_spec s (cid_die_lt id) r
      (if r.narrow && r.fmtNow != r.ceiling && ufTrips (classB s (k / 384) r.fmtc) r.nz r.uf then 5 else 0)
    exact ⟨_, congrArg (answer s) (execEnd_leaves h hq hop hg hu), hrun, haway, hreport⟩
  · obtain ⟨e, hrun, hv, haway, he⟩ := execYield_leaves h hq hop
    have hcore : ∀ l, getCore { setCore s k e with net := l, pending := s.pending } k = e := fun _ => getCore_setCore s k e
    refine ⟨_, _, congrArg (answer s) he, ?_, ?_, ?_, rfl, rfl, rfl, rfl, rfl⟩
    · exact (congrArg Core.run (hcore _)).trans hrun
    · exact (congrArg Core.v (hcore _)).trans hv
    · exact (congrArg Core.away (hcore _)).trans haway

end Sys2Proof.Proofs
end
section
/-! Proofs about the array's LATCH (R42, R49, R50). -/
namespace Sys2Proof.Proofs
open Sys2Proof.Machine Sys2Proof.Safety Sys2Proof.Laws

/-! ## Reads where no word has an error -/

/-- Where no word has an error a core reads without a change. -/
theorem coreCheck_clean {s : State} (h : s.synd = []) (k : Nat) (ctx : Option Nat) (a n : Nat) :
    coreCheck s k ctx a n = (s, false) := by
  refine List.foldlRecOn (motive := fun r : State × Bool => r = (s, false)) _ _ rfl fun r hr p _ => ?_
  rw [hr]
  simp only [checkRead_clean s _ _ (badWords_nil s _ _ h), Bool.or_self]

/-- A fold of reads that leaves the state alone and gives one vector for each place. -/
theorem foldl_reads {α : Type} {s : State} (f : State × List α × Nat × Bool → Nat → State × List α × Nat × Bool)
    (hf : ∀ l u i, ∃ x v, f (s, l, u, false) i = (s, l ++ [x], v, false)) (is : List Nat) (l : List α) (u : Nat) :
    ∃ l' v, is.foldl f (s, l, u, false) = (s, l', v, false) ∧ l'.length = l.length + is.length := by
  induction is generalizing l u with
  | nil => exact ⟨l, u, rfl, rfl⟩
  | cons i is ih =>
    obtain ⟨x, v, e⟩ := hf l u i
    obtain ⟨l', v', e', hl⟩ := ih (l ++ [x]) v
    exact ⟨l', v', by rw [List.foldl_cons, e, e'], by rw [hl, List.length_append, List.length_singleton, List.length_cons]; omega⟩

/-- Where no word has an error the vectors of a sub-pass are read without a change, one for each place. -/
theorem readVecs_clean {s : State} (h : s.synd = []) (k ctx n ea sa f p m kv st ss : Nat) :
    ∃ cols u, readVecs s k ctx n ea sa f p m kv st ss = (s, cols, u, false) ∧ cols.length = n := by
  unfold readVecs
  extract_lets b
  refine (foldl_reads (s := s) _ (fun l u i => ?_) (List.range n) [] 0).imp fun l hl => hl.imp fun v hv => ⟨hv.1, by simpa using hv.2⟩
  simp only [coreCheck_clean h, Bool.or_self]
  exact ⟨_, _, rfl⟩

/-! ## The queue's head -/

/-- A queued instruction that the array may take takes its step. -/
theorem arrayStep_front {s : State} {id : CoreId} {e : QEntry} {rest : List QEntry} {r : Run} (h : Front s id e rest r)
    (f : Nat → Core → Run → QEntry → State → State) :
    arrayStep id f s = f (cid id) (getCore s (cid id)) r e s := by
  simp only [arrayStep, h.queue, h.owner, h.goes, if_true]

/-- The STREAM behind a LATCH is the next of the queue. -/
theorem pairStream_cons {c : Core} {e : QEntry} {rest : List QEntry} (h : c.queue = e :: rest) : pairStream c = rest.head? := by
  rw [pairStream, h]; cases rest <;> rfl

/-- A LATCH whose vectors may be read and are ready takes its effect, of the attempt's own format where its STREAM has come as far
(R42). -/
theorem latchBegin_due {s : State} {id : CoreId} {e : QEntry} {rest : List QEntry} {r : Run} {ea sa code n kv st ss : Nat}
    (h : Front s id e rest r) (hop : e.op = .latch ea sa code n kv st ss)
    (hdue : code = 15 → rest.head?.elim 0 QEntry.sub = e.sub ∧ e.sub < passes code e.now)
    (hr : ∀ x ∈ readRanges e.op (fmtNow code e.now),
      mayReadRange (getCore s (cid id)) x.1 x.2 = true ∧ rangeReady (getCore s (cid id)) x.1 x.2 = true) :
    execLatchBegin id s = latchDo (cid id) r e ea sa code n kv st ss s := by
  have hmay : (readRanges e.op (fmtNow code e.now)).any (fun x => !mayReadRange (getCore s (cid id)) x.1 x.2) = false := by
    rw [List.any_eq_false]; exact fun x hx => by rw [(hr x hx).1]; decide
  have hready : (readRanges e.op (fmtNow code e.now)).any (fun x => !rangeReady (getCore s (cid id)) x.1 x.2) = false := by
    rw [List.any_eq_false]; exact fun x hx => by rw [(hr x hx).2]; decide
  rw [execLatchBegin, arrayStep_front h]
  rw [hop] at hmay hready ⊢
  simp only [hmay, hready, pairStream_cons h.queue]
  by_cases hc : code = 15
  · obtain ⟨hsub, hlt⟩ := hdue hc
    cases hx : rest.head? <;> simp_all
  · simp [hc]

theorem latchDo_clean {s : State} (h : s.synd = []) (k : Nat) (r : Run) (e : QEntry) (ea sa code n kv st ss : Nat) :
    ∃ c : Core, latchDo k r e ea sa code n kv st ss s = setCore s k c ∧
      c.queue = (if code = 15 then { e with sub := e.sub + 1 } :: (getCore s k).queue.tail else (getCore s k).queue.tail) ∧
      (if fmtNow code e.now = 10 ∨ (getCore s k).recentB = true then c.bankA else c.bankB) =
        some ⟨fmtNow code e.now, n, subKv (passes code e.now) e.sub kv,
          (readVecs s k e.ctx n ea sa (fmtNow code e.now) (passes code e.now) e.sub kv st ss).2.1⟩ ∧
      (fmtNow code e.now = 10 → c.bankB = none) ∧ c.recentB = (fmtNow code e.now != 10 && !(getCore s k).recentB) := by
  obtain ⟨cols, u, hread, -⟩ := readVecs_clean h k e.ctx n ea sa (fmtNow code e.now) (passes code e.now) e.sub kv st ss
  simp only [latchDo, hread, queueHead, getCore_setCore, setCore_setCore, Bool.false_eq_true, if_false]
  refine ⟨_, rfl, ?_⟩
  generalize fmtNow code e.now = f
  by_cases hf : f = 10
  · by_cases hc : code = 15 <;> simp [hf, hc]
  · cases hb : (getCore s k).recentB <;> by_cases hc : code = 15 <;> simp [hf, hc]

/-- Settles O11: the state is that of a clean read, and the bank by the mark of the one filled last. -/
theorem latchFillsBank : Obligations.LatchFillsBank := by
  unfold Obligations.LatchFillsBank
  intro s id e rest r ea sa code n kv st ss h hop hclean k c f hdue hr
  obtain ⟨x, hx, hqueue, hbank, hpair, hrecent⟩ := latchDo_clean hclean k r e ea sa code n kv st ss
  obtain ⟨cols, u, hread, hlen⟩ := readVecs_clean hclean k e.ctx n ea sa f (passes code e.now) e.sub kv st ss
  have hdue' : code = 15 → rest.head?.elim 0 QEntry.sub = e.sub ∧ e.sub < passes code e.now := by
    intro hc
    obtain ⟨hsub, hlt⟩ := hdue hc
    exact ⟨by cases rest with | nil => exact hsub.symm | cons x _ => exact hsub, hlt⟩
  have hcore : ∀ l, getCore { setCore s k x with pending := l } k = x := fun _ => getCore_setCore s k x
  refine ⟨_, ⟨f, n, subKv (passes code e.now) e.sub kv, (readVecs s k e.ctx n ea sa f (passes code e.now) e.sub kv st ss).2.1⟩,
    congrArg (answer s) ((latchBegin_due h hop hdue' hr).trans hx), rfl, ?_, rfl, rfl, rfl, rfl, ?_, ?_, ?_, ?_⟩
  · rw [hcore]; exact hbank
  · change (readVecs s k e.ctx n ea sa f (passes code e.now) e.sub kv st ss).2.1.length = n
    rw [hread]; exact hlen
  · rw [hcore]; exact hpair
  · rw [hcore]; exact hrecent
  · rw [hcore, hqueue, h.queue, List.tail_cons]

end Sys2Proof.Proofs
end
section
/-! What reads and writes of memory through its check leave alone (R364, R378). -/
namespace Sys2Proof.Proofs
open Sys2Proof.Machine Sys2Proof.Safety Sys2Proof.Laws

/-- A part of the state that shows nothing of what a read or a write of memory can change: bytes and syndromes, the counts and logs
of errors with their events, and the field-repair log. -/
structure BesideMemory {β : Type} (g : State → β) : Prop where
  regs : ∀ s r, g { s with regs := r } = g s
  mem : ∀ s m, g { s with mem := m } = g s
  synd : ∀ s x, g { s with synd := x } = g s
  msgs : ∀ s m f, g { s with msgs := m, funcs := f } = g s
  logs : ∀ s n, g { s with logN := n } = g s
  repairs : ∀ s r, g { s with repairs := r } = g s
  corr : ∀ s c, g { s with corr := c } = g s

namespace BesideMemory

theorem cores : BesideMemory State.cores := by constructor <;> intros <;> rfl

variable {β : Type} {g : State → β} (hg : BesideMemory g)
include hg

theorem wr (s : State) (p : Page) (o v : Nat) : g (wr s p o v) = g s := hg.regs ..
theorem bump (s : State) (p : Page) (o n : Nat) : g (bump s p o n) = g s := hg.regs ..
theorem wrByte (s : State) (a : Nat) (b : Byte) : g (wrByte s a b) = g s := hg.mem ..
theorem setSynd (s : State) (w : Nat) (x : Byte) : g (setSynd s w x) = g s := hg.synd ..

theorem raise (s : State) (p : Page) (b : Nat) : g (raise s p b) = g s := by
  obtain ⟨ms, fs, e⟩ := raise_eq s p b
  rw [e, hg.msgs, hg.wr]

theorem logEntry (s : State) (p : Page) (source syn word : Nat) (ue scrub : Bool) :
    g (logEntry s p source syn word ue scrub) = g s := by
  unfold Machine.logEntry
  dsimp only
  split
  · rfl
  · rw [hg.logs, hg.wr, hg.wr]

theorem countErr (s : State) (p : Page) (source syn word : Nat) (ue scrub : Bool) :
    g (countErr s p source syn word ue scrub) = g s := (hg.logEntry ..).trans (hg.bump ..)

theorem addRepair (s : State) (kind die site mac index hword : Nat) : g (addRepair s kind die site mac index hword) = g s := by
  unfold Machine.addRepair
  split
  · rfl
  · split
    · exact hg.raise ..
    · exact hg.repairs ..

theorem noteCorrection (s : State) (w syn n : Nat) (scrub : Bool) : g (noteCorrection s w syn n scrub) = g s := by
  simp only [Machine.noteCorrection, apply_ite g, hg.addRepair, hg.corr, ite_self]

theorem flipBit (s : State) (w n : Nat) : g (flipBit s w n) = g s := by
  simp only [Machine.flipBit, apply_ite g, hg.wrByte, ite_self]

theorem readBad (scrub : Bool) (e : Nat × Byte) (r : State × Bool) : g (readBad scrub e r).1 = g r.1 := by
  unfold Machine.readBad
  dsimp only
  split
  · rfl
  · split
    · rw [hg.noteCorrection, hg.setSynd, hg.flipBit, hg.countErr]
    · exact hg.countErr ..

theorem checkRead (s : State) (a n : Nat) : g (checkRead s a n).1 = g s :=
  fold_keeps (P := fun r : State × Bool => g r.1 = g s) _ (fun r e h => (hg.readBad false e r).trans h) _ _ rfl

theorem writeBad (a n : Nat) (e : Nat × Byte) (s : State) : g (writeBad a n e s) = g s := by
  simp only [Machine.writeBad, apply_ite g, hg.setSynd, hg.readBad, ite_self]

theorem logRow (s : State) (w : Nat) : g (logRow s w) = g s := by
  simp only [Machine.logRow, apply_ite g, hg.addRepair, ite_self]

theorem refail (a n : Nat) (s : State) : g (refail a n s) = g s :=
  each_keep g _ (fun e t => by simp only [apply_ite g, hg.logRow, hg.setSynd, ite_self]) _ _

theorem memWrite (bs : List Byte) (s : State) (a : Nat) : g (memWrite s a bs) = g s := by
  induction bs generalizing s a with
  | nil => rfl
  | cons b bs ih => exact (ih ..).trans (hg.wrByte ..)

theorem store (s : State) (a : Nat) (bs : List Byte) : g (store s a bs) = g s :=
  (hg.refail ..).trans ((hg.memWrite ..).trans (each_keep g _ (fun e t => hg.writeBad _ _ e t) _ _))

theorem storePoisoned (s : State) (a : Nat) (bs : List Byte) (bad : List Nat) : g (storePoisoned s a bs bad) = g s :=
  (each_keep g _ (fun _ t => hg.setSynd t _ _) _ _).trans (hg.store ..)

theorem storePieces (k : Nat) (ps : List (Nat × Nat)) (bs : List Byte) (s : State) : g (storePieces k ps bs s) = g s := by
  induction ps generalizing bs s with
  | nil => rfl
  | cons p ps ih => exact (ih ..).trans (hg.store ..)

theorem coreStore (s : State) (k : Nat) (ctx : Option Nat) (a : Nat) (bs : List Byte) : g (coreStore s k ctx a bs) = g s :=
  hg.storePieces ..

theorem coreCheck (s : State) (k : Nat) (ctx : Option Nat) (a n : Nat) : g (coreCheck s k ctx a n).1 = g s :=
  List.foldlRecOn (motive := fun r : State × Bool => g r.1 = g s) _ _ rfl fun _ h _ _ => (hg.checkRead ..).trans h

theorem copyStored (s : State) (src dst n : Nat) : g (copyStored s src dst n) = g s :=
  (hg.storePoisoned ..).trans (hg.checkRead ..)

end BesideMemory

end Sys2Proof.Proofs
end

section
/-! Proofs about the vector instructions: lanes, the tree of VRED, and the writes of VCVT (R31 to R37, R87, R89). -/
namespace Sys2Proof.Proofs
open Sys2Proof.Machine Sys2Proof.Safety Sys2Proof.Laws

/-! ## Lanes (R87) -/

theorem maskLanes_le (c : Core) (m : Nat) : maskLanes c m ≤ 64 := by
  unfold maskLanes
  split
  · exact Nat.le_refl _
  · exact Nat.min_le_right ..

theorem getD_mergeLanes {n : Nat} {new : List W32} (h : n ≤ new.length) (old : List W32) (j : Nat) :
    (mergeLanes n new old).getD j 0 = if j < n then new.getD j 0 else old.getD j 0 := by
  have hlen : (new.take n).length = n := by rw [List.length_take]; omega
  rw [mergeLanes]
  split
  next hj => rw [List.getD_append _ _ _ _ (by omega), List.getD_eq_getElem?_getD, List.getElem?_take_of_lt hj, List.getD_eq_getElem?_getD]
  next hj =>
    rw [List.getD_append_right _ _ _ _ (by omega), hlen, List.getD_eq_getElem?_getD, List.getElem?_drop, Nat.add_sub_cancel' (by omega),
      List.getD_eq_getElem?_getD]

/-- A lane-wise instruction goes on with the enabled lanes of its result. -/
theorem lanewise_gives {s : State} {id : CoreId} {r : Run} {w op : Nat} (h : Ready s id r w) (hop : opcodeOf w = op)
    (g : Nat → W32 → W32 → W32 → W32) :
    ∃ v, issue s id op (lanewise g) = goesOn s id (setVec (getCore s (cid id)) (fld w 51 5) v) ∧
      ∀ j < 64, v.getD j 0 = if j < maskLanes (getCore s (cid id)) (fld w 30 4) then
        g (fld w 34 2) ((vecVal (getCore s (cid id)) (fld w 46 5)).getD j 0) ((vecSrc (getCore s (cid id)) (fld w 41 5)).getD j 0)
          ((vecSrc (getCore s (cid id)) (fld w 36 5)).getD j 0)
        else (vecVal (getCore s (cid id)) (fld w 51 5)).getD j 0 := by
  refine ⟨_, by simp only [issue_ready h hop, lanewise, settle_next, getCore_setCore, setCore_setCore, goesOn]; rfl, fun j hj => ?_⟩
  rw [getD_mergeLanes (by simpa using maskLanes_le _ _)]
  simp [List.getD_eq_getElem?_getD, hj]

/-! ## The tree of VRED in INT32 -/

/-- The sum of the lanes that have a value. -/
def laneSum (l : List (Option W32)) : W32 := (l.map (·.getD 0)).sum

theorem laneSum_redLevel (l : List (Option W32)) : laneSum (redLevel (· + ·) l) = laneSum l := by
  fun_induction redLevel (· + ·) l
  case case1 a b t ih => simp only [laneSum, List.map_cons, List.sum_cons, Option.getD_some] at ih ⊢; rw [ih, BitVec.add_assoc]
  case case2 a t ih => simp only [laneSum, List.map_cons, List.sum_cons, Option.getD_none] at ih ⊢; rw [ih, zero_add]
  case case3 b t ih => simp only [laneSum, List.map_cons, List.sum_cons, Option.getD_none] at ih ⊢; rw [ih, zero_add]
  case case4 => rfl

theorem length_redLevel (g : W32 → W32 → W32) (l : List (Option W32)) : (redLevel g l).length = (l.length + 1) / 2 := by
  fun_induction redLevel g l
  case case1 a b t ih | case2 a t ih | case3 b t ih => simp only [List.length_cons, ih]; omega
  case case4 l h1 h2 h3 =>
    match l with
    | [] => rfl
    | [_] => simp
    | some a :: some b :: t => exact absurd rfl (h1 a b t)
    | some a :: none :: t => exact absurd rfl (h2 a t)
    | none :: b :: t => exact absurd rfl (h3 b t)

/-- Each level halves the lanes. -/
theorem length_iter_redLevel (g : W32 → W32 → W32) (m c : Nat) (l : List (Option W32)) (h : l.length ≤ 2 ^ m * c) :
    (iter m (fun _ l => redLevel g l) l).length ≤ c := by
  induction m generalizing c with
  | zero => simpa [iter] using h
  | succ m ih =>
    have hm := ih (2 * c) (by rw [← Nat.mul_assoc, ← Nat.pow_succ]; exact h)
    simp only [iter, List.range_succ, List.foldl_append, List.foldl_cons, List.foldl_nil, length_redLevel] at hm ⊢
    omega

theorem redTree_sum {l : List (Option W32)} (h : l.length ≤ 64) : (redTree (· + ·) l).getD 0 = laneSum l := by
  have hlen := length_iter_redLevel (· + ·) 6 1 l h
  have hsum : laneSum (iter 6 (fun _ l => redLevel (· + ·) l) l) = laneSum l := iter_keep laneSum _ (fun _ l => laneSum_redLevel l) 6 l
  rw [redTree, ← hsum]
  match hi : iter 6 (fun _ l => redLevel (· + ·) l) l with
  | [] => rfl
  | [o] => simp [laneSum]
  | _ :: _ :: _ => rw [hi] at hlen; simp at hlen

theorem enabledLanes_eq {n : Nat} {v : List W32} (hn : n ≤ 64) (hv : v.length = 64) :
    ((List.range 64).map (fun i => if i < n then some (v.getD i 0) else none)).map (·.getD 0) = v.take n ++ List.replicate (64 - n) 0 := by
  refine List.ext_getElem (by simp; omega) fun i h1 h2 => ?_
  have hi : i < 64 := by simpa using h1
  by_cases h : i < n
  · simp [h, hv, hi]
  · simp [h, List.getElem_append, hv, hn]

/-- VRED in INT32 is the sum of the enabled lanes, modulo 2^32. -/
theorem vred_sum {n : Nat} {v : List W32} (hn : n ≤ 64) (hv : v.length = 64) : vred 3 0 n v = (v.take n).foldl (· + ·) 0 := by
  have hg : redStep 3 0 = (· + ·) := rfl
  have hs := redTree_sum (l := (List.range 64).map (fun i => if i < n then some (v.getD i 0) else none)) (by simp)
  rw [laneSum, enabledLanes_eq hn hv, List.sum_append, List.sum_replicate, smul_zero, add_zero, List.sum_eq_foldl] at hs
  rw [← hs]
  simp only [vred, hg, if_true, show ¬ (0 = 3) by decide, if_false]
  cases redTree (· + ·) _ <;> rfl

end Sys2Proof.Proofs
end
section
/-! Proofs about VCVT: what its stores leave of a core and of memory (R31 to R37, R89, R173). -/
namespace Sys2Proof.Proofs
open Sys2Proof.Machine Sys2Proof.Safety Sys2Proof.Laws

/-! ## What a program's store leaves of its core -/

/-- Of core k nothing has changed but its shadow regions and the highest ring bytes of its attempts. -/
def KeepsProgram (k : Nat) (s t : State) : Prop :=
  getCore t k = { getCore s k with shadows := (getCore t k).shadows, highs := (getCore t k).highs }

namespace KeepsProgram
variable {k : Nat} {s t u : State}

theorem of_cores (h : t.cores = s.cores) : KeepsProgram k s t := by
  have e : getCore t k = getCore s k := by rw [getCore, h, ← getCore]
  rw [KeepsProgram, e]

theorem refl (k : Nat) (s : State) : KeepsProgram k s s := of_cores rfl

theorem trans (h : KeepsProgram k s t) (g : KeepsProgram k t u) : KeepsProgram k s u := by
  rw [KeepsProgram] at h g ⊢
  rw [g, h]

theorem vectors (h : KeepsProgram k s t) : (getCore t k).v = (getCore s k).v := by
  rw [KeepsProgram] at h
  rw [h]

theorem shadows (s : State) (k : Nat) (x : Tab Shadow) : KeepsProgram k s (setCore s k { getCore s k with shadows := x }) := by
  rw [KeepsProgram, getCore_setCore]

theorem highs (s : State) (k : Nat) (x : Tab Nat) : KeepsProgram k s (setCore s k { getCore s k with highs := x }) := by
  rw [KeepsProgram, getCore_setCore]

theorem openSlab (s : State) (k ctx i j : Nat) : KeepsProgram k s (openSlab k ctx i j s) := by
  have hcopy : ∀ a b, KeepsProgram k s (copyStored s a b 1024) := fun a b => of_cores (BesideMemory.cores.copyStored ..)
  unfold Machine.openSlab
  extract_lets c r lo hi s1
  split
  · exact refl ..
  · have h1 : KeepsProgram k s s1 := by
      unfold s1
      split
      · exact hcopy ..
      · exact hcopy ..
    exact h1.trans (shadows ..)

theorem openSlabs (s : State) (k : Nat) (r : Run) (a n : Nat) : KeepsProgram k s (openSlabs k r a n s) := by
  unfold Machine.openSlabs
  split
  · refine fold_keeps (P := KeepsProgram k s) _ (fun t i h => h.trans ?_) _ _ (refl ..)
    dsimp only
    split
    · exact openSlab ..
    · exact refl ..
  · exact refl ..

theorem progStore (s : State) (k : Nat) (r : Run) (a : Nat) (bs : List Byte) : KeepsProgram k s (progStore s k r a bs) := by
  have h : KeepsProgram k s (coreStore (Machine.openSlabs k r a bs.length s) k (some r.ctx) a bs) :=
    (openSlabs ..).trans (of_cores (BesideMemory.cores.coreStore ..))
  unfold Machine.progStore
  dsimp only
  split
  · exact h.trans (highs ..)
  · exact h

theorem each_progStore (k : Nat) (r : Run) (ws : List (Nat × List Byte)) (s : State) :
    KeepsProgram k s (each ws (fun x s => Machine.progStore s k r x.1 x.2) s) :=
  fold_keeps (P := KeepsProgram k s) _ (fun _ _ h => h.trans (progStore ..)) _ _ (refl ..)

theorem markByte (s : State) (k : Nat) (r : Run) (a : Nat) (x : Byte) : KeepsProgram k s (markByte s k r a x) :=
  of_cores (each_keep State.cores (fun (p : Nat × Nat) s => setSynd s (coreAddr k p.1 / 8) x) (fun _ _ => rfl) _ _)

theorem halfRead (s : State) (k : Nat) (r : Run) (f n a : Nat) : KeepsProgram k s (halfRead s k r f n a).1 := by
  have h : KeepsProgram k s (coreCheck (Machine.openSlabs k r a 1 s) k (some r.ctx) a 1).1 :=
    (openSlabs ..).trans (of_cores (BesideMemory.cores.coreCheck ..))
  unfold Machine.halfRead
  dsimp only
  split
  · split
    · exact h.trans (markByte ..)
    · exact h
  · exact refl ..

end KeepsProgram

/-! ## Stores where no word has an error -/

/-- No word of memory shows an error, and none fails for good. -/
def Sound (s : State) : Prop := s.synd = [] ∧ s.hard = []

theorem memWrite_eq (bs : List Byte) (s : State) (a : Nat) : memWrite s a bs = { s with mem := (memWrite s a bs).mem } := by
  induction bs generalizing s a with
  | nil => rfl
  | cons b bs ih => rw [memWrite, ih]; rfl

theorem memWrite_append (xs ys : List Byte) (s : State) (a : Nat) :
    memWrite s a (xs ++ ys) = memWrite (memWrite s a xs) (a + xs.length) ys := by
  induction xs generalizing s a with
  | nil => rfl
  | cons x xs ih => rw [List.cons_append, memWrite, ih, memWrite, List.length_cons, Nat.add_assoc, Nat.add_comm 1]

theorem store_sound {s : State} (h : Sound s) (a : Nat) (bs : List Byte) : store s a bs = memWrite s a bs :=
  store_clean s a bs (badWords_nil _ _ _ h.1) (hardWords_nil _ _ _ h.2)

theorem sound_memWrite {s : State} (h : Sound s) (a : Nat) (bs : List Byte) : Sound (memWrite s a bs) := by
  rw [memWrite_eq]; exact h

theorem storePieces_eq {k : Nat} (ps : List (Nat × Nat)) {s : State} (h : Sound s) (bs : List Byte) :
    storePieces k ps bs s = { s with mem := (storePieces k ps bs s).mem } := by
  induction ps generalizing s bs with
  | nil => rfl
  | cons p ps ih => rw [storePieces, store_sound h, ih (sound_memWrite h ..), memWrite_eq]

/-- Outside its pieces a store leaves every byte. -/
theorem rdByte_storePieces_out {k x : Nat} {ps : List (Nat × Nat)} (hx : ∀ p ∈ ps, x < coreAddr k p.1 ∨ coreAddr k p.1 + p.2 ≤ x)
    {s : State} (h : Sound s) (bs : List Byte) : rdByte (storePieces k ps bs s) x = rdByte s x := by
  induction ps generalizing s bs with
  | nil => rfl
  | cons p ps ih =>
    have hp := hx p (List.mem_cons_self ..)
    rw [storePieces, store_sound h, ih (fun q hq => hx q (List.mem_cons_of_mem _ hq)) (sound_memWrite h ..)]
    exact rdByte_memWrite_out _ _ _ _ (by rw [List.length_take]; omega)

theorem coreAddr_add (k a i : Nat) : coreAddr k (a + i) = coreAddr k a + i := by simp only [coreAddr]; omega

/-- A core without a shadow region stores a range where it stands. -/
theorem storePieces_unshadowed {c : Core} (hc : c.shadows = []) (ctx : Option Nat) (k fuel : Nat) {s : State} (h : Sound s) (a : Nat)
    (bs : List Byte) (hf : bs.length ≤ 1024 * fuel - a % 1024) :
    storePieces k (pieces c ctx fuel a bs.length) bs s = memWrite s (coreAddr k a) bs := by
  have hplace : ∀ a, place c ctx a = a := fun a => by simp [place, shadowOf, hc]
  induction fuel generalizing s a bs with
  | zero =>
    obtain rfl : bs = [] := List.length_eq_zero_iff.mp (by omega)
    rfl
  | succ fuel ih =>
    rw [pieces]
    split
    next h0 =>
      obtain rfl := List.length_eq_zero_iff.mp h0
      rfl
    next h0 =>
      extract_lets m
      have hm : m ≤ bs.length := Nat.min_le_left ..
      have hdrop : bs.length - m = (bs.drop m).length := by rw [List.length_drop]
      have htake : (bs.take m).length = m := by rw [List.length_take]; omega
      have hrest : (bs.drop m).length ≤ 1024 * fuel - (a + m) % 1024 := by
        rw [← hdrop]
        rcases Nat.le_total bs.length (1024 - a % 1024) with hle | hle
        · have hme : m = bs.length := Nat.min_eq_left hle
          omega
        · have hme : m = 1024 - a % 1024 := Nat.min_eq_right hle
          omega
      rw [storePieces, hplace, store_sound h, hdrop, ih (sound_memWrite h ..) _ _ hrest, coreAddr_add]
      conv_rhs => rw [← List.take_append_drop m bs, memWrite_append, htake]

theorem stored_congr {c e : Core} (h : e.shadows = c.shadows) (ctx : Option Nat) (a n : Nat) : stored e ctx a n = stored c ctx a n := by
  have hplace : place e ctx = place c ctx := by funext a; simp only [place, shadowOf, h]
  have hpieces : ∀ fuel a n, pieces e ctx fuel a n = pieces c ctx fuel a n := by
    intro fuel
    induction fuel with
    | zero => intros; rfl
    | succ fuel ih => intro a n; simp only [pieces, hplace, ih]
  exact hpieces ..

/-! ## Stores of an attempt that is not speculative -/

section
variable {k : Nat} {r : Run} (hr : r.speculative = false)
include hr

/-- What a store of an attempt that is not speculative changes: memory, as stored, and the highest ring bytes. -/
theorem progStore_direct {s : State} (h : Sound s) (a : Nat) (bs : List Byte) : ∃ cs,
    progStore s k r a bs = { s with mem := (coreStore s k (some r.ctx) a bs).mem, cores := cs } ∧
    (getCore (progStore s k r a bs) k).shadows = (getCore s k).shadows := by
  have hopen : openSlabs k r a bs.length s = s := by simp [openSlabs, hr]
  have hstore : coreStore s k (some r.ctx) a bs = { s with mem := (coreStore s k (some r.ctx) a bs).mem } := storePieces_eq _ h _
  unfold progStore
  rw [hopen]
  dsimp only
  split
  · exact ⟨_, by rw [hstore]; rfl, by rw [hstore, getCore_setCore]; rfl⟩
  · exact ⟨s.cores, hstore, by rw [hstore]; rfl⟩

theorem sound_progStore {s : State} (h : Sound s) (a : Nat) (bs : List Byte) : Sound (progStore s k r a bs) := by
  obtain ⟨cs, e, -⟩ := progStore_direct (k := k) hr h a bs
  rw [e]; exact h

theorem rdByte_progStore {s : State} (h : Sound s) (a : Nat) (bs : List Byte) (x : Nat) :
    rdByte (progStore s k r a bs) x = rdByte (coreStore s k (some r.ctx) a bs) x := by
  obtain ⟨cs, e, -⟩ := progStore_direct (k := k) hr h a bs
  rw [e]; rfl

theorem shadows_progStore {s : State} (h : Sound s) (a : Nat) (bs : List Byte) :
    (getCore (progStore s k r a bs) k).shadows = (getCore s k).shadows :=
  (progStore_direct hr h a bs).choose_spec.2

theorem regs_each_progStore (ws : List (Nat × List Byte)) {s : State} (h : Sound s) :
    (each ws (fun x s => progStore s k r x.1 x.2) s).regs = s.regs := by
  induction ws generalizing s with
  | nil => rfl
  | cons y ws ih =>
    obtain ⟨cs, e, -⟩ := progStore_direct (k := k) hr h y.1 y.2
    refine (ih (sound_progStore hr h ..)).trans ?_
    rw [e]

/-- A list of stores leaves every byte outside their pieces. -/
theorem rdByte_each_out {x : Nat} (ws : List (Nat × List Byte)) {s : State} (h : Sound s)
    (hx : ∀ y ∈ ws, ∀ p ∈ stored (getCore s k) (some r.ctx) y.1 y.2.length, x < coreAddr k p.1 ∨ coreAddr k p.1 + p.2 ≤ x) :
    rdByte (each ws (fun x s => progStore s k r x.1 x.2) s) x = rdByte s x := by
  induction ws generalizing s with
  | nil => rfl
  | cons y ws ih =>
    refine (ih (sound_progStore hr h ..) fun z hz => ?_).trans ?_
    · rw [stored_congr (shadows_progStore hr h ..)]
      exact hx z (List.mem_cons_of_mem _ hz)
    · rw [rdByte_progStore hr h]
      exact rdByte_storePieces_out (hx y (List.mem_cons_self ..)) h _

/-- Two writes that share no byte. -/
def Apart (x y : Nat × List Byte) : Prop := x.1 + x.2.length ≤ y.1 ∨ y.1 + y.2.length ≤ x.1

omit hr in
theorem coreStore_unshadowed {s : State} (h : Sound s) (hc : (getCore s k).shadows = []) (ctx : Option Nat) (a : Nat) (bs : List Byte) :
    coreStore s k ctx a bs = memWrite s (coreAddr k a) bs :=
  storePieces_unshadowed hc ctx k _ h a bs (by omega)

/-- On a core without a shadow region stores leave every byte outside their ranges. -/
theorem rdByte_each_out_unshadowed {x : Nat} (ws : List (Nat × List Byte)) {s : State} (h : Sound s) (hc : (getCore s k).shadows = [])
    (hx : ∀ y ∈ ws, x < coreAddr k y.1 ∨ coreAddr k y.1 + y.2.length ≤ x) :
    rdByte (each ws (fun x s => progStore s k r x.1 x.2) s) x = rdByte s x := by
  induction ws generalizing s with
  | nil => rfl
  | cons y ws ih =>
    refine (ih (sound_progStore hr h ..) ((shadows_progStore hr h ..).trans hc) fun z hz => hx z (List.mem_cons_of_mem _ hz)).trans ?_
    rw [rdByte_progStore hr h, coreStore_unshadowed h hc]
    exact rdByte_memWrite_out _ _ _ _ (hx y (List.mem_cons_self ..))

/-- Of stores that share no byte, on a core without a shadow region, each leaves its bytes. -/
theorem rdByte_each_in (ws : List (Nat × List Byte)) (hap : ws.Pairwise Apart) {s : State} (h : Sound s) (hc : (getCore s k).shadows = []) :
    ∀ y ∈ ws, ∀ i < y.2.length, rdByte (each ws (fun x s => progStore s k r x.1 x.2) s) (coreAddr k (y.1 + i)) = y.2.getD i 0 := by
  induction ws generalizing s with
  | nil => intro y hy; cases hy
  | cons z ws ih =>
    have hs := sound_progStore (k := k) hr h z.1 z.2
    have hc' := (shadows_progStore hr h z.1 z.2).trans hc
    obtain ⟨hz, hap⟩ := List.pairwise_cons.mp hap
    intro y hy i hi
    rcases List.mem_cons.mp hy with rfl | hy
    · refine (rdByte_each_out_unshadowed hr ws hs hc' fun z' hz' => ?_).trans ?_
      · have hapart : y.1 + y.2.length ≤ z'.1 ∨ z'.1 + z'.2.length ≤ y.1 := hz z' hz'
        simp only [coreAddr]
        omega
      · rw [rdByte_progStore hr h, coreStore_unshadowed h hc, coreAddr_add, rdByte_memWrite_in _ _ _ _ hi,
          List.getD_eq_getElem?_getD, List.getElem?_eq_getElem hi, Option.getD_some]
    · exact ih hap hs hc' y hy i hi

end

/-! ## The writes of a conversion (R23, R89) -/

/-- What a half vector of a blocked format writes: its codes, and its scale byte. -/
def halfWrites (f eb sb h : Nat) : Option (List Nat × Nat) → List (Nat × List Byte)
  | none => []
  | some (codes, sc) => [((eb + h * (4 * fmtBits f)) % 2 ^ 22, packBits (fmtBits f) codes), ((sb + h) % 2 ^ 22, [BitVec.ofNat 8 sc])]

theorem cvtWrites_blocked {f : Nat} (hf : fmtBlocked f = true) (n eb sb l : Nat) {o : VcvtOut} {x y : Option (List Nat × Nat)}
    (ho : o.halves = [x, y]) : cvtWrites f n eb sb l o = halfWrites f eb sb 0 x ++ halfWrites f eb sb 1 y := by
  rw [cvtWrites, if_pos hf, ho]
  rcases x with _ | ⟨c1, s1⟩ <;> rcases y with _ | ⟨c2, s2⟩ <;> rfl

/-- The codes of an unblocked format that are written. -/
def cvtCodes (n : Nat) (o : VcvtOut) : List Nat :=
  (o.halves.flatMap (fun h => match h with | some q => q.1 | none => List.replicate 32 0)).take n

theorem cvtWrites_unblocked {f n : Nat} (hf : fmtBlocked f = false) (hn : 0 < n) (eb sb l : Nat) (o : VcvtOut) :
    cvtWrites f n eb sb l o =
      [(eb, packBits (fmtBits f) (cvtCodes n o ++ if f = 7 ∧ n % 2 = 1 then [l / 16] else []))] := by
  simp only [cvtWrites, hf, Bool.false_eq_true, if_false, Nat.ne_of_gt hn, cvtCodes]
  split
  next h7 => rw [h7.1]; rfl
  next => exact (congrArg (fun l => [(eb, packBits (fmtBits f) l)]) (List.append_nil (cvtCodes n o))).symm

theorem length_packBits (b : Nat) (codes : List Nat) : (packBits b codes).length = cdiv (b * codes.length) 8 := length_toBytes ..

/-- The half byte that a write keeps changes neither place nor length. -/
theorem cvtWrites_ranges (f n eb sb l : Nat) (o : VcvtOut) :
    (cvtWrites f n eb sb l o).map (fun y => (y.1, y.2.length)) = (cvtWrites f n eb sb 0 o).map (fun y => (y.1, y.2.length)) := by
  cases hf : fmtBlocked f with
  | true => rw [cvtWrites, cvtWrites, if_pos hf, if_pos hf]
  | false =>
    rcases Nat.eq_zero_or_pos n with rfl | hn
    · simp [cvtWrites, hf]
    · rw [cvtWrites_unblocked hf hn, cvtWrites_unblocked hf hn]
      by_cases h7 : f = 7 ∧ n % 2 = 1 <;> simp [h7, length_packBits]

/-- A half vector that has an enabled lane gives a code for each of its lanes. -/
theorem length_cvtHalf {f base : Nat} {fixed : Option Nat} {rnd : Option (Nat → Nat)} {lanes : List (W32 × Bool)} {cs : List Nat} {sc : Nat}
    (h : (cvtHalf f fixed rnd base lanes).1 = some (cs, sc)) : 0 < cs.length ∧ cs.length = lanes.length := by
  unfold cvtHalf at h
  split at h
  · cases h
  next hany =>
    have hlanes : lanes ≠ [] := by rintro rfl; exact hany rfl
    cases h
    simpa using List.length_pos_iff.mpr hlanes

/-- The two half vectors of a conversion. -/
theorem vcvt_halves (f : Nat) (fixed : Option Nat) (rnd : Option (Nat → Nat)) (lanes : List (W32 × Bool)) :
    ∃ x y, (vcvt f fixed rnd lanes).halves = [x, y] ∧
      ∀ q, x = some q ∨ y = some q → 0 < q.1.length ∧ q.1.length ≤ 32 := by
  refine ⟨_, _, rfl, fun q hq => ?_⟩
  rcases hq with h | h
  · obtain ⟨h0, hl⟩ := length_cvtHalf (cs := q.1) (sc := q.2) h
    exact ⟨h0, by rw [hl]; simp⟩
  · obtain ⟨h0, hl⟩ := length_cvtHalf (cs := q.1) (sc := q.2) h
    exact ⟨h0, by rw [hl]; simp⟩

theorem fmtBits_blocked {f : Nat} (h : fmtBlocked f = true) : 0 < fmtBits f ∧ fmtBits f ≤ 8 := by
  have hf : f ≤ 9 := by
    simp only [fmtBlocked, Bool.or_eq_true, Bool.and_eq_true, decide_eq_true_eq, beq_iff_eq] at h
    omega
  interval_cases f <;> simp_all [fmtBlocked, fmtBits]

/-- A write that may go on lies in data SRAM. -/
theorem writesStop_inData {s : State} {c : Core} {r : Run} {ws : List (Nat × List Byte)} (h : writesStop s c r ws = none)
    {y : Nat × List Byte} (hy : y ∈ ws) (hlen : 0 < y.2.length) : 0x8000 ≤ y.1 ∧ y.1 + y.2.length ≤ 0x280000 := by
  have hstop : writeStop s c r y.1 y.2.length = none := List.findSome?_eq_none_iff.mp h y hy
  unfold writeStop at hstop
  rw [if_neg (by omega)] at hstop
  split at hstop
  · cases hstop
  next hmay =>
    simp only [mayWriteRange, inData, Bool.not_eq_true', Bool.not_eq_false, Bool.and_eq_true, decide_eq_true_eq] at hmay
    exact hmay.1

theorem length_packBits_half {b : Nat} {cs : List Nat} (h : cs.length ≤ 32) : (packBits b cs).length ≤ 4 * b := by
  have hhi : b * cs.length ≤ b * 32 := Nat.mul_le_mul_left _ h
  rw [length_packBits, cdiv]
  omega

section
variable {f eb sb : Nat} (hf : fmtBlocked f = true) (heb : eb < 2 ^ 22) (hsb : sb < 2 ^ 22)
include hf heb hsb

/-- The pieces of half h of a conversion that may go on have not wrapped round the end of the addresses. -/
theorem halfWrites_inData {h : Nat} (hh : h < 2) {cs : List Nat} {sc : Nat} (h0 : 0 < cs.length)
    (hin : ∀ w ∈ halfWrites f eb sb h (some (cs, sc)), 0 < w.2.length → 0x8000 ≤ w.1) :
    halfWrites f eb sb h (some (cs, sc)) =
      [(eb + h * (4 * fmtBits f), packBits (fmtBits f) cs), (sb + h, [BitVec.ofNat 8 sc])] := by
  obtain ⟨hb0, hb8⟩ := fmtBits_blocked hf
  have hlo : 0 < fmtBits f * cs.length := Nat.mul_pos hb0 h0
  have hmul : h * (4 * fmtBits f) ≤ 4 * fmtBits f := by
    have := Nat.mul_le_mul_right (4 * fmtBits f) (show h ≤ 1 by omega)
    omega
  have hcodes := hin _ (List.mem_cons_self ..) (by rw [length_packBits, cdiv]; omega)
  have hscale := hin _ (List.mem_cons_of_mem _ (List.mem_cons_self ..)) Nat.one_pos
  dsimp only at hcodes hscale
  rw [halfWrites, show (eb + h * (4 * fmtBits f)) % 2 ^ 22 = eb + h * (4 * fmtBits f) by omega,
    show (sb + h) % 2 ^ 22 = sb + h by omega]

/-- Where the pieces of half h stand. -/
theorem mem_halfWrites {h : Nat} (hh : h < 2) {z : Option (List Nat × Nat)} (hz : ∀ q, z = some q → 0 < q.1.length ∧ q.1.length ≤ 32)
    (hin : ∀ w ∈ halfWrites f eb sb h z, 0 < w.2.length → 0x8000 ≤ w.1) {w : Nat × List Byte} (hw : w ∈ halfWrites f eb sb h z) :
    (w.1 = eb + h * (4 * fmtBits f) ∧ w.2.length ≤ 4 * fmtBits f) ∨ (w.1 = sb + h ∧ w.2.length = 1) := by
  rcases z with _ | ⟨cs, sc⟩
  · cases hw
  · obtain ⟨h0, h32⟩ := hz _ rfl
    rw [halfWrites_inData hf heb hsb hh h0 hin, List.mem_pair] at hw
    rcases hw with rfl | rfl
    · exact .inl ⟨rfl, length_packBits_half h32⟩
    · exact .inr ⟨rfl, rfl⟩

variable (hdis : sb + 2 ≤ eb ∨ eb + 8 * fmtBits f ≤ sb)
include hdis

theorem halfWrites_apart {h : Nat} (hh : h < 2) {z : Option (List Nat × Nat)} (hz : ∀ q, z = some q → 0 < q.1.length ∧ q.1.length ≤ 32)
    (hin : ∀ w ∈ halfWrites f eb sb h z, 0 < w.2.length → 0x8000 ≤ w.1) : (halfWrites f eb sb h z).Pairwise Apart := by
  rcases z with _ | ⟨cs, sc⟩
  · exact .nil
  · obtain ⟨h0, h32⟩ := hz _ rfl
    have hlen : (packBits (fmtBits f) cs).length ≤ 4 * fmtBits f := length_packBits_half h32
    rw [halfWrites_inData hf heb hsb hh h0 hin, List.pairwise_pair]
    simp only [Apart, List.length_singleton]
    obtain rfl | rfl : h = 0 ∨ h = 1 := by omega
    · omega
    · omega

/-- The writes of a blocked conversion share no byte where its element bytes and its scale bytes do not. -/
theorem cvtWrites_apart {x y : Option (List Nat × Nat)} (hxy : ∀ q, x = some q ∨ y = some q → 0 < q.1.length ∧ q.1.length ≤ 32)
    (hin : ∀ w ∈ halfWrites f eb sb 0 x ++ halfWrites f eb sb 1 y, 0 < w.2.length → 0x8000 ≤ w.1) :
    (halfWrites f eb sb 0 x ++ halfWrites f eb sb 1 y).Pairwise Apart := by
  have hx := fun q hq => hxy q (.inl hq)
  have hy := fun q hq => hxy q (.inr hq)
  have hinx := fun w hw => hin w (List.mem_append_left _ hw)
  have hiny := fun w hw => hin w (List.mem_append_right _ hw)
  refine List.pairwise_append.mpr ⟨halfWrites_apart hf heb hsb hdis (by decide) hx hinx,
    halfWrites_apart hf heb hsb hdis (by decide) hy hiny, fun u hu v hv => ?_⟩
  have hu := mem_halfWrites hf heb hsb (by decide) hx hinx hu
  have hv := mem_halfWrites hf heb hsb (by decide) hy hiny hv
  unfold Apart
  omega

end

end Sys2Proof.Proofs
end
section
/-! Proofs about the vector instructions: VCVT at a core, and what they all do (R87, R89). -/
namespace Sys2Proof.Proofs
open Sys2Proof.Machine Sys2Proof.Safety Sys2Proof.Laws

/-! ## VCVT -/

/-- The conversion that a VCVT word makes. -/
def cvtOut (s : State) (k : Nat) (c : Core) (r : Run) (w : Nat) : VcvtOut :=
  vcvt (fmtNow (fld w 41 4) r.fmtNow) (if w.testBit 39 then some ((regVal c (fld w 34 5)).toNat % 256) else none)
    (if w.testBit 40 then some (srBits (srSeed s (k / 384)) r.rkey r.sample r.vidx) else none)
    (((vecVal c (fld w 51 5)).zipIdx).map (fun q => (q.1, decide (q.2 < maskLanes c (fld w 30 4)))))

/-- The attempt with the counts of a conversion. -/
def cvtRun (r : Run) (o : VcvtOut) : Run := { addCounts r o.sat o.nz o.uf with vidx := (r.vidx + 1) % 2 ^ 26 }

/-- The machine after the stores of a VCVT: the read of its last byte, the writes, and the mark of a word that stays bad. -/
def cvtStores (s : State) (k : Nat) (c : Core) (r : Run) (w : Nat) : State :=
  let f := fmtNow (fld w 41 4) r.fmtNow
  let n := maskLanes c (fld w 30 4)
  let a := (areg c (fld w 48 3) + n / 2) % 2 ^ 22
  let q := halfRead s k r f n a
  let u := each (cvtWrites f n (areg c (fld w 48 3)) (areg c (fld w 45 3)) (ofBytes (coreBytes q.1 k (some r.ctx) a 1))
    (cvtOut s k c r w)) (fun x s => progStore s k r x.1 x.2) q.1
  if q.2 then markByte u k r a 3 else u

theorem cvtStores_keeps (s : State) (k : Nat) (c : Core) (r : Run) (w : Nat) : KeepsProgram k s (cvtStores s k c r w) := by
  unfold cvtStores
  extract_lets f n a q u
  have h : KeepsProgram k s u := (KeepsProgram.halfRead ..).trans (.each_progStore ..)
  split
  · exact h.trans (.markByte ..)
  · exact h

/-- SAT trips no attempt that is not NARROW, is at its CEILING, or has met no saturation (R43). -/
theorem satTrip_no {r : Run} {o : VcvtOut} (h : r.narrow = false ∨ r.fmtNow = r.ceiling ∨ o.sat = 0) (s : State) (d : Nat) :
    (decide (0 < o.sat) && satTrip s d (cvtRun r o)) = false := by
  rcases h with h | h | h <;> simp [satTrip, cvtRun, addCounts, h]

/-- A VCVT whose writes may go on stores them, counts, and goes on. -/
theorem execVcvt_goes {s : State} {id : CoreId} {r : Run} {w : Nat} (h : Ready s id r w) (hop : opcodeOf w = 0x17)
    (hstop : writesStop s (getCore s (cid id)) r (cvtWrites (fmtNow (fld w 41 4) r.fmtNow) (maskLanes (getCore s (cid id)) (fld w 30 4))
      (areg (getCore s (cid id)) (fld w 48 3)) (areg (getCore s (cid id)) (fld w 45 3)) 0 (cvtOut s (cid id) (getCore s (cid id)) r w)) = none)
    (htrip : r.narrow = false ∨ r.fmtNow = r.ceiling ∨ (cvtOut s (cid id) (getCore s (cid id)) r w).sat = 0) :
    execVcvt id s = setCore (cvtStores s (cid id) (getCore s (cid id)) r w) (cid id)
      { getCore (cvtStores s (cid id) (getCore s (cid id)) r w) (cid id) with
        run := some (cvtRun r (cvtOut s (cid id) (getCore s (cid id)) r w)), pc := (getCore s (cid id)).pc + 1, stall := 0 } := by
  have hno := satTrip_no htrip (setRun (cvtStores s (cid id) (getCore s (cid id)) r w) (cid id)
    (cvtRun r (cvtOut s (cid id) (getCore s (cid id)) r w))) (cid id / 384)
  rw [execVcvt, issue_ready h hop]
  unfold cvtOut at hstop
  dsimp only
  rw [hstop]
  dsimp only
  refine (congrArg (fun e => settle (cid id) r (getCore s (cid id)).pc 0x17 e s) (if_neg (Bool.eq_false_iff.mp hno))).trans ?_
  rw [settle_next, setRun, getCore_setCore, setCore_setCore]
  rfl

/-! ## The memory of a VCVT that is not speculative -/

section
variable {s : State} {k : Nat} {r : Run} (hr : r.speculative = false) (hs : Sound s)
include hr hs

/-- Where no word has an error the read of a half byte changes nothing. -/
theorem halfRead_direct (f n a : Nat) : halfRead s k r f n a = (s, false) := by
  have hopen : openSlabs k r a 1 s = s := by simp [openSlabs, hr]
  simp [halfRead, hopen, coreCheck_clean hs.1]

theorem cvtStores_direct (c : Core) (w : Nat) :
    cvtStores s k c r w = each (cvtWrites (fmtNow (fld w 41 4) r.fmtNow) (maskLanes c (fld w 30 4)) (areg c (fld w 48 3)) (areg c (fld w 45 3))
      (ofBytes (coreBytes s k (some r.ctx) ((areg c (fld w 48 3) + maskLanes c (fld w 30 4) / 2) % 2 ^ 22) 1)) (cvtOut s k c r w))
      (fun x s => progStore s k r x.1 x.2) s := by
  simp only [cvtStores, halfRead_direct hr hs, Bool.false_eq_true, if_false]

/-- A conversion writes no byte beside its elements and its scales. -/
theorem rdByte_cvtWrites_out {f n eb sb l x : Nat} {o : VcvtOut}
    (hx : ∀ y ∈ cvtWrites f n eb sb 0 o, ∀ p ∈ stored (getCore s k) (some r.ctx) y.1 y.2.length,
      x < coreAddr k p.1 ∨ coreAddr k p.1 + p.2 ≤ x) :
    rdByte (each (cvtWrites f n eb sb l o) (fun x s => progStore s k r x.1 x.2) s) x = rdByte s x := by
  refine rdByte_each_out hr _ hs fun y hy => ?_
  have hmem : (y.1, y.2.length) ∈ (cvtWrites f n eb sb 0 o).map fun y => (y.1, y.2.length) := by
    rw [← cvtWrites_ranges f n eb sb l o]
    exact List.mem_map_of_mem hy
  obtain ⟨z, hz, he⟩ := List.mem_map.mp hmem
  obtain ⟨ha, hn⟩ := Prod.mk.inj he
  rw [← ha, ← hn]
  exact hx z hz

variable (hc : (getCore s k).shadows = [])
include hc

theorem rdByte_cvtWrites_unblocked {f n eb sb l : Nat} {o : VcvtOut} (hf : fmtBlocked f = false) (hn : 0 < n) :
    ∀ i < (packBits (fmtBits f) (cvtCodes n o ++ if f = 7 ∧ n % 2 = 1 then [l / 16] else [])).length,
      rdByte (each (cvtWrites f n eb sb l o) (fun x s => progStore s k r x.1 x.2) s) (coreAddr k (eb + i)) =
        (packBits (fmtBits f) (cvtCodes n o ++ if f = 7 ∧ n % 2 = 1 then [l / 16] else [])).getD i 0 := by
  rw [cvtWrites_unblocked hf hn]
  intro i hi
  exact rdByte_each_in hr _ (List.pairwise_singleton Apart _) hs hc (eb, _) (List.mem_singleton.mpr rfl) i hi

theorem rdByte_cvtWrites_blocked {f n eb sb l h sc : Nat} {cs : List Nat} {o : VcvtOut} {x y : Option (List Nat × Nat)}
    (hf : fmtBlocked f = true) (heb : eb < 2 ^ 22) (hsb : sb < 2 ^ 22) (hdis : sb + 2 ≤ eb ∨ eb + 8 * fmtBits f ≤ sb)
    (ho : o.halves = [x, y]) (hxy : ∀ q, x = some q ∨ y = some q → 0 < q.1.length ∧ q.1.length ≤ 32)
    (hin : ∀ w ∈ cvtWrites f n eb sb 0 o, 0 < w.2.length → 0x8000 ≤ w.1) (hh : o.halves[h]? = some (some (cs, sc))) :
    ∀ w ∈ halfWrites f eb sb h (some (cs, sc)), ∀ i < w.2.length,
      rdByte (each (cvtWrites f n eb sb l o) (fun x s => progStore s k r x.1 x.2) s) (coreAddr k (w.1 + i)) = w.2.getD i 0 := by
  rw [cvtWrites_blocked hf n eb sb 0 ho] at hin
  rw [cvtWrites_blocked hf n eb sb l ho]
  intro w hw
  refine rdByte_each_in hr _ (cvtWrites_apart hf heb hsb hdis hxy hin) hs hc w (List.mem_append.mpr ?_)
  rw [ho] at hh
  match h, hh with
  | 0, hh => obtain rfl : x = some (cs, sc) := by simpa using hh
             exact .inl hw
  | 1, hh => obtain rfl : y = some (cs, sc) := by simpa using hh
             exact .inr hw

end

/-! ## The vector instructions (R87, R89) -/

/-- VRED writes one scalar and goes on. -/
theorem execVred_goes {s : State} {id : CoreId} {r : Run} {w : Nat} (h : Ready s id r w) (hop : opcodeOf w = 0x16) :
    execVred id s = goesOn s id (setReg (getCore s (cid id)) (fld w 51 5)
      (vred (fld w 34 2) (fld w 28 2) (maskLanes (getCore s (cid id)) (fld w 30 4)) (vecVal (getCore s (cid id)) (fld w 46 5)))) := by
  rw [execVred, issue_ready h hop, settle_next, getCore_setCore, setCore_setCore]
  rfl

/-- A lane-wise instruction gives each enabled lane its result, and keeps every other lane. -/
theorem exec_lanewise {s : State} {id : CoreId} {r : Run} {w op : Nat} {i : Instr} {g : Nat → W32 → W32 → W32 → W32}
    (he : exec i s = answer s (issue s id op (lanewise g))) (h : Ready s id r w) (hop : opcodeOf w = op) :
    ∃ v, exec i s = .next (goesOn s id (setVec (getCore s (cid id)) (fld w 51 5) v)) ∧
      ∀ j < 64, v.getD j 0 = if j < maskLanes (getCore s (cid id)) (fld w 30 4) then
        g (fld w 34 2) ((vecVal (getCore s (cid id)) (fld w 46 5)).getD j 0) ((vecSrc (getCore s (cid id)) (fld w 41 5)).getD j 0)
          ((vecSrc (getCore s (cid id)) (fld w 36 5)).getD j 0)
        else (vecVal (getCore s (cid id)) (fld w 51 5)).getD j 0 :=
  (lanewise_gives h hop g).imp fun _ hv => ⟨he.trans (congrArg (answer s) hv.1), hv.2⟩

/-- Settles O6: the lane-wise instructions by their lanes, VRED by the sum that each level of its tree keeps, VCVT by its stores. -/
theorem vectorInstructions : Obligations.VectorInstructions := by
  unfold Obligations.VectorInstructions
  refine ⟨fun s id r w h => ?_, ⟨fun s id r w h hop => congrArg (answer s) (execVred_goes h hop), fun n v => vred_sum⟩, ?_⟩
  · exact ⟨exec_lanewise (g := fun ty a b _ => laneAdd ty a b) rfl h, exec_lanewise (g := fun ty a b _ => laneMul ty a b) rfl h,
      exec_lanewise (g := fun ty a b _ => laneMax ty a b) rfl h, exec_lanewise (g := fun ty a b d => roundType ty (f32Fma a b d)) rfl h,
      exec_lanewise (g := fun ty a _ _ => roundType ty (f32Exp2ulp a)) rfl h,
      exec_lanewise (g := fun ty a _ _ => roundType ty (f32Rsq2ulp a)) rfl h,
      exec_lanewise (g := fun ty a _ _ => roundType ty (f32Tanh2ulp a)) rfl h⟩
  · intro s id r w h hop k c f n lanes fixed rnd o eb sb ws r' hstop htrip
    have hv : (getCore (cvtStores s k c r w) k).v = c.v := (cvtStores_keeps s k c r w).vectors
    refine ⟨_, congrArg (answer s) (execVcvt_goes h hop hstop htrip), ?_, ?_, ?_, ?_⟩
    · exact congrArg Core.run (getCore_setCore ..)
    · exact congrArg Core.pc (getCore_setCore ..)
    · exact (congrArg Core.v (getCore_setCore ..)).trans hv
    · intro hr hsynd hhard b old codes bs
      have hs : Sound s := ⟨hsynd, hhard⟩
      have heb : eb < 2 ^ 22 := Nat.mod_lt _ (by decide)
      have hsb : sb < 2 ^ 22 := Nat.mod_lt _ (by decide)
      have hmem := cvtStores_direct (k := k) hr hs c w
      obtain ⟨x, y, ho, hxy⟩ := vcvt_halves f fixed rnd lanes
      refine ⟨?_, ?_, ?_, ?_⟩
      · exact (congrArg State.regs hmem).trans (regs_each_progStore hr _ hs)
      · intro a ha
        exact (congrArg (rdByte · a) hmem).trans (rdByte_cvtWrites_out hr hs ha)
      · intro hc hf hdis h cs sc hh
        have hb := rdByte_cvtWrites_blocked (n := n) (l := old) hr hs hc hf heb hsb hdis ho hxy
          (fun w hw h0 => (writesStop_inData hstop hw h0).1) hh
        exact ⟨fun i hi => (congrArg (rdByte · _) hmem).trans (hb _ (List.mem_cons_self ..) i hi),
          (congrArg (rdByte · _) hmem).trans (hb _ (List.mem_cons_of_mem _ (List.mem_cons_self ..)) 0 Nat.one_pos)⟩
      · intro hc hf hn i hi
        exact (congrArg (rdByte · _) hmem).trans (rdByte_cvtWrites_unblocked hr hs hc hf hn i hi)

end Sys2Proof.Proofs
end

section
/-! Proofs about the queue of commands: nothing that an edge, a successor entry or an account does changes it. -/
namespace Sys2Proof.Proofs
open Sys2Proof.Machine Sys2Proof.Safety Sys2Proof.Laws

/-- The commands that a machine awaits: `State.pending`, under a name that no proof below unfolds, so that the kernel compares two
states operation by operation and evaluates neither. -/
def awaits (s : State) : List Instr := s.pending

theorem awaits_congr {s t : State} (h : t.pending = s.pending) : awaits t = awaits s := h

theorem awaits_of_near {s t : State} (h : Near s t) : awaits t = awaits s := awaits_congr h.pending

theorem BesideMemory.awaits : BesideMemory awaits := by constructor <;> intros <;> rfl

/-- The commands awaited by the state of a pair, for operations that answer a value beside the state. -/
def awaitsFst {α : Type} (q : State × α) : List Instr := awaits q.1

/-- The same where the state stands second. -/
def awaitsSnd {α : Type} (q : α × State) : List Instr := awaits q.2

section
variable {α : Type} (s : State) (a : α)

@[simp] theorem awaits_fst (q : State × α) : awaits q.1 = awaitsFst q := by rw [awaitsFst]
@[simp] theorem awaits_snd (q : α × State) : awaits q.2 = awaitsSnd q := by rw [awaitsSnd]
@[simp] theorem awaitsFst_pair : awaitsFst (s, a) = awaits s := by rw [awaitsFst]
@[simp] theorem awaitsSnd_pair : awaitsSnd (a, s) = awaits s := by rw [awaitsSnd]

end

/-! ## The operations of the state -/

section
variable (s : State) (p : Page) (k o v : Nat)

@[simp] theorem awaits_wr : awaits (wr s p o v) = awaits s := awaits_of_near (near_wr ..)
@[simp] theorem awaits_bump : awaits (bump s p o v) = awaits s := awaits_of_near (near_bump ..)
@[simp] theorem awaits_wrMax : awaits (wrMax s p o v) = awaits s := awaits_of_near (near_wr ..)
@[simp] theorem awaits_wrFld (a b : Nat) : awaits (wrFld s p o a b v) = awaits s := awaits_of_near (near_wrFld ..)
@[simp] theorem awaits_last : awaits (last s p v) = awaits s := awaits_of_near (near_last ..)
@[simp] theorem awaits_setPhase : awaits (setPhase s k v) = awaits s := awaits_of_near (near_setPhase ..)
@[simp] theorem awaits_setSlot (x : SlotSt) : awaits (setSlot s k x) = awaits s := awaits_of_near (near_setSlot ..)
@[simp] theorem awaits_raise : awaits (raise s p v) = awaits s := awaits_of_near (near_raise ..)
@[simp] theorem awaits_condition : awaits (condition s p o v) = awaits s := awaits_of_near (near_condition ..)
@[simp] theorem awaits_done : awaits (done s p v) = awaits s := awaits_of_near (near_done ..)
@[simp] theorem awaits_reject : awaits (reject s p o v) = awaits s := awaits_of_near (near_reject ..)
@[simp] theorem awaits_finishLong (c : Nat) : awaits (finishLong s p o v c) = awaits s := awaits_of_near (near_finishLong ..)
@[simp] theorem awaits_haltSlot (a b d : Nat) (r : Bool) : awaits (haltSlot s k a b r d) = awaits s := awaits_of_near (near_haltSlot ..)
@[simp] theorem awaits_windowFault : awaits (windowFault s k o v) = awaits s := awaits_of_near (near_windowFault ..)
@[simp] theorem awaits_sampleFault (a b : Nat) : awaits (sampleFault s k o v a b) = awaits s := awaits_of_near (near_sampleFault ..)
@[simp] theorem awaits_setCore (x : Core) : awaits (setCore s k x) = awaits s := awaits_congr (setCore_pending ..)
@[simp] theorem awaits_setDie (x : DieSt) : awaits (setDie s k x) = awaits s := awaits_congr (setDie_pending ..)
@[simp] theorem awaits_setPort (x : PortSt) : awaits (setPort s k x) = awaits s := awaits_congr (setPort_pending ..)
@[simp] theorem awaits_setCtx (i : Nat) (x : Ctx) : awaits (setCtx s k i x) = awaits s := awaits_congr (setCtx_pending ..)
@[simp] theorem awaits_netTake : awaits (netTake s k) = awaits s := awaits_congr (netTake_pending ..)
@[simp] theorem awaits_setSynd (x : Byte) : awaits (setSynd s k x) = awaits s := BesideMemory.awaits.setSynd ..
@[simp] theorem awaits_countErr (a b : Nat) (u c : Bool) : awaits (countErr s p a b v u c) = awaits s := BesideMemory.awaits.countErr ..
@[simp] theorem awaits_noteCorrection (a b : Nat) (u : Bool) : awaits (noteCorrection s a b v u) = awaits s :=
  BesideMemory.awaits.noteCorrection ..
@[simp] theorem awaits_checkRead (a n : Nat) : awaitsFst (checkRead s a n) = awaits s := BesideMemory.awaits.checkRead ..
@[simp] theorem awaits_coreCheck (c : Option Nat) (a n : Nat) : awaitsFst (coreCheck s k c a n) = awaits s := BesideMemory.awaits.coreCheck ..
@[simp] theorem awaits_store (a : Nat) (bs : List Byte) : awaits (store s a bs) = awaits s := BesideMemory.awaits.store ..
@[simp] theorem awaits_coreStore (c : Option Nat) (a : Nat) (bs : List Byte) : awaits (coreStore s k c a bs) = awaits s :=
  BesideMemory.awaits.coreStore ..
@[simp] theorem awaits_drawNat : awaitsSnd (drawNat s) = awaits s := awaits_congr rfl
@[simp] theorem awaits_net (l : List Flight) : awaits { s with net := l } = awaits s := awaits_congr rfl
@[simp] theorem awaits_cmds (l : Tab CmdRun) : awaits { s with cmds := l } = awaits s := awaits_congr rfl
@[simp] theorem awaits_hubErr (l : Tab Byte) : awaits { s with hubErr := l } = awaits s := awaits_congr rfl

end

theorem awaits_each {α : Type} {f : α → State → State} (h : ∀ a s, awaits (f a s) = awaits s) (l : List α) (s : State) :
    awaits (each l f s) = awaits s := each_keep awaits f h l s

theorem awaits_foldl {α β : Type} {f : State × β → α → State × β} (h : ∀ q a, awaitsFst (f q a) = awaitsFst q) (l : List α)
    (q : State × β) : awaitsFst (l.foldl f q) = awaitsFst q :=
  fold_keeps (P := fun t => awaitsFst t = awaitsFst q) f (fun t a ht => (h t a).trans ht) l q rfl

section
variable {α : Type} (c : Prop) [Decidable c]

@[simp] theorem awaits_ite (s t : State) : awaits (if c then s else t) = if c then awaits s else awaits t := apply_ite ..
@[simp] theorem awaitsFst_ite (q r : State × α) : awaitsFst (if c then q else r) = if c then awaitsFst q else awaitsFst r := apply_ite ..
@[simp] theorem awaitsSnd_ite (q r : α × State) : awaitsSnd (if c then q else r) = if c then awaitsSnd q else awaitsSnd r := apply_ite ..

end

/-! ## Reads, tables and pages -/

@[simp] theorem awaits_readMarks (p : Page) (source base : Nat) (scrub : Bool) (r : Nat → Bool) (l : Tab Byte) (s : State) :
    awaitsFst (readMarks p source base scrub r l s) = awaits s := by
  refine (awaits_foldl (fun q e => ?_) l (s, [], false)).trans (awaitsFst_pair ..)
  dsimp only
  split
  · simp
  · split
    · split <;> simp
    · simp

@[simp] theorem awaits_hubRead (s : State) : awaitsFst (hubRead s) = awaits s := by simp [hubRead]

@[simp] theorem awaits_hubBad (s : State) (n : Nat) : awaitsFst (hubBad s n) = awaits s := by simp [hubBad]

@[simp] theorem awaits_ringRead (s : State) (k a n : Nat) : awaitsFst (ringRead s k a n) = awaits s := by
  unfold ringRead
  rw [awaitsFst_pair, awaits_fst, awaits_foldl (fun q p => by simp), awaitsFst_pair]

@[simp] theorem awaits_tableWrites (s : State) (k n : Nat) : awaits (tableWrites s k n) = awaits s := awaits_bump ..

@[simp] theorem awaits_setPte (s : State) (k vpn e : Nat) : awaits (setPte s k vpn e) = awaits s := by simp [setPte]

@[simp] theorem awaits_alloc (s : State) (k tier : Nat) (stack : Option Nat) (m : Nat) : awaitsSnd (alloc s k tier stack m) = awaits s := by
  simp [alloc]

@[simp] theorem awaits_stackUnits (s : State) (a n : Nat) (write : Bool) : awaits (stackUnits s a n write) = awaits s := by
  simp [stackUnits]

@[simp] theorem awaits_physRead (s : State) (a n : Nat) : awaitsFst (physRead s a n) = awaits s := by simp [physRead]

@[simp] theorem awaits_physWrite (s : State) (a : Nat) (bs : List Byte) (bad : List Nat) : awaits (physWrite s a bs bad) = awaits s :=
  (awaits_each (fun _ s => awaits_setSynd s ..) ..).trans (by simp)

@[simp] theorem awaits_pageRead (s : State) (d e : Nat) : awaitsFst (pageRead s d e) = awaits s := by
  unfold pageRead
  simp

@[simp] theorem awaits_pageStore (s : State) (cd sector : Nat) (form : Option (List Byte)) (bs : List Byte) (bad : List Nat) :
    awaits (pageStore s cd sector form bs bad) = awaits s := by
  cases form <;> simp [pageStore]

@[simp] theorem awaits_placePage (s : State) (k d e tier : Nat) (stack : Option Nat) (bs : List Byte) (bad : List Nat) :
    awaitsSnd (placePage s k d e tier stack bs bad) = awaits s := by
  unfold placePage
  extract_lets cd form n
  have hq := awaits_alloc s k tier stack n
  generalize alloc s k tier stack n = q at hq ⊢
  rcases q with ⟨_ | sec, t⟩
  · simpa using hq
  · simpa using hq

@[simp] theorem awaits_recordFault (s : State) (d : Nat) (u : UnitNo) (write : Bool) (code reason va : Nat) :
    awaits (recordFault s d u write code reason va) = awaits s := by simp [recordFault]

@[simp] theorem awaits_readEntry (k c key : Nat) (s : State) : awaits (readEntry k c key s) = awaits s := by
  unfold readEntry
  extract_lets x
  split
  · rfl
  next p count keep _ a b _ =>
    have hcount : ∀ s n copy, awaits (count s n copy) = awaits s := fun s n copy => by simp [count]
    have hkeep : ∀ e s, awaits (keep e s) = awaits s := fun e s => awaits_setSlot ..
    simp [hcount, hkeep]

@[simp] theorem awaits_evict (s : State) (l mine : List (Nat × Nat)) : awaitsFst (evict s l mine) = awaits s := by
  unfold evict
  extract_lets r
  split
  · simp [r]
  · simp

@[simp] theorem awaits_tableReads (k n : Nat) (s : State) : awaits (tableReads k n s) = awaits s := by simp [tableReads]

@[simp] theorem awaits_readTables (k c vpn : Nat) (s : State) : awaits (readTables k c vpn s) = awaits s := by simp [readTables]

@[simp] theorem awaits_walkTables (k c vpn : Nat) (s : State) : awaits (walkTables k c vpn s) = awaits s := by simp [walkTables]

@[simp] theorem awaits_touch (s : State) (k c vpn : Nat) : awaits (touch s k c vpn) = awaits s := by simp [touch]

@[simp] theorem awaits_cowStall (s : State) (k vpn writer va : Nat) : awaits (cowStall s k vpn writer va) = awaits s := by
  simp [cowStall]

@[simp] theorem awaits_partRead (s : State) (d e off n va : Nat) : awaitsFst (partRead s d e off n va) = awaits s := by
  unfold partRead
  simp

@[simp] theorem awaits_vaReadOk (s : State) (k d : Nat) (u : UnitNo) (va n : Nat) : awaitsFst (vaReadOk s k d u va n) = awaits s := by
  refine (awaits_foldl (fun q p => ?_) _ (s, [], [])).trans (awaitsFst_pair ..)
  simp

@[simp] theorem awaits_uncapture (s : State) (k vpn : Nat) : awaits (uncapture s k vpn) = awaits s := by simp [uncapture]

@[simp] theorem awaits_expand (s : State) (k d vpn : Nat) : awaitsFst (expand s k d vpn) = awaits s := by
  unfold expand
  extract_lets e own r
  have hr : awaitsSnd r = awaits s := by
    unfold r
    have hq : awaitsSnd (if (decide (pteTier e = 1) && (pgtStatic s k || (diesOf s k).any fun d => busy s (.mem d))) = true then
      alloc s k 1 (some own) 16 else alloc s k (pteTier e) none 16) = awaits s := by simp
    revert hq
    generalize (if (decide (pteTier e = 1) && (pgtStatic s k || (diesOf s k).any fun d => busy s (.mem d))) = true then
      alloc s k 1 (some own) 16 else alloc s k (pteTier e) none 16) = q
    rcases q with ⟨_ | a, t⟩
    · intro hq; simpa using hq
    · exact id
  clear_value r
  rcases r with ⟨_ | a, t⟩
  · simpa using hr
  · simpa using hr

@[simp] theorem awaits_wholeWrite (s : State) (k d vpn : Nat) (bs : List Byte) (bad : List Nat) :
    awaits (wholeWrite s k d vpn bs bad) = awaits s := by
  unfold wholeWrite
  extract_lets e form m stay q q'
  have hq : awaitsSnd q' = awaits s := by simp [q', q]
  clear_value q'
  rcases q' with ⟨_ | e', t⟩
  · simp_all
  · simp_all

@[simp] theorem awaits_partWrite (s : State) (k d vpn off : Nat) (bs : List Byte) (bad : List Nat) :
    awaits (partWrite s k d vpn off bs bad) = awaits s := by simp [partWrite]

theorem awaits_vaWriteBy {f : Nat → Nat → List Byte → List Nat → State → State} (hf : ∀ v o b l s, awaits (f v o b l s) = awaits s)
    (s : State) (k d : Nat) (u : UnitNo) (va : Nat) (bs : List Byte) (bad : List Nat) :
    awaits (vaWriteBy f s k d u va bs bad) = awaits s := by
  rw [vaWriteBy, awaits_fst, awaits_foldl (fun q p => by simp [hf]), awaitsFst_pair]

@[simp] theorem awaits_vaWriteOk (s : State) (k d : Nat) (u : UnitNo) (coding : Bool) (va : Nat) (bs : List Byte) (bad : List Nat) :
    awaits (vaWriteOk s k d u coding va bs bad) = awaits s := awaits_vaWriteBy (fun _ _ _ _ _ => by simp) ..

@[simp] theorem awaits_faultWalk (s : State) (k c reason vpn : Nat) : awaits (faultWalk s k c reason vpn) = awaits s := by
  simp [faultWalk]

@[simp] theorem awaits_judge (s : State) (k d : Nat) (u : UnitNo) (va n : Nat) (write : Bool) :
    awaitsFst (judge s k d u va n write) = awaits s := by
  unfold judge
  extract_lets a
  clear_value a
  rcases a with _ | ⟨c, r, v⟩ | ⟨v, _ | _⟩
  · simp
  · simp
  · simp
  · simp

/-! ## The commands of the page tables -/

@[simp] theorem awaits_pgtHold (s : State) (k d tag : Nat) (w : Nat × List Nat) : awaits (pgtHold s k d tag w) = awaits s := by
  simp [pgtHold]

@[simp] theorem awaits_pgtEnd (s : State) (d tag : Nat) (reason : Option Nat) : awaits (pgtEnd s d tag reason) = awaits s := by
  cases reason
  · exact awaits_done ..
  · exact awaits_reject ..

@[simp] theorem awaits_initDo (k d base pages : Nat) (s : State) : awaits (initDo k d base pages s) = awaits s := by
  simp only [initDo, awaits_wr, awaits_each (fun e s => (awaits_wr ..).trans (awaits_wr ..)), awaits_physWrite, awaits_setSlot]
  exact iter_keep awaits _ (fun j s => awaits_wr ..) ..

@[simp] theorem awaits_initRun (k d tag : Nat) (a : List Nat) (s : State) : awaits (initRun k d tag a s) = awaits s := by
  simp [initRun]

@[simp] theorem awaits_setRegion (s : State) (k r j : Nat) : awaits (setRegion s k r j) = awaits s := by simp [setRegion]

@[simp] theorem awaits_makeL1 (s : State) (k i : Nat) : awaits (makeL1 s k i) = awaits s := by
  simp [makeL1, awaits_each]

@[simp] theorem awaits_regionRun (k d tag : Nat) (a : List Nat) (s : State) : awaits (regionRun k d tag a s) = awaits s := by
  unfold regionRun
  extract_lets x r j
  split
  · simp
  · split <;> simp

@[simp] theorem awaits_walkRun (k d tag : Nat) (a : List Nat) (s : State) : awaits (walkRun k d tag a s) = awaits s := by
  simp [walkRun]

@[simp] theorem awaits_poolRun (k d tag : Nat) (a : List Nat) (s : State) : awaits (poolRun k d tag a s) = awaits s := by
  unfold poolRun
  extract_lets base n x
  generalize badExtent s k base n = e
  generalize badRemoval s k base n = r
  cases e <;> cases r <;> simp

@[simp] theorem awaits_quotaRun (k d tag : Nat) (a : List Nat) (s : State) : awaits (quotaRun k d tag a s) = awaits s := by
  simp [quotaRun]

theorem awaits_mapPages {k d a3 phys : Nat} {l : List Nat} {s t : State} (h : mapPages k d a3 phys l s = some t) : awaits t = awaits s := by
  induction l generalizing phys s with
  | nil => cases h; rfl
  | cons v vs ih =>
    unfold mapPages at h
    extract_lets e r at h
    have hr : awaitsSnd r = awaits s := by simp [r]
    clear_value r
    rcases r with ⟨_ | e', u⟩
    · cases h
    · exact (ih h).trans (by simpa using hr)

@[simp] theorem awaits_mapRun (k d tag : Nat) (a : List Nat) (s : State) : awaits (mapRun k d tag a s) = awaits s := by
  unfold mapRun
  split
  · simp
  · split
    next h => simp [awaits_mapPages h]
    · simp

@[simp] theorem awaits_attrRun (k d tag : Nat) (a : List Nat) (s : State) : awaits (attrRun k d tag a s) = awaits s := by
  unfold attrRun
  extract_lets a3 set clr pages
  split
  · simp
  · simp [awaits_each]

theorem awaits_startMove {s t : State} {k d vpn tier stack cause : Nat} (h : startMove s k d vpn tier stack cause = some t) :
    awaits t = awaits s := by
  unfold startMove at h
  extract_lets e q r at h
  have hr : awaitsSnd r = awaits s := by
    have hq := awaits_alloc q.1 k 0 (some stack) 16
    unfold r
    generalize alloc q.1 k 0 (some stack) 16 = p at hq ⊢
    rcases p with ⟨_ | a, u⟩ <;> simp_all [q]
  clear_value r
  split at h
  · cases h
  · rcases r with ⟨_ | e', u⟩
    · cases h
    · cases h
      simpa using hr

/-- Moves by any step, one page after another: `startMoves` is this of `startMove`. -/
def movesBy (f : State → Nat → Nat → Nat → Nat → Nat → Nat → Option State) (k d tier stack : Nat) : List Nat → State → Option State
  | [], s => some s
  | v :: vs, s => (f s k d v tier stack 0).bind (movesBy f k d tier stack vs)

theorem awaits_movesBy {f : State → Nat → Nat → Nat → Nat → Nat → Nat → Option State} {k d tier stack : Nat}
    (hf : ∀ s v t, f s k d v tier stack 0 = some t → awaits t = awaits s) {l : List Nat} {s t : State}
    (h : movesBy f k d tier stack l s = some t) : awaits t = awaits s := by
  induction l generalizing s with
  | nil => cases h; rfl
  | cons v vs ih =>
    obtain ⟨u, hu, h⟩ := Option.bind_eq_some_iff.mp h
    exact (ih h).trans (hf _ _ _ hu)

/-- By `awaits_movesBy`: the step is named `f` before the list is taken apart, since the kernel would evaluate `startMove`. -/
theorem awaits_startMoves {k d tier stack : Nat} {l : List Nat} {s t : State} (h : startMoves k d tier stack l s = some t) :
    awaits t = awaits s := by
  have hf : ∀ s v t, startMove s k d v tier stack 0 = some t → awaits t = awaits s := fun _ _ _ => awaits_startMove
  delta startMoves startMoves._f at h
  obtain ⟨f, he⟩ : ∃ f, f = startMove := ⟨_, rfl⟩
  rw [← he] at h hf
  refine awaits_movesBy hf (l := l) (s := s) ?_
  rw [← h]
  clear h
  induction l generalizing s with
  | nil => rfl
  | cons v vs ih =>
    rw [movesBy, funext fun u => ih (s := u)]
    cases hq : f s k d v tier stack 0 <;> simp [hq]

@[simp] theorem awaits_pgtTake (s : State) (k d : Nat) : awaitsSnd (pgtTake s k d) = awaits s := by simp [pgtTake]

@[simp] theorem awaits_pgtRelease (s : State) (k d : Nat) (reason : Option Nat) : awaits (pgtRelease s k d reason) = awaits s := by
  simp [pgtRelease]

@[simp] theorem awaits_pgtResume (s : State) (k : Nat) : awaits (pgtResume s k) = awaits s := by
  unfold pgtResume
  extract_lets d
  split
  next op a _ =>
    extract_lets pages tier stack
    generalize hr : startMoves k d tier stack pages s = r
    rcases r with _ | u
    · simp [awaits_each]
    · have hu : awaits u = awaits s := awaits_startMoves hr
      simp [awaits_each, hu]
  · rfl

@[simp] theorem awaits_unmapRun (k d tag : Nat) (a : List Nat) (s : State) : awaits (unmapRun k d tag a s) = awaits s := by
  unfold unmapRun
  extract_lets pages
  split <;> simp

@[simp] theorem awaits_migrateRun (k d tag : Nat) (a : List Nat) (s : State) : awaits (migrateRun k d tag a s) = awaits s := by
  unfold migrateRun
  extract_lets a3
  split <;> simp

@[simp] theorem awaits_pgtRun (op k d tag : Nat) (a : List Nat) (s : State) : awaits (pgtRun op k d tag a s) = awaits s := by
  unfold pgtRun
  split <;> simp

@[simp] theorem awaits_pgtRetry (s : State) (k : Nat) : awaits (pgtRetry s k) = awaits s := by
  unfold pgtRetry
  split <;> simp

/-! ## Links and tokens -/

theorem awaits_sendFlit {s t : State} {p : Nat} (h : sendFlit s p = some t) : awaits t = awaits s := by
  unfold sendFlit at h
  extract_lets x at h
  split at h
  · cases h
  · split at h
    · cases h
    · cases h
      simp

@[simp] theorem awaits_flush (n p : Nat) (s : State) : awaits (flush n p s) = awaits s := by
  induction n generalizing s with
  | zero => rfl
  | succ n ih =>
    unfold flush
    split
    · split
      next h => exact (ih _).trans (awaits_sendFlit h)
      · rfl
    · rfl

@[simp] theorem awaits_portFlush (s : State) (p : Nat) : awaits (portFlush s p) = awaits s := awaits_flush ..

@[simp] theorem awaits_portPut (s : State) (k p cls vc : Nat) (bytes : List Byte) (own : Option Flight) :
    awaits (portPut s k p cls vc bytes own) = awaits s := by simp [portPut]

@[simp] theorem awaits_routeOut (s : State) (k : Nat) (f : Flight) (from_ : Option (Nat × Nat)) :
    awaits (routeOut s k f from_) = awaits s := by simp [routeOut]

@[simp] theorem awaits_leaveAll (n : Nat) (s : State) : awaits (leaveAll n s) = awaits s := by
  induction n generalizing s with
  | zero => rfl
  | succ n ih =>
    unfold leaveAll
    split
    · simp [ih]
    · rfl

@[simp] theorem awaits_netSend (s : State) (t : Token) (o : Owner) (k : Nat) : awaits (netSend s t o k) = awaits s := by
  simp [netSend, hubLets]

@[simp] theorem awaits_toCore (s : State) (d i tag info : Nat) (payload : List Byte) :
    awaits (toCore s d i tag info payload) = awaits s := awaits_netSend ..

@[simp] theorem awaits_dropReports (s : State) (d i : Nat) : awaits (dropReports s d i) = awaits s := awaits_net ..

@[simp] theorem awaits_sendDep (s : State) (d tgt tag sample task : Nat) : awaits (sendDep s d tgt tag sample task) = awaits s := by
  simp [sendDep]

@[simp] theorem awaits_segSend (s : State) (k m : Nat) (o : Owner) (b : List Byte) : awaits (segSend s k m o b) = awaits s :=
  awaits_portPut ..

end Sys2Proof.Proofs
end

section
/-! Proofs about the queue of commands: the checkpoint's capture, collectives, edges and successor entries. -/
namespace Sys2Proof.Proofs
open Sys2Proof.Machine Sys2Proof.Safety Sys2Proof.Laws

/-! ## The checkpoint's capture of a page -/

@[simp] theorem awaits_setCkPhase (s : State) (k v : Nat) : awaits (setCkPhase s k v) = awaits s := awaits_wrFld ..

@[simp] theorem awaits_setCk (s : State) (k : Nat) (x : CkSt) : awaits (setCk s k x) = awaits s := awaits_setSlot ..

@[simp] theorem awaits_setCkSlot (s : State) (k n v : Nat) : awaits (setCkSlot s k n v) = awaits s := awaits_wrFld ..

@[simp] theorem awaits_copyForm (s : State) (k e : Nat) : awaitsFst (copyForm s k e) = awaits s := by simp [copyForm]

theorem awaits_copyPage {s : State} {k vpn : Nat} {q : State × CkPage} (h : copyPage s k vpn = some q) : awaitsFst q = awaits s := by
  unfold copyPage at h
  extract_lets e st r n at h
  obtain ⟨sec, -, rfl⟩ := Option.map_eq_some_iff.mp h
  simp only [awaitsFst_pair]
  split <;> simp [r]

@[simp] theorem awaits_clearCow (k vpn : Nat) (s : State) : awaits (clearCow k vpn s) = awaits s := by simp [clearCow]

@[simp] theorem awaits_dropCaptures (s : State) (k : Nat) : awaits (dropCaptures s k) = awaits s := awaits_setSlot ..

@[simp] theorem awaits_ckFail (s : State) (k reason : Nat) : awaits (ckFail s k reason) = awaits s := by
  simp [ckFail, awaits_each]

@[simp] theorem awaits_ckSend (s : State) (k op run chunk dest off : Nat) (bs : List Byte) :
    awaits (ckSend s k op run chunk dest off bs) = awaits s := awaits_each (fun _ _ => awaits_segSend ..) ..

@[simp] theorem awaits_toBuddy (s : State) (k chunk off : Nat) (bs : List Byte) : awaits (toBuddy s k chunk off bs) = awaits s := by
  unfold toBuddy
  split <;> simp

@[simp] theorem awaits_sendForm (s : State) (k vpn : Nat) : awaitsFst (sendForm s k vpn) = awaits s := by simp [sendForm]

@[simp] theorem awaits_sendCopy (s : State) (k i vpn : Nat) : awaitsFst (sendCopy s k i vpn) = awaits s := by simp [sendCopy]

@[simp] theorem awaits_putCap (s : State) (k vpn : Nat) (p : CkPage) : awaits (putCap s k vpn p) = awaits s := awaits_setSlot ..

@[simp] theorem awaits_capture (s : State) (k vpn : Nat) : awaits (capture s k vpn) = awaits s := by
  unfold capture
  extract_lets e x t
  have ht : awaits t = awaits s := awaits_setSlot ..
  split
  · split
    · split
      · split <;> simp [ht]
      · exact ht
    · split
      next h => simpa [ht] using awaits_copyPage h
      · simp [ht]
  · rfl

/-! ## Collectives -/

@[simp] theorem awaits_opRead (s : State) (k va : Nat) : awaitsFst (opRead s k va) = awaits s := by simp [opRead]

@[simp] theorem awaits_opWrite (s : State) (k va posts run state : Nat) (pending : Bool) :
    awaits (opWrite s k va posts run state pending) = awaits s := awaits_vaWriteOk ..

@[simp] theorem awaits_setCollRun (s : State) (k : Nat) (r : CollRun) : awaits (setCollRun s k r) = awaits s := awaits_setSlot ..

@[simp] theorem awaits_grant (k : Nat) (r : CollRun) (ring dest fuel n : Nat) (s : State) :
    awaits (grant k r ring dest fuel n s) = awaits s := by
  induction fuel generalizing n s with
  | zero => rfl
  | succ fuel ih =>
    unfold grant
    split
    · rfl
    · simp [ih]

@[simp] theorem awaits_grantAll (s : State) (k : Nat) (r : CollRun) (ring dest n : Nat) :
    awaits (grantAll s k r ring dest n) = awaits s := awaits_grant ..

@[simp] theorem awaits_collFault (s : State) (k code : Nat) : awaits (collFault s k code) = awaits s := awaits_haltSlot ..

@[simp] theorem awaits_collJudge (s : State) (k : Nat) (l : List (Nat × Nat × Bool)) : awaitsFst (collJudge s k l) = awaits s := by
  induction l generalizing s with
  | nil => simp [collJudge]
  | cons p l ih =>
    obtain ⟨va, n, w⟩ := p
    have hj := awaits_judge s k (homeDie s k) .coll va n w
    unfold collJudge
    generalize judge s k (homeDie s k) .coll va n w = q at hj ⊢
    rcases q with ⟨t, _ | _ | _⟩
    · simpa [ih] using hj
    · simpa using hj
    · simpa using hj

@[simp] theorem awaits_collRead (s : State) (k va n : Nat) : awaitsFst (collRead s k va n) = awaits s := awaits_vaReadOk ..

@[simp] theorem awaits_collWrite (s : State) (k : Nat) (r : CollRun) (va : Nat) (bs : List Byte) (bad : List Nat) :
    awaitsFst (collWrite s k r va bs bad) = awaits s := by simp [collWrite, awaits_each]

@[simp] theorem awaits_permutePlan (s : State) (k : Nat) (r : CollRun) (list moves : List Byte) :
    awaitsFst (permutePlan s k r list moves) = awaits s := by simp [permutePlan, awaits_each]

@[simp] theorem awaits_planRun (s : State) (k : Nat) (r : CollRun) : awaitsFst (planRun s k r) = awaits s := by
  unfold planRun
  extract_lets b g t p u
  have hu : awaits u = awaits s := by simp [u, t]
  split
  · have hj := awaits_collJudge s k [(opAux b, 16 * opMoves b, false), (grpList g, 4 * r.n, false)]
    generalize collJudge s k [(opAux b, 16 * opMoves b, false), (grpList g, 4 * r.n, false)] = q at hj ⊢
    rcases q with ⟨t, _ | _ | _⟩
    · simpa using hj
    · simpa using hj
    · simpa using hj
  · simpa using hu

theorem awaits_copyOne {s : State} {k : Nat} {r : CollRun} {q : State × CollRun} (h : copyOne s k r = some q) :
    awaitsFst q = awaits s := by
  unfold copyOne at h
  split at h
  · cases h
  next src dst len rest _ =>
    have hj := awaits_collJudge s k [(src, len, false), (dst, len, true)]
    generalize collJudge s k [(src, len, false), (dst, len, true)] = p at hj h
    rcases p with ⟨t, _ | _ | _⟩
    · cases h
    · cases h
    · cases h
      simpa using hj

theorem awaits_sendOne {s : State} {k : Nat} {r : CollRun} {q : State × CollRun} (h : sendOne s k r = some q) :
    awaitsFst q = awaits s := by
  unfold sendOne at h
  extract_lets key at h
  split at h
  · cases h
  next x _ =>
    extract_lets r' go at h
    have hgo : ∀ t l, go t l = some q → awaitsFst q = awaits t := by
      intro t l h
      cases h
      simp
    split at h
    · exact hgo _ _ h
    · have hj := awaits_collJudge s k [(x.src, x.len, false)]
      generalize collJudge s k [(x.src, x.len, false)] = p at hj h
      rcases p with ⟨t, _ | _ | _⟩
      · cases h
      · cases h
      · exact (hgo _ _ h).trans (by simpa using hj)

theorem awaits_unstage {s : State} {k : Nat} {r : CollRun} {q : State × CollRun} (h : unstage s k r = some q) :
    awaitsFst q = awaits s := by
  unfold unstage at h
  split at h
  · cases h
  next off len rest _ =>
    split at h
    · cases h
    · have hj := awaits_collJudge s k [(opStage r.entry + off, len, false), (opDst r.entry + off, len, true)]
      generalize collJudge s k [(opStage r.entry + off, len, false), (opDst r.entry + off, len, true)] = p at hj h
      rcases p with ⟨t, _ | _ | _⟩
      · cases h
      · cases h
      · cases h
        simpa using hj

@[simp] theorem awaits_runSteps (fuel k : Nat) (r : CollRun) (s : State) : awaitsFst (runSteps fuel k r s) = awaits s := by
  induction fuel generalizing r s with
  | zero => simp [runSteps]
  | succ fuel ih =>
    unfold runSteps
    cases hcopy : copyOne s k r with
    | some q => exact (ih ..).trans ((awaits_fst q).trans (awaits_copyOne hcopy))
    | none =>
      cases hsend : sendOne s k r with
      | some q => exact (ih ..).trans ((awaits_fst q).trans (awaits_sendOne hsend))
      | none =>
        cases hstage : unstage s k r with
        | some q => exact (ih ..).trans ((awaits_fst q).trans (awaits_unstage hstage))
        | none => exact awaitsFst_pair ..

@[simp] theorem awaits_runFaults (s : State) (k : Nat) (r : CollRun) : awaits (runFaults s k r) = awaits s := by simp [runFaults]

@[simp] theorem awaits_pumpRun (s : State) (k op : Nat) : awaits (pumpRun s k op) = awaits s := by
  unfold pumpRun
  split <;> simp

@[simp] theorem awaits_takeEarly (s : State) (k op run : Nat) : awaits (takeEarly s k op run) = awaits s := by
  refine (awaits_each (fun b s => ?_) ..).trans (awaits_setSlot ..)
  split
  · simp [versionRefused, barrierAt]
  · rfl

@[simp] theorem awaits_beginRun (s : State) (k va op : Nat) (e : List Byte) (posts : Nat) (sample : Option Nat) :
    awaits (beginRun s k va op e posts sample) = awaits s := by simp [beginRun]

@[simp] theorem awaits_postRefused (s : State) (k code : Nat) (host : Bool) : awaitsFst (postRefused s k code host) = awaits s := by
  simp [postRefused]

@[simp] theorem awaits_post (s : State) (k op : Nat) (sample : Option Nat) : awaitsFst (post s k op sample) = awaits s := by
  unfold post
  split
  · simp
  next va _ =>
    have hj := awaits_collJudge s k [(va, 64, true)]
    generalize collJudge s k [(va, 64, true)] = p at hj ⊢
    rcases p with ⟨t, _ | _ | _⟩
    · simpa using hj
    · simpa using hj
    · have ht : awaits t = awaits s := by simpa using hj
      dsimp only
      cases runOfOp (opRead t k va).1 k op <;> simp [ht]

@[simp] theorem awaits_succPost (s : State) (d op sample : Nat) : awaits (succPost s d op sample) = awaits s := by simp [succPost]

/-! ## The task engine's edges -/

@[simp] theorem awaits_addCycles (s : State) (d i : Nat) : awaits (addCycles s d i) = awaits s := by simp [addCycles]

@[simp] theorem awaits_charge (s : State) (d i : Nat) : awaits (charge s d i) = awaits s := by
  unfold charge
  extract_lets x k y
  split <;> simp

@[simp] theorem awaits_coreFaultInfo (s : State) (k code pc op : Nat) : awaits (coreFaultInfo s k code pc op) = awaits s := by
  simp [coreFaultInfo]

@[simp] theorem awaits_engineError (s : State) (d i code kind : Nat) : awaits (engineError s d i code kind) = awaits s := by
  simp [engineError]

@[simp] theorem awaits_discardAttempt (s : State) (d i : Nat) : awaits (discardAttempt s d i) = awaits s := by
  unfold discardAttempt
  extract_lets x t
  split <;> simp [t]

@[simp] theorem awaits_succDrop (s : State) (d i : Nat) : awaits (succDrop s d i) = awaits s := by simp [succDrop]

@[simp] theorem awaits_succCached (s : State) (d i : Nat) : awaitsFst (succCached s d i) = awaits s := by
  unfold succCached
  extract_lets y
  split <;> simp

@[simp] theorem awaits_succOf (s : State) (d i : Nat) : awaitsFst (succOf s d i) = awaits s := by
  unfold succOf
  extract_lets x
  split
  · simp
  · have hc := awaits_succCached s d i
    generalize succCached s d i = q at hc ⊢
    rcases q with ⟨t, _ | l⟩
    · have hj := awaits_judge t (slotOf t d) d .task x.succ (8 * x.nsucc) false
      dsimp only
      generalize judge t (slotOf t d) d .task x.succ (8 * x.nsucc) false = p at hj ⊢
      rcases p with ⟨u, _ | _ | _⟩ <;> simp_all
    · simpa using hc

@[simp] theorem awaits_strayDep (s : State) (d i : Nat) : awaits (strayDep s d i) = awaits s := awaits_engineError ..

@[simp] theorem awaits_satisfy (s : State) (d i sample : Nat) : awaits (satisfy s d i sample) = awaits s := by simp [satisfy]

@[simp] theorem awaits_depStart (s : State) (d i sample : Nat) : awaits (depStart s d i sample) = awaits s := by simp [depStart]

@[simp] theorem awaits_commitDecide (s : State) (d i : Nat) : awaits (commitDecide s d i) = awaits s := by simp [commitDecide]

@[simp] theorem awaits_depCommit (s : State) (d i sample : Nat) : awaits (depCommit s d i sample) = awaits s := by simp [depCommit]

@[simp] theorem awaits_listLost (s : State) (d i code : Nat) : awaits (listLost s d i code) = awaits s := by simp [listLost]

theorem awaits_passOn {f : Nat → State → State} (hf : ∀ e s, awaits (f e s) = awaits s) (s : State) (d i sample : Nat) :
    awaits (passOn f s d i sample) = awaits s := by
  unfold passOn
  split
  · simp
  · have hs := awaits_succOf s d i
    generalize succOf s d i = q at hs ⊢
    rcases q with ⟨t, c | l⟩
    · simpa using hs
    · simpa [awaits_each hf] using hs

@[simp] theorem awaits_depDiscard (fuel : Nat) (s : State) (d i sample : Nat) : awaits (depDiscard fuel s d i sample) = awaits s := by
  induction fuel generalizing s d i sample with
  | zero => rfl
  | succ fuel ih =>
    have hpass : ∀ s i, awaits (passOn (fun e s => if succDie s d e = d then depDiscard fuel s d (ctxOf (succTarget e)) sample
        else sendDep s d (succDie s d e) 3 sample (succTarget e)) s d i sample) = awaits s :=
      fun s i => awaits_passOn (fun e s => by simp [ih]) ..
    unfold depDiscard
    extract_lets x t y
    have ht : awaits t = awaits s := by simp [t]
    split
    · simp
    · split
      · rfl
      · split <;> simp [hpass, ht]

@[simp] theorem awaits_edge (d tag sample e : Nat) (s : State) : awaits (edge d tag sample e s) = awaits s := by simp [edge]

/-! ## A failed sample, and what a core releases -/

@[simp] theorem awaits_discardNow (s : State) (d i : Nat) : awaits (discardNow s d i) = awaits s := by
  simp [discardNow, awaits_passOn]

@[simp] theorem awaits_discardFor (d sample i : Nat) (s : State) : awaits (discardFor d sample i s) = awaits s := by simp [discardFor]

@[simp] theorem awaits_discardSample (s : State) (d sample : Nat) : awaits (discardSample s d sample) = awaits s :=
  awaits_each (fun _ _ => awaits_discardFor ..) ..

@[simp] theorem awaits_faultPeers (s : State) (d info sample : Nat) : awaits (faultPeers s d info sample) = awaits s :=
  awaits_each (fun _ _ => (awaits_bump ..).trans (awaits_netSend ..)) ..

@[simp] theorem awaits_failSample (s : State) (d sample code core : Nat) : awaits (failSample s d sample code core) = awaits s := by
  simp [failSample, awaits_each]

@[simp] theorem awaits_sendPut (s : State) (k i : Nat) (t : Token) (mark : Option Nat) : awaits (sendPut s k i t mark) = awaits s :=
  awaits_setCore ..

@[simp] theorem awaits_releaseLost (s : State) (k i : Nat) : awaits (releaseLost s k i) = awaits s := by simp [releaseLost]

@[simp] theorem awaits_snapshot (s : State) (k i a n : Nat) : awaitsFst (snapshot s k i a n) = awaits s := by simp [snapshot]

@[simp] theorem awaits_pump (fuel k : Nat) (s : State) : awaits (pump fuel k s) = awaits s := by
  induction fuel generalizing s with
  | zero => rfl
  | succ fuel ih =>
    unfold pump
    extract_lets c
    split
    · rfl
    · split <;> simp [ih]

@[simp] theorem awaits_pumpAll (s : State) (k : Nat) : awaits (pumpAll s k) = awaits s := awaits_pump ..

/-! ## Successor entries -/

@[simp] theorem awaits_setDesc (s : State) (d : Nat) (g : Bool) (i : Nat) (v : SDesc) : awaits (setDesc s d g i v) = awaits s :=
  awaits_setDie ..

@[simp] theorem awaits_armArrive (s : State) (d : Nat) (g : Bool) (i : Nat) (q : ArmReq) : awaitsFst (armArrive s d g i q) = awaits s := by
  simp [armArrive]

@[simp] theorem awaits_engFault (s : State) (d : Nat) (g : Bool) (i code sample : Nat) : awaits (engFault s d g i code sample) = awaits s := by
  simp [engFault]

@[simp] theorem awaits_succArm (s : State) (d : Nat) (g : Bool) (i cls sample : Nat) (after : Option (Nat × Nat)) :
    awaits (succArm s d g i cls sample after) = awaits s := by simp [succArm]

@[simp] theorem awaits_successor (k i cls sample : Nat) (after : Option (Nat × Nat)) (e : Nat) (s : State) :
    awaits (successor k i cls sample after e s) = awaits s := by
  unfold successor
  extract_lets d tgt
  split
  · simp
  · simp
  · simp
  · simp
  · simp
  · simp
  · rfl

end Sys2Proof.Proofs
end

section
/-! Proofs about commits and the reports of a core at its slice (R43, R44, R170, R171, R177, R266). -/
namespace Sys2Proof.Proofs
open Sys2Proof.Machine Sys2Proof.Safety Sys2Proof.Laws

/-! ## A list in the successor cache -/

section
variable {s : State} {d i : Nat} {es : List Nat} (h : CachedList s d i es)
include h

/-- An undamaged list in the successor cache is read without a change. -/
theorem succOf_cached : succOf s d i = (s, .ok es) := by
  unfold succOf
  rcases h with ⟨hn, rfl⟩ | ⟨hn, hc⟩
  · simp [hn]
  · simp [Nat.ne_of_gt hn, succCached, hc]

theorem succWaits_cached : succWaits s d i = false := by
  unfold succWaits
  rcases h with ⟨hn, -⟩ | ⟨-, hc⟩
  · simp [hn]
  · simp [hc]

theorem cachedList_congr {u : State} (hn : (getCtx u d i).nsucc = (getCtx s d i).nsucc) (hc : (getDie u d).succs = (getDie s d).succs) :
    CachedList u d i es := by rwa [CachedList, hn, hc, ← CachedList]

end

/-! ## TASK tokens at their unit -/

theorem taskAtCore_for {s : State} {n k tag : Nat} {x : Flight} (h : ForCore s n 2 k x) (ht : x.tok.tag = tag)
    (f : Nat → Token → State → State) : taskAtCore tag f n s = f k x.tok (netTake s n) := by
  simp [taskAtCore, h.next, h.kind, ht, h.site, h.epoch, Nat.not_le.mpr h.near]

theorem taskAtSlice_for {s : State} {n tag d i : Nat} {x : Flight} (h : ForSlice s n tag d i x)
    (f : Nat → Nat → Token → State → State → State) : taskAtSlice tag f n s = f d i x.tok s (netTake s n) := by
  simp [taskAtSlice, h.next, h.kind, h.tag, h.die, h.context, h.epoch, h.same, h.runs, Nat.not_lt.mpr h.slice]

/-! ## The commit at the core (R170, R266) -/

theorem getCtx_of_dies {s u : State} (h : u.dies = s.dies) (d i : Nat) : getCtx u d i = getCtx s d i := by
  rw [getCtx, getDie, h, ← getDie, ← getCtx]

theorem getDie_of_dies {s u : State} (h : u.dies = s.dies) (d : Nat) : getDie u d = getDie s d := by rw [getDie, h, ← getDie]

theorem getCore_of_cores {s u : State} (h : u.cores = s.cores) (k : Nat) : getCore u k = getCore s k := by rw [getCore, h, ← getCore]

/-- What a commit changes before its list: the core, and AMAX slots on the core's page. -/
structure AtCore (k : Nat) (s u : State) : Prop where
  awaits : awaits u = awaits s
  net : u.net = s.net
  dies : u.dies = s.dies
  slots : u.slots = s.slots
  pages : ∀ p, pageBase (corPage k) ≠ pageBase p → KeepsPage p s u

namespace AtCore
variable {k : Nat} {s t u : State}

theorem refl (k : Nat) (s : State) : AtCore k s s := ⟨rfl, rfl, rfl, rfl, fun p _ => .refl p s⟩

theorem trans (h : AtCore k s t) (g : AtCore k t u) : AtCore k s u :=
  ⟨g.awaits.trans h.awaits, g.net.trans h.net, g.dies.trans h.dies, g.slots.trans h.slots, fun p hp => (h.pages p hp).trans (g.pages p hp)⟩

theorem setCore (s : State) (k : Nat) (c : Core) : AtCore k s (setCore s k c) := 
  ⟨awaits_setCore .., setCore_net .., setCore_dies .., setCore_slots .., fun _ _ => .setCore ..⟩

theorem wr {o : Nat} (ho : o < 0x1000) (s : State) (k v : Nat) : AtCore k s (wr s (corPage k) o v) :=
  
  ⟨awaits_wr .., wr_net .., wr_dies .., wr_slots .., fun _ hp => .wr hp ho ..⟩

theorem slotOf_eq (h : AtCore k s u) (d : Nat) : slotOf u d = slotOf s d := by
  have hr : rd u (.tmt 8) tmt_LAYOUT = rd s (.tmt 8) tmt_LAYOUT :=
    (h.pages (.tmt 8) (by simp only [corPage, pageBase, dieBase]; omega)).reads _ (by decide)
  rw [slotOf, diesPer, layoutN, hr, ← layoutN, ← diesPer, ← slotOf]

end AtCore

theorem AtCore.each {α : Type} {k : Nat} {f : α → State → State} (hf : ∀ a s, AtCore k s (f a s)) (l : List α) (s : State) :
    AtCore k s (each l f s) := fold_keeps (P := AtCore k s) _ (fun t a ht => ht.trans (hf a t)) l s (.refl k s)

theorem atCore_coreConfirm (s : State) (k i : Nat) : AtCore k s (coreConfirm s k i) := by
  refine (AtCore.setCore s k _).trans (AtCore.each (fun e t => ?_) ..)
  refine AtCore.wr ?_ ..
  simp only [cor_AMAX_n]
  omega

theorem cores_coreConfirm (s : State) (k i : Nat) : ∃ c, (coreConfirm s k i).cores = (setCore s k c).cores ∧
    c.deferred = (getCore s k).deferred ∧ c.releasing = (getCore s k).releasing ∧ c.away = (getCore s k).away := by
  unfold coreConfirm
  extract_lets c am t
  exact ⟨_, each_keep State.cores _ (fun e s => wr_cores s ..) am t, rfl, rfl, rfl⟩

theorem advanceHead_eq (s : State) (k : Nat) (r : Run) : ∃ c, advanceHead s k r = setCore s k c ∧
    c.deferred = (getCore s k).deferred ∧ c.releasing = (getCore s k).releasing := ⟨_, rfl, rfl, rfl⟩

theorem applyHeld_nil {s : State} {k : Nat} (h : (getCore s k).deferred = []) (i : Nat) (retained : Bool) :
    applyHeld s k i retained = s := by simp [applyHeld, h]

theorem pumpAll_nil {s : State} {k : Nat} (h : (getCore s k).releasing = []) : pumpAll s k = s := by
  rw [pumpAll, h]
  simp [pump, h]

theorem releaseDeferred_nil {s : State} {k : Nat} (hd : (getCore s k).deferred = []) (hr : (getCore s k).releasing = []) (i : Nat) (keep : Bool) :
    releaseDeferred s k i keep = setCore s k { getCore s k with deferred := [], releasing := [] } := by
  rw [releaseDeferred, hd, hr]
  exact pumpAll_nil (by rw [getCore_setCore]; rfl)

/-- The machine after the attempt of context i has left core k for its commit: its shadow regions and AMAX slots merged, its terrace
entry advanced, and what it held and deferred released (R170). -/
def afterLeaving (s : State) (k i : Nat) (retained : Bool) : State :=
  let t := match (getCore s k).away.find? (·.ctx == i) with
    | some r => applyHeld (advanceHead (coreConfirm s k i) k r) k i retained
    | none => coreConfirm s k i
  releaseDeferred (setCore t k { getCore t k with away := (getCore t k).away.filter (·.ctx != i) }) k i false

theorem afterLeaving_eq {s : State} {k : Nat} (hd : (getCore s k).deferred = []) (hr : (getCore s k).releasing = []) (i : Nat) (retained : Bool) :
    ∃ c, afterLeaving s k i retained = setCore (coreConfirm s k i) k c ∧ c.releasing = [] ∧ ∀ r ∈ c.away, r.ctx ≠ i := by
  obtain ⟨c0, hc0, hd0, hr0, -⟩ := cores_coreConfirm s k i
  have hcore : getCore (coreConfirm s k i) k = c0 := (getCore_of_cores hc0 k).trans (getCore_setCore ..)
  have leaves : ∀ t, (∀ c, setCore t k c = setCore (coreConfirm s k i) k c) → (getCore t k).deferred = [] → (getCore t k).releasing = [] →
      ∃ c, releaseDeferred (setCore t k { getCore t k with away := (getCore t k).away.filter (·.ctx != i) }) k i false =
        setCore (coreConfirm s k i) k c ∧ c.releasing = [] ∧ ∀ r ∈ c.away, r.ctx ≠ i := by
    intro t ht htd htr
    rw [releaseDeferred_nil (by rw [getCore_setCore]; exact htd) (by rw [getCore_setCore]; exact htr)]
    simp only [getCore_setCore, setCore_setCore, ht]
    exact ⟨_, rfl, rfl, fun r hr => by simpa using (List.mem_filter.mp hr).2⟩
  unfold afterLeaving
  split
  next r _ =>
    obtain ⟨c, hc, hcd, hcr⟩ := advanceHead_eq (coreConfirm s k i) k r
    rw [hcore, hd0, hd] at hcd
    rw [hcore, hr0, hr] at hcr
    rw [hc, applyHeld_nil (by rw [getCore_setCore, hcd])]
    exact leaves _ (fun _ => setCore_setCore ..) (by rw [getCore_setCore, hcd]) (by rw [getCore_setCore, hcr])
  · exact leaves _ (fun _ => rfl) (by rw [hcore, hd0, hd]) (by rw [hcore, hr0, hr])

/-- A commit of context i, as c, that core k may take, of a class that has no work beside its list, and that releases nothing (R170). -/
structure Commits (s : State) (n k i : Nat) (c : Ctx) (x : Flight) : Prop extends ForCore s n 2 k x where
  tag : x.tok.tag = 6
  context : ctxOf x.tok.value = i
  shows : getCtx s (k / 384) i = c
  plain : c.cls ≠ 1 ∧ c.cls ≠ 2
  goes : commitWaits (netTake s n) (k / 384) i = false
  deferred : (getCore s k).deferred = []
  releasing : (getCore s k).releasing = []

/-- What a commit whose list is in the successor cache does once its attempt has left the core. -/
theorem execTaskCommit_listed {s u : State} {n k i : Nat} {c : Ctx} {x : Flight} (h : Commits s n k i c x) {es : List Nat}
    (hu : afterLeaving (netTake s n) k i c.retained = u) (hq : succOf u (k / 384) i = (u, .ok es)) (hr : (getCore u k).releasing = []) :
    execTaskCommit n s = charge (each (es.filter succAhead) (edge (k / 384) 2 c.sample)
      (each (es.filter (fun e => !succAhead e)) (successor k i c.cls c.sample none) u)) (k / 384) i := by
  obtain ⟨h1, h2⟩ := h.plain
  obtain rfl := h.context
  have hf : fenceBefore u k c.core (ctxOf x.tok.value) = none := by simp [fenceBefore, hr]
  have hc : getCtx (netTake s n) (k / 384) (ctxOf x.tok.value) = c := h.shows
  unfold afterLeaving at hu
  refine (taskAtCore_for h.toForCore h.tag _).trans ((if_neg (by rw [h.goes]; decide)).trans ?_)
  cases hfind : (getCore (netTake s n) k).away.find? (·.ctx == ctxOf x.tok.value)
  · simp only [hfind] at hu
    simp only [hfind, hc, hu, hq, hf, h1, h2, if_false]
  · simp only [hfind] at hu
    simp only [hfind, hc, hu, hq, hf, h1, h2, if_false]

/-! ## Reports at the slice (R43, R44, R171, R177) -/

section
variable {s : State} {d : Nat} (hd : d < 8) (i tag info : Nat) (b : List Byte)
include hd

/-- A token from a slice to its core joins the network. -/
theorem toCore_eq : ∃ f, toCore s d i tag info b = { s with net := s.net ++ [f] } :=
  ⟨_, netSend_near s _ _ _ rfl (fun _ => rfl) (fun h => absurd h (Nat.not_le.mpr hd))⟩

theorem dies_toCore : (toCore s d i tag info b).dies = s.dies := by
  obtain ⟨f, e⟩ := toCore_eq (s := s) hd i tag info b
  rw [e]

theorem rd_toCore (p : Page) (o : Nat) : rd (toCore s d i tag info b) p o = rd s p o := by
  obtain ⟨f, e⟩ := toCore_eq (s := s) hd i tag info b
  rw [e]
  rfl

theorem getCtx_commitDecide : getCtx (commitDecide s d i) d i = { getCtx s d i with state := .committed } := by
  rw [commitDecide, getCtx_of_dies (dies_toCore hd ..), getCtx_bump, getCtx_setCtx]

theorem rd_commitDecide :
    rd (commitDecide s d i) (.tke d) tke_COMMIT_COUNT = min (rd s (.tke d) tke_COMMIT_COUNT + 1) 0xFFFFFFFF := by
  rw [commitDecide, rd_toCore hd, rd_bump, rd_setCtx]

end

theorem getCtx_addCycles (s : State) (d i : Nat) :
    getCtx (addCycles s d i) d i = { getCtx s d i with cycles := (getCtx s d i).cycles + (drawNat s).1 } := getCtx_setCtx ..

theorem rd_addCycles (s : State) (d i : Nat) (p : Page) (o : Nat) : rd (addCycles s d i) p o = rd s p o := rd_setCtx ..

theorem succs_setCtx (s : State) (d i : Nat) (x : Ctx) : (getDie (setCtx s d i x) d).succs = (getDie s d).succs := by
  rw [setCtx, getDie_setDie]

theorem succs_addCycles (s : State) (d i : Nat) : (getDie (addCycles s d i) d).succs = (getDie s d).succs := succs_setCtx ..

/-- Along the AHEAD edges of a cached list, whatever the context has become. -/
theorem edges_setCtx {s u : State} (hu : u.dies = s.dies) {d i : Nat} {es : List Nat} (hc : CachedList s d i es) {c : Ctx}
    (hn : c.nsucc = (getCtx s d i).nsucc) (tag : Nat) :
    edges (setCtx u d i c) d i tag = each (es.filter succAhead) (edge d tag c.sample) (setCtx u d i c) := by
  have hcv : CachedList (setCtx u d i c) d i es :=
    cachedList_congr hc (by rw [getCtx_setCtx, hn]) (by rw [succs_setCtx, getDie_of_dies hu])
  rw [edges, succOf_cached hcv, getCtx_setCtx]

/-- The count of the escalations out of a format. -/
def escCount (fmt : Nat) : Nat := if fmt = 9 then tke_ESC_COUNT_J2 else if fmt = 8 then tke_ESC_COUNT_J3 else tke_ESC_COUNT_E2M1

theorem near_escLast (s : State) (d i wide cause : Nat) : Near s (escLast s d i wide cause) := (near_wr ..).trans (near_wr ..)

/-- The machine after what an escalation counts, records and sends to the core, its context not yet changed. -/
def escalating (s : State) (d i cause : Nat) : State :=
  toCore (bump (condition (escLast (bump s (.tke d) (escCount (getCtx s d i).fmtNow) 1) d i (wider (getCtx s d i).fmtNow) cause) (.tke d) 6 1)
    (.tke d) tke_DISCARD_COUNT 1) d i 4 0 []

theorem dies_escalating {s : State} {d : Nat} (hd : d < 8) (i cause : Nat) : (escalating s d i cause).dies = s.dies := by
  have h : ∀ cnt wide, Near s (bump (condition (escLast (bump s (.tke d) cnt 1) d i wide cause) (.tke d) 6 1) (.tke d) tke_DISCARD_COUNT 1) :=
    fun _ _ => ((near_bump ..).trans (near_escLast ..)).trans ((near_condition ..).trans (near_bump ..))
  exact (dies_toCore hd ..).trans (h ..).dies

theorem awaits_escalating (s : State) (d i cause : Nat) : awaits (escalating s d i cause) = awaits s := by
  simp [escalating, awaits_of_near (near_escLast ..)]

/-- The context of an escalated attempt: READY again one rung wider (R44). -/
def widened (c : Ctx) : Ctx :=
  { c with rung := c.rung + 1, fmtNow := wider c.fmtNow, state := .ready, run := RunRec.zero, badRun := [] }

/-- An escalation sends DISCARD along the AHEAD edges once the context is widened. -/
theorem escalate_eq {s : State} {d : Nat} (hd : d < 8) {i : Nat} {es : List Nat} (hc : CachedList s d i es) (cause : Nat) :
    escalate s d i cause = each (es.filter succAhead) (edge d 3 (getCtx s d i).sample)
      (setCtx (escalating s d i cause) d i (widened (getCtx s d i))) := by
  have hu := dies_escalating (s := s) hd i cause
  have he : escalate s d i cause = edges (setCtx (escalating s d i cause) d i
      { getCtx (escalating s d i cause) d i with
        rung := (getCtx s d i).rung + 1, fmtNow := wider (getCtx s d i).fmtNow, state := .ready, run := RunRec.zero, badRun := [] }) d i 3 := rfl
  rw [he, getCtx_of_dies hu]
  exact edges_setCtx hu hc (c := widened (getCtx s d i)) rfl 3

/-! ## Commit and reports -/

theorem exec_of_awaits {s t : State} {i : Instr} (he : exec i s = answer s t) (h : awaits t = awaits s) : exec i s = .next t :=
  he.trans (answer_eq h)

/-- A commit is the leaving of its attempt, its list and its account. -/
theorem taskCommit_listed {s : State} {n k i : Nat} {c : Ctx} {x : Flight} (h : Commits s n k i c x) {es : List Nat}
    (hc : CachedList s (k / 384) i es) : ∃ u, AtCore k (netTake s n) u ∧ (∀ r ∈ (getCore u k).away, r.ctx ≠ i) ∧
    exec (.taskCommit n) s = .next (charge (each (es.filter succAhead) (edge (k / 384) 2 c.sample)
      (each (es.filter (fun e => !succAhead e)) (successor k i c.cls c.sample none) u)) (k / 384) i) := by
  obtain ⟨e, hu, hr, haway⟩ := afterLeaving_eq (s := netTake s n) (k := k) h.deferred h.releasing i c.retained
  have hat : AtCore k (netTake s n) (setCore (coreConfirm (netTake s n) k i) k e) := (atCore_coreConfirm ..).trans (.setCore ..)
  have hcu : CachedList (setCore (coreConfirm (netTake s n) k i) k e) (k / 384) i es :=
    cachedList_congr hc (by rw [getCtx_of_dies hat.dies]; rfl) (by rw [getDie_of_dies hat.dies]; rfl)
  refine ⟨_, hat, by rwa [getCore_setCore], exec_of_awaits (congrArg (answer s)
    (execTaskCommit_listed h hu (succOf_cached hcu) (by rwa [getCore_setCore]))) ?_⟩
  rw [awaits_charge, awaits_each fun _ _ => awaits_edge .., awaits_each fun _ _ => awaits_successor .., hat.awaits, awaits_netTake]

/-- The account of the CURRENT job takes the core time of a context (R266). -/
theorem charge_acct {u : State} {d i j : Nat} (hj : (getSlot u (slotOf u d)).current = some j) :
    (tget Job.none (getSlot (charge u d i) (slotOf u d)).jobs j).acct =
      ((tget Job.none (getSlot u (slotOf u d)).jobs j).acct + (getCtx u d i).cycles * 1024 / rd u .pwr pwr_CORE_MHZ) % 2 ^ 64 := by
  unfold charge
  simp only [hj]
  split
  · rw [getSlot_setSlot, tget_tput_same]
  · rw [getSlot_bump, getSlot_setSlot, tget_tput_same]

theorem cores_charge (u : State) (d i : Nat) : (charge u d i).cores = u.cores := by
  unfold charge
  extract_lets x k y
  split
  · rfl
  · split <;> rfl

section
variable {s : State} {n d i : Nat} {x : Flight}

/-- An attempt that ends without a trip commits, or waits ENDED for its AHEAD producers. -/
theorem execEnded_clean (h : ForSlice s n 2 d i x) (ht : x.tok.dcount.testBit 0 = false) :
    execEnded n s = if 0 < (getCtx s d i).pcur then
      setCtx (addCycles (netTake s n) d i) d i { getCtx (addCycles (netTake s n) d i) d i with state := .ended }
      else commitDecide (addCycles (netTake s n) d i) d i := by
  refine (taskAtSlice_for h _).trans ?_
  simp only [ht, Bool.false_and, Bool.false_eq_true, if_false]
  rfl

/-- An attempt that trips below CEILING is escalated. -/
theorem execEnded_tripped (h : ForSlice s n 2 d i x) (ht : x.tok.dcount.testBit 0 = true)
    (hf : (getCtx s d i).fmtNow ≠ clsCeiling (classA s d (getCtx s d i).fmtc)) {es : List Nat} (hc : CachedList s d i es) :
    execEnded n s = escalate (addCycles (netTake s n) d i) d i (fld x.tok.dcount 1 2) := by
  have hw : succWaits (netTake s n) d i = false := succWaits_cached (s := netTake s n) hc
  refine (taskAtSlice_for h _).trans ?_
  refine (if_pos (?_ : (x.tok.dcount.testBit 0 && (getCtx s d i).fmtNow != clsCeiling (classA s d (getCtx s d i).fmtc)) = true)).trans ?_
  · simpa [ht] using hf
  · exact if_neg (by rw [hw]; decide)

end

/-- Settles O21: a commit by the machine that its attempt has left, a report by what the slice makes of it. -/
theorem reportsAndCommit : Obligations.ReportsAndCommit := by
  unfold Obligations.ReportsAndCommit
  refine ⟨?_, ?_⟩
  · intro s n k j x h ht _ i d ctx slot job h1 h2 hw hd hr
    have commits : Commits s n k i ctx x := ⟨h, ht, rfl, rfl, ⟨h1, h2⟩, hw, hd, hr⟩
    refine ⟨fun es hc => ?_, fun hc hj => ?_⟩
    · obtain ⟨u, hat, haway, he⟩ := taskCommit_listed commits hc
      exact ⟨u, he, hat.net, getCtx_of_dies hat.dies d, haway, hat.slots⟩
    · obtain ⟨u, hat, haway, he⟩ := taskCommit_listed commits hc
      have hslots : getSlot u slot = getSlot s slot := by rw [getSlot, hat.slots, netTake_slots, ← getSlot]
      have hslot : slotOf u d = slot := hat.slotOf_eq d
      have hrate : rd u .pwr pwr_CORE_MHZ = rd s .pwr pwr_CORE_MHZ :=
        (hat.pages .pwr (by simp only [corPage, pageBase, dieBase]; omega)).reads _ (by decide)
      refine ⟨_, he, ?_, ?_⟩
      · rw [getCore_of_cores (cores_charge ..)]
        exact haway
      · have ha := charge_acct (u := u) (d := d) (i := i) (j := j) (by rw [hslot, hslots]; exact hj)
        rw [hslot, hslots, hrate, getCtx_of_dies hat.dies] at ha
        exact ha
  · intro s n d i x hd c ceiling
    have hpcur : (getCtx (addCycles (netTake s n) d i) d i).pcur = c.pcur := by rw [getCtx_addCycles]; rfl
    refine ⟨fun h ht hp => ?_, fun h ht hp => ?_, fun h ht hf es hc => ?_, fun h => ?_⟩
    · have hnone : ¬ 0 < c.pcur := Nat.not_lt.mpr (Nat.le_of_eq hp)
      refine ⟨_, exec_of_awaits (congrArg (answer s) ((execEnded_clean h ht).trans (if_neg hnone))) (by simp), ?_, ?_⟩
      · rw [getCtx_commitDecide hd]
      · rw [rd_commitDecide hd, rd_addCycles, rd_netTake]
    · refine ⟨_, exec_of_awaits (congrArg (answer s) ((execEnded_clean h ht).trans (if_pos hp))) (by simp), ?_, ?_⟩
      · rw [getCtx_setCtx]
      · rw [getCtx_setCtx]
        exact hpcur
    · have hS : CachedList (addCycles (netTake s n) d i) d i es :=
        cachedList_congr hc (by rw [getCtx_addCycles]; rfl) (succs_addCycles ..)
      have hsample : (getCtx (addCycles (netTake s n) d i) d i).sample = c.sample := by rw [getCtx_addCycles]; rfl
      have he := escalate_eq hd hS (fld x.tok.dcount 1 2)
      rw [hsample] at he
      refine ⟨_, exec_of_awaits (congrArg (answer s) ((execEnded_tripped h ht hf hc).trans he)) ?_, ?_⟩
      · rw [awaits_each fun _ _ => awaits_edge .., awaits_setCtx, awaits_escalating, awaits_addCycles, awaits_netTake]
      · rw [getCtx_setCtx, widened, getCtx_addCycles]
        exact ⟨rfl, rfl, rfl, rfl⟩
    · refine ⟨_, exec_of_awaits (congrArg (answer s) (taskAtSlice_for h _)) (by simp), ?_, ?_, ?_⟩
      · rw [getCtx_bump, getCtx_setCtx]
      · rw [getCtx_bump, getCtx_setCtx, getCtx_addCycles]
        rfl
      · rw [rd_bump, rd_setCtx, rd_addCycles, rd_netTake]

end Sys2Proof.Proofs
end
section
/-! Proofs about the array's queue, and the STREAM's fill and pass (R42, R51 to R53, R56, R65, R90). -/
namespace Sys2Proof.Proofs
open Sys2Proof.Machine Sys2Proof.Safety Sys2Proof.Laws

/-! ## Entering the queue (R53, R56) -/

/-- An instruction word that enters one operation in the queue goes on where the queue may take it, and stalls where that is full. -/
theorem exec_enqueues {s : State} {id : CoreId} {r : Run} {w op : Nat} {i : Instr} {o : ArrOp} {f : State → Nat → Core → Run → Nat → Eff}
    (he : exec i s = answer s (issue s id op f)) (h : Ready s id r w) (hop : opcodeOf w = op)
    (hf : f s (cid id) (getCore s (cid id)) r w = enqueue s (cid id) (getCore s (cid id)) r w o) :
    (enters (getCore s (cid id)) r o → exec i s = .next (goesOn s id { getCore s (cid id) with
      serial := (getCore s (cid id)).serial + 1,
      queue := (getCore s (cid id)).queue ++ [queued (getCore s (cid id)) r w o] })) ∧
    (8 ≤ (getCore s (cid id)).queue.length → exec i s = .next (stalls s id 2)) := by
  rw [he, issue_ready h hop, hf, enqueue]
  refine ⟨fun ⟨hroom, hlegal, hinside⟩ => ?_, fun hfull => ?_⟩
  · rw [if_neg (Nat.not_le.mpr hroom), hlegal, hinside, if_neg Bool.false_ne_true, if_neg Bool.false_ne_true, settle_next,
      getCore_setCore, setCore_setCore]
    rfl
  · rw [if_pos hfull]
    rfl

/-- Settles O10: each instruction word enters its operation in the queue, OPEN and DRAIN where their base is aligned. -/
theorem arrayInstructionsEnterQueue : Obligations.ArrayInstructionsEnterQueue := by
  unfold Obligations.ArrayInstructionsEnterQueue
  intro s id r w h c A puts spill
  exact ⟨fun hop => exec_enqueues rfl h hop rfl, fun hop => exec_enqueues rfl h hop rfl,
    fun hop hspill => exec_enqueues rfl h hop (if_neg (not_not_intro hspill)),
    fun hop hbase => exec_enqueues rfl h hop (if_neg (not_not_intro hbase)), fun hop => exec_enqueues rfl h hop rfl⟩

/-! ## The fill of a STREAM LOAD (R51) -/

/-- The answer to a command keeps the core that its effect leaves. -/
theorem getCore_setCore_pending (s : State) (k : Nat) (c : Core) (l : List Instr) : getCore { setCore s k c with pending := l } k = c :=
  getCore_setCore s k c

/-- Where no word has an error, reading sub-passes one after the other leaves the state alone and gives their vectors in order. -/
theorem foldl_readVecs_clean {s : State} (h : s.synd = []) (k ctx n ea sa f p kv st ss : Nat) (ms : List Nat)
    (l : List (List Elt)) (u : Nat) :
    ∃ u', ms.foldl (fun (a : State × List (List Elt) × Nat × Bool) m =>
        let x := readVecs a.1 k ctx n ea sa f p m kv st ss
        (x.1, a.2.1 ++ x.2.1, a.2.2.1 + x.2.2.1, a.2.2.2 || x.2.2.2)) (s, l, u, false) =
      (s, l ++ ms.flatMap (fun m => (readVecs s k ctx n ea sa f p m kv st ss).2.1), u', false) := by
  induction ms generalizing l u with
  | nil => exact ⟨u, by rw [List.foldl_nil, List.flatMap_nil, List.append_nil]⟩
  | cons m ms ih =>
    obtain ⟨cols, v, hread, -⟩ := readVecs_clean h k ctx n ea sa f p m kv st ss
    obtain ⟨u', hrest⟩ := ih (l ++ cols) (u + v)
    refine ⟨u', ?_⟩
    simp only [List.foldl_cons, List.flatMap_cons, hread, Bool.or_self]
    rw [hrest, List.append_assoc]

/-- A fill whose words have no error stands in its queue entry, the vectors of every sub-pass in order. -/
theorem fillDo_clean {s : State} (h : s.synd = []) (k : Nat) (r : Run) (i : Nat) (e : QEntry) (ea sa code n kv st ss : Nat) :
    ∃ c : Core, fillDo k r i e ea sa code n kv st ss s = setCore s k c ∧
      c.queue = (getCore s k).queue.set i { e with fill := some ((List.range (passes code e.now)).flatMap fun m =>
        (readVecs s k e.ctx n ea sa (fmtNow code e.now) (passes code e.now) m kv st ss).2.1) } := by
  obtain ⟨u, hread⟩ := foldl_readVecs_clean h k e.ctx n ea sa (fmtNow code e.now) (passes code e.now) kv st ss
    (List.range (passes code e.now)) [] 0
  simp only [fillDo, hread, Bool.false_eq_true, if_false, List.nil_append]
  exact ⟨_, rfl, rfl⟩

/-- A fill holds one vector for each place of each sub-pass. -/
theorem length_flatMap_readVecs {s : State} (h : s.synd = []) (k ctx n ea sa f p kv st ss : Nat) :
    ((List.range p).flatMap fun m => (readVecs s k ctx n ea sa f p m kv st ss).2.1).length = p * n := by
  have hlen : ∀ m, (readVecs s k ctx n ea sa f p m kv st ss).2.1.length = n := fun m => by
    obtain ⟨cols, u, hread, hcols⟩ := readVecs_clean h k ctx n ea sa f p m kv st ss
    rw [hread]; exact hcols
  simp only [List.length_flatMap, hlen, List.map_const', List.sum_replicate, List.length_range, smul_eq_mul]

/-- The first STREAM LOAD without its fill takes it where the feeder has room and its source is ready, may be read and awaits no
DRAIN. -/
theorem streamFill_due {s : State} {id : CoreId} {ahead : List QEntry} {e : QEntry} {r : Run} {ea sa code n g kv st ss : Nat} {keep : Bool}
    (hnext : nextFill [] (getCore s (cid id)).queue = some (ahead, e)) (hrun : entryRun (getCore s (cid id)) e = some r)
    (hop : e.op = .stream ea sa code n g false keep kv st ss) (hgo : arrayGoes s (cid id) (getCore s (cid id)) = true)
    (hroom : feederUsed (getCore s (cid id)) + passes code e.now * n ≤ 256)
    (hr : ∀ x ∈ readRanges e.op (fmtNow code e.now), meets x (pendingWritesFrom (getCore s (cid id)) [] ahead) = false ∧
      rangeReady (getCore s (cid id)) x.1 x.2 = true ∧ mayReadRange (getCore s (cid id)) x.1 x.2 = true) :
    execStreamFill id s = fillDo (cid id) r ahead.length e ea sa code n kv st ss s := by
  have hready : (readRanges e.op (fmtNow code e.now)).any (fun x =>
      meets x (pendingWritesFrom (getCore s (cid id)) [] ahead) || !rangeReady (getCore s (cid id)) x.1 x.2) = false := by
    rw [List.any_eq_false]; exact fun x hx => by rw [(hr x hx).1, (hr x hx).2.1]; decide
  have hmay : (readRanges e.op (fmtNow code e.now)).any (fun x => !mayReadRange (getCore s (cid id)) x.1 x.2) = false := by
    rw [List.any_eq_false]; exact fun x hx => by rw [(hr x hx).2.2]; decide
  rw [hop] at hready hmay
  simp only [execStreamFill, hnext, hrun, hop, hgo, hready, hmay, Nat.not_lt.mpr hroom, Bool.not_true, Bool.false_eq_true, if_false]

/-! ## The pass of a STREAM (R65) -/

/-- A STREAM in step whose group has its extent, and awaits no merge, takes its pass. -/
theorem streamBegin_due {s : State} {id : CoreId} {e x : QEntry} {rest : List QEntry} {r : Run} {lat : Option QEntry}
    {ea sa code n g kv st ss : Nat} {reuse keep : Bool} {vs : List (List Elt)} {b : Bank} {grp : Group} (h : Front s id e rest r)
    (hstep : inStep (getCore s (cid id)) e = some (lat, x)) (hop : x.op = .stream ea sa code n g reuse keep kv st ss)
    (hvs : (if reuse then (getCore s (cid id)).retained.map (·.vecs) else x.fill) = some vs)
    (hb : (if (getCore s (cid id)).recentB then (getCore s (cid id)).bankB else (getCore s (cid id)).bankA) = some b)
    (hg : tget none (getCore s (cid id)).groups g = some grp) (hmerge : grp.mergeDue = false) (hn : grp.nt = n) (hc : grp.c = b.c) :
    execStreamBegin id s = streamDo (cid id) x lat b g grp vs code n reuse keep s := by
  rw [execStreamBegin, arrayStep_front h]
  simp only [hstep, hop, hvs, hb, hg, hmerge, hn, hc, bne_self_eq_false, Bool.or_self, Bool.false_eq_true, if_false]

/-- A pass changes its own core alone, and of the groups its own, into which it goes. -/
theorem streamDo_groups (k : Nat) (e : QEntry) (lat : Option QEntry) (b : Bank) (g : Nat) (grp : Group) (vecs : List (List Elt))
    (code n : Nat) (reuse keep : Bool) (s : State) :
    ∃ c : Core, streamDo k e lat b g grp vecs code n reuse keep s = setCore s k c ∧
      c.groups = tput (getCore s k).groups g
        (some (groupPass grp b.fmt (fmtNow code e.now) ((vecs.drop (e.sub * n)).take n) b.cols)) := ⟨_, rfl, rfl⟩

/-- Settles O12: the fill is that of clean reads, the pass is put into its group of the table. -/
theorem streamMovesVectors : Obligations.StreamMovesVectors := by
  unfold Obligations.StreamMovesVectors
  refine ⟨?_, ?_⟩
  · intro s id ahead e r ea sa code n g kv st ss keep k c f p hnext hrun hop hgo hroom hclean hr
    obtain ⟨d, hd, hqueue⟩ := fillDo_clean hclean k r ahead.length e ea sa code n kv st ss
    refine ⟨_, _, congrArg (answer s) ((streamFill_due hnext hrun hop hgo hroom hr).trans hd),
      length_flatMap_readVecs hclean k e.ctx n ea sa f p kv st ss, rfl, rfl, ?_⟩
    rw [getCore_setCore_pending]; exact hqueue
  · intro s id e x rest r lat ea sa code n g kv st ss reuse keep vs b grp h k c hstep hop hvs hb hg hmerge hn hc
    obtain ⟨d, hd, hgroups⟩ := streamDo_groups k x lat b g grp vs code n reuse keep s
    refine ⟨_, _, congrArg (answer s) ((streamBegin_due h hstep hop hvs hb hg hmerge hn hc).trans hd), ?_, rfl, rfl, rfl, rfl, rfl, ?_, rfl⟩
    · rw [getCore_setCore_pending, hgroups, tget_tput_same]; rfl
    · intro j hj
      rw [getCore_setCore_pending, hgroups, tget_tput_ne _ _ _ hj]

end Sys2Proof.Proofs
end
section
/-! Proofs about the scalar and branch instructions of a core, and about what an issued instruction comes to (R78, R83 to R87). -/
namespace Sys2Proof.Proofs
open Sys2Proof.Machine Sys2Proof.Safety Sys2Proof.Laws

/-! ## Registers (R78) -/

theorem regVal_setReg_s (c : Core) {r : Nat} (h0 : 0 < r) (h : r < 16) (v : W32) : regVal (setReg c r v) r = v := by
  simp [regVal, setReg, Nat.ne_of_gt h0, h]

/-- An address register keeps 22 bits. -/
theorem regVal_setReg_a (c : Core) {r : Nat} (h : 16 ≤ r) (h' : r < 24) (v : W32) : regVal (setReg c r v) r = v &&& 0x3FFFFF#32 := by
  have h0 : r ≠ 0 := by omega
  simp [regVal, setReg, h0, Nat.not_lt.mpr h, h']

theorem tget_s_setReg_ne (c : Core) {r q : Nat} (h : q ≠ r) (v : W32) : tget 0 (setReg c r v).s q = tget 0 c.s q := by
  unfold setReg
  split_ifs
  · rfl
  · exact tget_tset_ne _ _ _ h
  · rfl
  · rfl

theorem tget_a_setReg_ne (c : Core) {r q : Nat} (h : q + 16 ≠ r) (v : W32) : tget 0 (setReg c r v).a q = tget 0 c.a q := by
  unfold setReg
  split_ifs
  · rfl
  · rfl
  · exact tget_tset_ne _ _ _ (by omega)
  · rfl

theorem regVal_setReg_ne (c : Core) {r q : Nat} (h : q ≠ r) (v : W32) : regVal (setReg c r v) q = regVal c q := by
  unfold regVal
  split_ifs with h0 hs ha
  · rfl
  · exact tget_s_setReg_ne c h v
  · exact tget_a_setReg_ne c (by omega) v
  · rfl

/-- A write of an s or a register changes those files and the register's parity, and nothing else of its core. -/
theorem setReg_frame (c : Core) (r : Nat) (v : W32) :
    setReg c r v = { c with s := (setReg c r v).s, a := (setReg c r v).a, parity := tset false c.parity r false } := by
  unfold setReg
  split_ifs <;> rfl

/-- Settles O2: register by register. -/
theorem registerWriteThenRead : Obligations.RegisterWriteThenRead := by
  unfold Obligations.RegisterWriteThenRead
  intro c r q v hr _
  exact ⟨rfl, fun h0 h => regVal_setReg_s c h0 h v, fun h => regVal_setReg_a c h hr v, fun h => regVal_setReg_ne c h v⟩

/-! ## Formats (R85 to R88) -/

section
variable {w : Nat} (h : wordLegal w = true)
include h

theorem legalS_of_legal (_ : 1 ≤ opcodeOf w) (h8 : opcodeOf w ≤ 8) : legalS w = true := by
  have ha := assigned_of_legal h
  unfold wordLegal at h
  simpa [ha, h8] using h

theorem legalB_of_legal (h9 : 9 ≤ opcodeOf w) (hd : opcodeOf w ≤ 0x0D) : legalB w = true := by
  have ha := assigned_of_legal h
  unfold wordLegal at h
  simpa [ha, Nat.not_le.mpr h9, hd] using h

theorem legalV_of_legal (h12 : 0x12 ≤ opcodeOf w) (h1a : opcodeOf w ≤ 0x1A) (h17 : opcodeOf w ≠ 0x17) : legalV w = true := by
  have ha := assigned_of_legal h
  have h8 : ¬ opcodeOf w ≤ 8 := by omega
  have hd : ¬ opcodeOf w ≤ 0x0D := by omega
  have h11 : ¬ opcodeOf w ≤ 0x11 := by omega
  unfold wordLegal at h
  simpa [ha, h8, hd, h11, h17, h1a] using h

end

theorem legalS_fields {w : Nat} (h : legalS w = true) :
    fld w 51 5 < 24 ∧ fld w 46 5 < 24 ∧ fld w 41 5 < 24 ∧ fld w 32 5 = 0 ∧
    (opcodeOf w = 1 → w.testBit 40 = true ∧ fld w 46 5 = 0) ∧ (w.testBit 40 = true → fld w 41 5 = 0) ∧
    (opcodeOf w = 8 → fld w 37 3 ≤ 5) ∧ (opcodeOf w ≠ 8 → fld w 37 3 = 0) := by
  simp only [legalS, isSA, Bool.and_eq_true, decide_eq_true_eq, beq_iff_eq] at h
  obtain ⟨⟨⟨⟨⟨⟨hrd, hrs1⟩, hrs2⟩, hzero⟩, hli⟩, himm⟩, hcond⟩ := h
  refine ⟨hrd, hrs1, hrs2, hzero, fun e => ?_, fun e => ?_, fun e => ?_, fun e => ?_⟩
  · simpa [e] using hli
  · simpa [e] using himm
  · simpa [e] using hcond
  · simpa [e] using hcond

theorem legalB_fields {w : Nat} (h : legalB w = true) :
    fld w 51 5 = 0 ∧ fld w 16 30 = 0 ∧ (opcodeOf w = 0x0A ∨ opcodeOf w = 0x0B → fld w 46 5 < 24) ∧
    (opcodeOf w ≠ 0x0A → opcodeOf w ≠ 0x0B → fld w 46 5 = 0) ∧ (opcodeOf w = 0x0D → fld w 0 16 = 0) := by
  simp only [legalB, isSA, Bool.and_eq_true, beq_iff_eq] at h
  obtain ⟨⟨⟨hrd, hzero⟩, hrs⟩, hret⟩ := h
  refine ⟨hrd, hzero, fun e => ?_, fun ea eb => ?_, fun e => ?_⟩
  · simpa [e] using hrs
  · simpa [ea, eb] using hrs
  · simpa [e] using hret

/-- The destination of an instruction of format V is a v register, of VRED an s register. -/
theorem legalV_dest {w : Nat} (h : legalV w = true) (hop : opcodeOf w ≠ 0x16) : 24 ≤ fld w 51 5 := by
  simp only [legalV, hop, if_false, isV, Bool.and_eq_true, decide_eq_true_eq] at h
  obtain ⟨⟨⟨⟨⟨⟨hvd, -⟩, -⟩, -⟩, -⟩, -⟩, -⟩ := h
  exact hvd.1

/-! ## What an issued instruction comes to (R83, R84) -/

@[simp] theorem awaits_programError (s : State) (k : Nat) (r : Run) (code pc op : Nat) :
    awaits (programError s k r code pc op) = awaits s := by simp [programError, faultBit]

section
variable {s : State} {id : CoreId} {r : Run} {w op : Nat} {i : Instr} {f : State → Nat → Core → Run → Nat → Eff}
  (he : exec i s = answer s (issue s id op f)) (h : Ready s id r w) (hop : opcodeOf w = op)
include he h hop

theorem exec_settle : exec i s =
    answer s (settle (cid id) r (getCore s (cid id)).pc op (f s (cid id) (getCore s (cid id)) r w) s) :=
  he.trans (congrArg (answer s) (issue_ready h hop f))

/-- An effect that is a machine leads to it, its core at the next word. -/
theorem exec_next {u : State} (hf : f s (cid id) (getCore s (cid id)) r w = .next u) (hu : awaits u = awaits s) :
    exec i s = .next (setCore u (cid id) { getCore u (cid id) with pc := (getCore s (cid id)).pc + 1, stall := 0 }) := by
  refine exec_of_awaits ((exec_settle he h hop).trans (by rw [hf, settle_next])) ?_
  rw [awaits_setCore, hu]

/-- So does one that changes the core alone. -/
theorem exec_goesOn {e : Core} (hf : f s (cid id) (getCore s (cid id)) r w = .next (setCore s (cid id) e)) :
    exec i s = .next (goesOn s id e) := by
  rw [exec_next he h hop hf (awaits_setCore ..), getCore_setCore, setCore_setCore]
  rfl

/-- So does one that leaves the core alone. -/
theorem exec_goesOn_beside {u : State} (hf : f s (cid id) (getCore s (cid id)) r w = .next u) (hu : awaits u = awaits s)
    (hc : getCore u (cid id) = getCore s (cid id)) : exec i s = .next (goesOn u id (getCore s (cid id))) := by
  rw [exec_next he h hop hf hu, goesOn, hc]

theorem exec_goesOn_self (hf : f s (cid id) (getCore s (cid id)) r w = .next s) :
    exec i s = .next (goesOn s id (getCore s (cid id))) :=
  exec_goesOn_beside he h hop hf rfl rfl

theorem exec_stalls {why : Nat} (hf : f s (cid id) (getCore s (cid id)) r w = .stall why) : exec i s = .next (stalls s id why) := by
  rw [exec_settle he h hop, hf, settle_stall, answer_stalls]

theorem exec_illegal (hf : f s (cid id) (getCore s (cid id)) r w = .illegal s) :
    exec i s = .next (programError s (cid id) r 0x10 (getCore s (cid id)).pc op) :=
  exec_of_awaits ((exec_settle he h hop).trans (by rw [hf]; rfl)) (awaits_programError ..)

theorem exec_prot (hf : f s (cid id) (getCore s (cid id)) r w = .prot s) :
    exec i s = .next (programError s (cid id) r 0x0B (getCore s (cid id)).pc op) :=
  exec_of_awaits ((exec_settle he h hop).trans (by rw [hf]; rfl)) (awaits_programError ..)

/-- An instruction that waits stays at its word. -/
theorem exec_holds {u : State} {why : Nat} (hf : f s (cid id) (getCore s (cid id)) r w = .hold u why) (hu : awaits u = awaits s) :
    exec i s = .next (setCore u (cid id) { getCore u (cid id) with stall := why }) := by
  refine exec_of_awaits ((exec_settle he h hop).trans (by rw [hf, settle])) ?_
  rw [awaits_setCore, hu]

section
variable {t : Int}

theorem exec_goesTo_self (hf : f s (cid id) (getCore s (cid id)) r w = .jump s t) (h0 : 0 ≤ t) (h1 : t < 4096) :
    exec i s = .next (goesTo s id (getCore s (cid id)) t.toNat) := by
  rw [exec_settle he h hop, hf, settle, if_neg (by omega)]
  rfl

theorem exec_goesTo {e : Core} (hf : f s (cid id) (getCore s (cid id)) r w = .jump (setCore s (cid id) e) t)
    (h0 : 0 ≤ t) (h1 : t < 4096) : exec i s = .next (goesTo s id e t.toNat) := by
  rw [exec_settle he h hop, hf, settle, if_neg (by omega), getCore_setCore, setCore_setCore]
  rfl

/-- A branch out of the program store is a program error. -/
theorem exec_jump_out (hf : f s (cid id) (getCore s (cid id)) r w = .jump s t) (ht : t < 0 ∨ 4096 ≤ t) :
    exec i s = .next (programError s (cid id) r 0x10 (getCore s (cid id)).pc op) :=
  exec_of_awaits ((exec_settle he h hop).trans (by rw [hf, settle, if_pos ht])) (awaits_programError ..)

end
end

/-- A PC past the end of the program store is a program error, whatever instruction the core would run there. -/
theorem exec_past {s : State} {id : CoreId} {r : Run} {op : Nat} {i : Instr} {f : State → Nat → Core → Run → Nat → Eff}
    (he : exec i s = answer s (issue s id op f)) (hr : (getCore s (cid id)).run = some r)
    (hi : issues s (cid id) (getCore s (cid id)) r = true) (hpc : 4096 ≤ (getCore s (cid id)).pc) :
    exec i s = .next (programError s (cid id) r 0x10 (getCore s (cid id)).pc 0) := by
  refine exec_of_awaits (he.trans (congrArg (answer s) ?_)) (awaits_programError ..)
  simp only [issue, hr, hi, Bool.not_true, Bool.false_eq_true, if_false, hpc, if_true]

/-! ## Format S (R85) -/

/-- A scalar instruction writes its result into RD and goes on. -/
theorem exec_scalar {s : State} {id : CoreId} {r : Run} {w op : Nat} {i : Instr} {g : Nat → W32 → W32 → W32}
    (he : exec i s = answer s (issue s id op (scalar g))) (h : Ready s id r w) (hop : opcodeOf w = op) :
    exec i s = .next (goesOn s id (setReg (getCore s (cid id)) (fld w 51 5)
      (g w (regVal (getCore s (cid id)) (fld w 46 5)) (src2 (getCore s (cid id)) w)))) :=
  exec_goesOn he h hop rfl

/-- LI has an immediate. -/
theorem src2_imm {c : Core} {w : Nat} (h : w.testBit 40 = true) : src2 c w = w32 w := if_pos h

theorem cmpBit_eq_one (b : Bool) : ((if b = true then 1 else 0 : W32) = 1) ↔ b = true := by cases b <;> decide

/-- CMP writes 1 where its condition holds, and 0 elsewhere. -/
theorem cmp_results (cond : Nat) (a b : W32) :
    let v : W32 := if cmpHolds cond a b = true then 1 else 0
    (v = 0 ∨ v = 1) ∧ (cond = 0 → (v = 1 ↔ a = b)) ∧ (cond = 1 → (v = 1 ↔ a ≠ b)) ∧
    (cond = 2 → (v = 1 ↔ a.toInt < b.toInt)) ∧ (cond = 3 → (v = 1 ↔ b.toInt ≤ a.toInt)) ∧
    (cond = 4 → (v = 1 ↔ a.toNat < b.toNat)) ∧ (cond = 5 → (v = 1 ↔ b.toNat ≤ a.toNat)) := by
  intro v
  have hv : v = 1 ↔ cmpHolds cond a b = true := cmpBit_eq_one _
  refine ⟨?_, ?_, ?_, ?_, ?_, ?_, ?_⟩
  · cases hc : cmpHolds cond a b
    · exact .inl (if_neg (by rw [hc]; decide))
    · exact .inr (hv.mpr hc)
  all_goals
    rintro rfl
    rw [hv]
    simp only [cmpHolds, beq_iff_eq, bne_iff_ne, decide_eq_true_eq]

/-- Settles O3: each instruction by its function of the sources, the fields by the format. -/
theorem scalarInstructionResults : Obligations.ScalarInstructionResults := by
  unfold Obligations.ScalarInstructionResults
  intro s id r w h c rd a b
  refine ⟨fun hop => ?_, exec_scalar (g := fun _ a b => a + b) rfl h, exec_scalar (g := fun _ a b => a - b) rfl h,
    exec_scalar (g := fun _ a b => a &&& b) rfl h, exec_scalar (g := fun _ a b => a ||| b) rfl h,
    exec_scalar (g := fun _ a b => a <<< (b.toNat % 32)) rfl h, exec_scalar (g := fun _ a b => a >>> (b.toNat % 32)) rfl h,
    fun hop => ⟨_, exec_scalar (g := fun w a b => if cmpHolds (fld w 37 3) a b then 1 else 0) rfl h hop, cmp_results ..⟩,
    fun h1 h8 => legalS_fields (legalS_of_legal h.legal h1 h8), fun q v h16 h24 => regVal_setReg_a c h16 h24 v⟩
  obtain ⟨-, -, -, -, hli, -⟩ := legalS_fields (legalS_of_legal h.legal (by omega) (by omega))
  rw [exec_scalar (g := fun _ _ b => b) rfl h hop, src2_imm (hli hop).1]

/-! ## Format B (R86) -/

/-- Settles O4: each branch by where it goes, a jump out of the program store as a program error. -/
theorem branchInstructions : Obligations.BranchInstructions := by
  unfold Obligations.BranchInstructions
  refine ⟨?_, fun s id r hr hi hpc i hmem => ?_⟩
  · intro s id r w h c x t illegal
    refine ⟨fun h0 h1 => ⟨fun hop => ?_, fun hop hx => ?_, fun hop hx => ?_, fun hop hroom => ?_⟩, fun hop hx => ?_, fun hop hx => ?_,
      fun l p hop hl hp => ?_, fun ht => ⟨fun hop => ?_, fun hop hx => ?_, fun hop hx => ?_, fun hop => ?_⟩, fun hop hfull => ?_,
      fun hop hnil => ?_, fun h9 hd => legalB_fields (legalB_of_legal h.legal h9 hd)⟩
    · exact exec_goesTo_self rfl h hop rfl h0 h1
    · exact exec_goesTo_self rfl h hop (if_pos hx) h0 h1
    · exact exec_goesTo_self rfl h hop (if_neg hx) h0 h1
    · have hin : ¬ (t < 0 ∨ 4096 ≤ t) := by omega
      exact exec_goesTo rfl h hop ((if_neg (Nat.not_le.mpr hroom)).trans (if_neg hin)) h0 h1
    · exact exec_goesOn_self rfl h hop (if_neg hx)
    · exact exec_goesOn_self rfl h hop (if_pos hx)
    · exact exec_goesTo (e := { c with ret := l }) (t := p) rfl h hop
        (by simp only [show (getCore s (cid id)).ret = l ++ [p] from hl, List.getLast?_concat, List.dropLast_concat]; rfl) (by omega) (by omega)
    · exact exec_jump_out rfl h hop rfl ht
    · exact exec_jump_out rfl h hop (if_pos hx) ht
    · exact exec_jump_out rfl h hop (if_neg hx) ht
    · by_cases hfull : 8 ≤ c.ret.length
      · exact exec_illegal rfl h hop (if_pos hfull)
      · exact exec_illegal rfl h hop ((if_neg hfull).trans (if_pos ht))
    · exact exec_illegal rfl h hop (if_pos hfull)
    · exact exec_illegal rfl h hop (by rw [hnil]; rfl)
  · simp only [List.mem_cons, List.not_mem_nil, or_false] at hmem
    rcases hmem with rfl | rfl | rfl | rfl | rfl | rfl | rfl
    all_goals exact exec_past rfl hr hi hpc

/-! ## The frame of the register instructions (R85, R87) -/

/-- What a register instruction leaves of its core: everything but its destination d, that register's parity, the PC and COR.STALL. -/
def OnlyRegister (c e : Core) (d : Nat) : Prop :=
  (∀ q, q < 24 → q ≠ d → regVal e q = regVal c q) ∧ (∀ q, 24 ≤ q → q < 32 → q ≠ d → vecVal e q = vecVal c q) ∧
  (∀ q, q < 32 → q ≠ d → tget false e.parity q = tget false c.parity q) ∧
  e = { c with s := e.s, a := e.a, v := e.v, parity := e.parity, pc := c.pc + 1, stall := 0 }

theorem onlyRegister_setReg (c : Core) (d : Nat) (v : W32) : OnlyRegister c { setReg c d v with pc := c.pc + 1, stall := 0 } d := by
  have hf := setReg_frame c d v
  have hv : (setReg c d v).v = c.v := by rw [hf]
  have hp : (setReg c d v).parity = tset false c.parity d false := by rw [hf]
  refine ⟨fun q _ hq => regVal_setReg_ne c hq v, fun q _ _ _ => ?_, fun q _ hq => ?_, ?_⟩
  · exact congrArg (tget zeroVec · (q - 24)) hv
  · exact (congrArg (tget false · q) hp).trans (tget_tset_ne _ _ _ hq)
  · conv_lhs => rw [hf]
    conv_rhs => rw [hf]

theorem onlyRegister_setVec (c : Core) {d : Nat} (hd : 24 ≤ d) (v : List W32) :
    OnlyRegister c { setVec c d v with pc := c.pc + 1, stall := 0 } d :=
  ⟨fun _ _ _ => rfl, fun _ _ _ _ => tget_tset_ne zeroVec c.v v (by omega),
    fun _ _ hq => tget_tset_ne false c.parity false hq, rfl⟩

/-- Settles O9: the scalar instructions and VRED by the frame of an s or a register's write, the lane-wise ones by that of a v register's. -/
theorem registerInstructionFrame : Obligations.RegisterInstructionFrame := by
  unfold Obligations.RegisterInstructionFrame
  intro s id r w i h hmem c
  have scalars : ∀ {v}, exec i s = .next (goesOn s id (setReg c (fld w 51 5) v)) → ∃ e, exec i s = .next (setCore s (cid id) e) ∧
      OnlyRegister c e (fld w 51 5) := fun he => ⟨_, he, onlyRegister_setReg ..⟩
  have lanes : 0x12 ≤ opcodeOf w → opcodeOf w ≤ 0x1A → opcodeOf w ≠ 0x17 → opcodeOf w ≠ 0x16 → ∀ {P : List W32 → Prop},
      (∃ v, exec i s = .next (goesOn s id (setVec c (fld w 51 5) v)) ∧ P v) → ∃ e, exec i s = .next (setCore s (cid id) e) ∧
      OnlyRegister c e (fld w 51 5) :=
    fun h12 h1a h17 h16 _ he => ⟨_, he.choose_spec.1, onlyRegister_setVec c (legalV_dest (legalV_of_legal h.legal h12 h1a h17) h16) _⟩
  simp only [List.mem_cons, List.not_mem_nil, or_false, Prod.mk.injEq] at hmem
  rcases hmem with ⟨hop, rfl⟩ | ⟨hop, rfl⟩ | ⟨hop, rfl⟩ | ⟨hop, rfl⟩ | ⟨hop, rfl⟩ | ⟨hop, rfl⟩ | ⟨hop, rfl⟩ | ⟨hop, rfl⟩ |
    ⟨hop, rfl⟩ | ⟨hop, rfl⟩ | ⟨hop, rfl⟩ | ⟨hop, rfl⟩ | ⟨hop, rfl⟩ | ⟨hop, rfl⟩ | ⟨hop, rfl⟩ | ⟨hop, rfl⟩
  · exact scalars (exec_scalar (g := fun _ _ b => b) rfl h hop)
  · exact scalars (exec_scalar (g := fun _ a b => a + b) rfl h hop)
  · exact scalars (exec_scalar (g := fun _ a b => a - b) rfl h hop)
  · exact scalars (exec_scalar (g := fun _ a b => a &&& b) rfl h hop)
  · exact scalars (exec_scalar (g := fun _ a b => a ||| b) rfl h hop)
  · exact scalars (exec_scalar (g := fun _ a b => a <<< (b.toNat % 32)) rfl h hop)
  · exact scalars (exec_scalar (g := fun _ a b => a >>> (b.toNat % 32)) rfl h hop)
  · exact scalars (exec_scalar (g := fun w a b => if cmpHolds (fld w 37 3) a b then 1 else 0) rfl h hop)
  · exact lanes (by omega) (by omega) (by omega) (by omega) (exec_lanewise (g := fun ty a b _ => laneAdd ty a b) rfl h hop)
  · exact lanes (by omega) (by omega) (by omega) (by omega) (exec_lanewise (g := fun ty a b _ => laneMul ty a b) rfl h hop)
  · exact lanes (by omega) (by omega) (by omega) (by omega) (exec_lanewise (g := fun ty a b _ => laneMax ty a b) rfl h hop)
  · exact lanes (by omega) (by omega) (by omega) (by omega) (exec_lanewise (g := fun ty a b d => roundType ty (f32Fma a b d)) rfl h hop)
  · exact scalars (congrArg (answer s) (execVred_goes h hop))
  · exact lanes (by omega) (by omega) (by omega) (by omega) (exec_lanewise (g := fun ty a _ _ => roundType ty (f32Exp2ulp a)) rfl h hop)
  · exact lanes (by omega) (by omega) (by omega) (by omega) (exec_lanewise (g := fun ty a _ _ => roundType ty (f32Rsq2ulp a)) rfl h hop)
  · exact lanes (by omega) (by omega) (by omega) (by omega) (exec_lanewise (g := fun ty a _ _ => roundType ty (f32Tanh2ulp a)) rfl h hop)

end Sys2Proof.Proofs
end
section
/-! Proofs about a program error: what the core and the engine record, and what the halt of the partition leaves (R84, R107, R258). -/
namespace Sys2Proof.Proofs
open Sys2Proof.Machine Sys2Proof.Safety Sys2Proof.Laws

/-! ## What a halt and a program error leave of the registers (R84, R107, R258) -/

/-- The slot of a die depends on the layout alone. -/
theorem slotOf_of_layout {s u : State} (h : rd u (.tmt 8) tmt_LAYOUT = rd s (.tmt 8) tmt_LAYOUT) (d : Nat) : slotOf u d = slotOf s d := by
  rw [slotOf, diesPer, layoutN, h, ← layoutN, ← diesPer, ← slotOf]

/-- A halt writes, beside words at a multiple of 16 of their page, HALT_INFO and STATUS of the slot's TMT page and its generator's PHASE. -/
theorem rd_haltSlot_ne (s : State) (k cause src : Nat) (res : Bool) (die : Nat) {p : Page} {o : Nat} (h16 : o % 16 ≠ 0)
    (hinfo : pageBase p + o ≠ pageBase (.tmt k) + tmt_HALT_INFO) (hstatus : pageBase p + o ≠ pageBase (.tmt k) + hSTATUS)
    (hphase : pageBase p + o ≠ pageBase (.tckG k) + tck_PHASE) : rd (haltSlot s k cause src res die) p o = rd s p o := by
  have hp := pageBase_aligned p
  have hpage : ∀ (q : Page) (a : Nat), a % 16 = 0 → pageBase p + o ≠ pageBase q + a := fun q a ha => by
    have := pageBase_aligned q; omega
  have hshow : ∀ u, rd (showHalt u k cause src res die) p o = rd u p o := by
    intro u
    have hpaused : rd (ckpArmedEnds (pauseDies (setPhase (wr u (.tmt k) tmt_HALT_INFO (cause + 256 * src + 1024 * b2n res + 4096 * die)) k 5)
        k true) k 4) p o = rd u p o := by
      rw [rd_ckpArmedEnds_ne _ _ _ _ _ (fun j => hpage _ _ (by simp only [ckp_SLOT_n_STATE]; omega)) (hpage _ _ (by decide)),
        rd_pauseDies_ne _ _ _ _ _ (fun d => hpage _ _ (by decide)), setPhase, rd_wrFld_ne _ _ _ _ hphase, rd_wr_ne _ _ hinfo]
    rw [showHalt, rd_raise_ne _ _ (hpage _ _ (by decide))]
    split
    · rw [last, rd_wrFld_ne _ _ _ _ hstatus]; exact hpaused
    · exact hpaused
  unfold haltSlot
  split
  · rfl
  · rw [hshow]
    split
    · rfl
    · rfl

/-- HALT_INFO of a partition that a halt reaches names the cause. -/
theorem rd_haltSlot_info (s : State) {k cause die : Nat} (hc : cause < 256) (h5 : phase s k ≠ 5) :
    rd (haltSlot s k cause 0 false die) (.tmt k) tmt_HALT_INFO % 256 = cause := by
  have hshow : ∀ u, rd (showHalt u k cause 0 false die) (.tmt k) tmt_HALT_INFO % 256 = cause := by
    intro u
    rw [showHalt, rd_raise_ne _ _ (by simp only [tmt_HALT_INFO, hEVT]; omega), if_pos rfl, last,
      rd_wrFld_ne _ _ _ _ (by simp only [tmt_HALT_INFO, hSTATUS]; omega),
      rd_ckpArmedEnds_ne _ _ _ _ _ (fun j => by simp only [pageBase, tmt_HALT_INFO, ckp_SLOT_n_STATE]; omega)
        (by simp only [pageBase, tmt_HALT_INFO, ckp_STATE]; omega),
      rd_pauseDies_ne _ _ _ _ _ (fun d => by simp only [pageBase, dieBase, tmt_HALT_INFO, tck_RX_STATE]; omega), setPhase,
      rd_wrFld_ne _ _ _ _ (by simp only [pageBase, tmt_HALT_INFO, tck_PHASE]; omega), rd_wr, b2n, if_neg Bool.false_ne_true]
    omega
  rw [haltSlot, if_neg h5]
  exact hshow _

/-- The core's part of a program error: it records the fault and stops. -/
def coreErred (s : State) (k : Nat) (code pc op : Nat) : State :=
  faultBit (setCore (coreFaultInfo s k code pc op) k { getCore (coreFaultInfo s k code pc op) k with halted := true, stall := 0 })
    (corPage k) true

/-- The engine's part, before it raises its condition and the partition halts. -/
def engineErred (s : State) (d i code : Nat) : State :=
  wr (wr (setCtx s d i { getCtx s d i with state := .halted }) (.tke d) tke_FAULT_TASK (getCtx s d i).task)
    (.tke d) tke_FAULT_INFO (code + 256 * 0)

/-- The machine of a program error before its partition halts. -/
def erred (s : State) (k : Nat) (r : Run) (code pc op : Nat) : State :=
  condition (engineErred (coreErred s k code pc op) (k / 384) r.ctx code) (.tke (k / 384)) code 8

section
variable {s : State} {p : Page}

theorem coreErred_keeps {k : Nat} (h : pageBase (corPage k) ≠ pageBase p) (code pc op : Nat) :
    KeepsPage p s (coreErred s k code pc op) :=
  ((KeepsPage.wr h (by decide) s _).trans (.wr h (by decide) _ _)).trans ((KeepsPage.setCore ..).trans (.wr h (by decide) _ _))

theorem engineErred_keeps {d : Nat} (h : pageBase (.tke d) ≠ pageBase p) (i code : Nat) : KeepsPage p s (engineErred s d i code) :=
  (KeepsPage.setDie ..).trans ((KeepsPage.wr h (by decide) _ _).trans (.wr h (by decide) _ _))

theorem engineErred_condition_keeps {d : Nat} (h : pageBase (.tke d) ≠ pageBase p) (i code : Nat) :
    KeepsPage p s (condition (engineErred s d i code) (.tke d) code 8) :=
  (engineErred_keeps h i code).trans ((KeepsPage.wr h (by decide) _ _).trans (.raise h _ _))

end

theorem engineError_eq (s : State) (d i code : Nat) : engineError s d i code 0 =
    haltSlot (condition (engineErred s d i code) (.tke d) code 8) (slotOf (engineErred s d i code) d) code 0 false
      (imageDie (engineErred s d i code) d) := rfl

theorem programError_eq (s : State) (k : Nat) (r : Run) (code pc op : Nat) : programError s k r code pc op =
    haltSlot (erred s k r code pc op) (slotOf s (k / 384)) code 0 false
      (imageDie (engineErred (coreErred s k code pc op) (k / 384) r.ctx code) (k / 384)) := by
  have hlayout : KeepsPage (.tmt 8) s (engineErred (coreErred s k code pc op) (k / 384) r.ctx code) :=
    (coreErred_keeps (by simp only [corPage, pageBase, dieBase]; omega) code pc op).trans
      (engineErred_keeps (by simp only [pageBase, dieBase]; omega) r.ctx code)
  have he : programError s k r code pc op = engineError (coreErred s k code pc op) (k / 384) r.ctx code 0 := by
    simp only [programError, coreErred]
  rw [he, engineError_eq, slotOf_of_layout (hlayout.reads _ (by decide)), erred]

section
variable (s : State) (k : Nat) (r : Run) (code pc op d i : Nat)

theorem getCore_coreErred : getCore (coreErred s k code pc op) k = { getCore s k with halted := true, stall := 0 } := by
  rw [coreErred, faultBit, getCore_wrFld, getCore_setCore, coreFaultInfo, getCore_last, getCore_wr]

theorem dies_coreErred : (coreErred s k code pc op).dies = s.dies := by
  rw [coreErred, faultBit, wrFld_dies, setCore_dies, coreFaultInfo, last_dies, wr_dies]

theorem mem_coreErred : (coreErred s k code pc op).mem = s.mem := by
  rw [coreErred, faultBit, wrFld_mem, setCore_mem, coreFaultInfo, last_mem, wr_mem]

theorem near_erred : Near (setCtx (coreErred s k code pc op) (k / 384) r.ctx
    { getCtx (coreErred s k code pc op) (k / 384) r.ctx with state := .halted }) (erred s k r code pc op) :=
  ((near_wr ..).trans (near_wr ..)).trans (near_condition ..)

theorem rd_engineErred_task :
    rd (condition (engineErred s d i code) (.tke d) code 8) (.tke d) tke_FAULT_TASK = (getCtx s d i).task % 2 ^ 32 := by
  rw [condition, rd_raise_ne _ _ (by simp only [tke_FAULT_TASK, hEVT]; omega), last,
    rd_wrFld_ne _ _ _ _ (by simp only [tke_FAULT_TASK, hSTATUS]; omega), engineErred,
    rd_wr_ne _ _ (by simp only [tke_FAULT_TASK, tke_FAULT_INFO]; omega), rd_wr]

theorem rd_engineErred_info : rd (condition (engineErred s d i code) (.tke d) code 8) (.tke d) tke_FAULT_INFO = code % 2 ^ 32 := by
  rw [condition, rd_raise_ne _ _ (by simp only [tke_FAULT_INFO, hEVT]; omega), last,
    rd_wrFld_ne _ _ _ _ (by simp only [tke_FAULT_INFO, hSTATUS]; omega), engineErred, rd_wr, Nat.mul_zero, Nat.add_zero]

theorem rd_coreFaultInfo :
    rd (coreFaultInfo s k code pc op) (corPage k) cor_FAULT_INFO = (code + 256 * (pc % 4096) + 2 ^ 20 * op) % 2 ^ 32 := by
  rw [coreFaultInfo, last, rd_wrFld_ne _ _ _ _ (by simp only [cor_FAULT_INFO, hSTATUS]; omega), rd_wr]

theorem rd_coreErred : rd (coreErred s k code pc op) (corPage k) cor_FAULT_INFO = (code + 256 * (pc % 4096) + 2 ^ 20 * op) % 2 ^ 32 := by
  rw [coreErred, faultBit, rd_wrFld_ne _ _ _ _ (by simp only [cor_FAULT_INFO, hSTATUS]; omega), rd_setCore, rd_coreFaultInfo]

end

/-- Settles O5: the core's and the engine's registers before the halt, which leaves them, and the halt itself. -/
theorem programErrorHaltsPartition : Obligations.ProgramErrorHaltsPartition := by
  unfold Obligations.ProgramErrorHaltsPartition
  intro s id r code pc op hcode hop d k t
  have hd : cid id / 384 = d := cid_div id
  have hk : k < 8 := slotOf_lt s id.die.isLt
  have ht : t = _ := programError_eq s (cid id) r code pc op
  have hnear := near_erred s (cid id) r code pc op
  rw [hd] at ht hnear
  have hend := hnear.trans (near_haltSlot _ k code 0 false
    (imageDie (engineErred (coreErred s (cid id) code pc op) d r.ctx code) d))
  rw [← ht] at hend
  have herr : erred s (cid id) r code pc op = condition (engineErred (coreErred s (cid id) code pc op) d r.ctx code) (.tke d) code 8 := by
    rw [erred, hd]
  have hctx : getCtx (coreErred s (cid id) code pc op) d r.ctx = getCtx s d r.ctx := getCtx_of_dies (dies_coreErred ..) ..
  refine ⟨?_, ?_, ?_, ?_, ?_, ?_, fun h5 => ?_, ?_⟩
  · have keep := engineErred_condition_keeps (s := coreErred s (cid id) code pc op) (p := corPage (cid id)) (d := d)
      (by simp only [corPage, pageBase, dieBase]; omega) r.ctx code
    rw [ht, rd_haltSlot_ne _ _ _ _ _ _ (by decide) (by simp only [corPage, pageBase, dieBase, cor_FAULT_INFO, tmt_HALT_INFO]; omega)
      (by simp only [corPage, pageBase, dieBase, cor_FAULT_INFO, hSTATUS]; omega)
      (by simp only [corPage, pageBase, dieBase, cor_FAULT_INFO, tck_PHASE]; omega), herr, keep.reads _ (by decide), rd_coreErred]
    omega
  · rw [getCore_of_cores hend.cores, getCore_setCtx, getCore_coreErred]
  · rw [getCtx_of_dies hend.dies, getCtx_setCtx]
  · rw [ht, rd_haltSlot_ne _ _ _ _ _ _ (by decide) (by simp only [pageBase, dieBase, tke_FAULT_TASK, tmt_HALT_INFO]; omega)
      (by simp only [pageBase, dieBase, tke_FAULT_TASK, hSTATUS]; omega)
      (by simp only [pageBase, dieBase, tke_FAULT_TASK, tck_PHASE]; omega), herr, rd_engineErred_task, hctx]
  · rw [ht, rd_haltSlot_ne _ _ _ _ _ _ (by decide) (by simp only [pageBase, dieBase, tke_FAULT_INFO, tmt_HALT_INFO]; omega)
      (by simp only [pageBase, dieBase, tke_FAULT_INFO, hSTATUS]; omega)
      (by simp only [pageBase, dieBase, tke_FAULT_INFO, tck_PHASE]; omega), herr, rd_engineErred_info]
    omega
  · exact (congrArg (phase · k) ht).trans (phase_haltSlot ..)
  · have keep := (coreErred_keeps (s := s) (p := .tckG k) (k := cid id) (by simp only [corPage, pageBase, dieBase]; omega) code pc op).trans
      (engineErred_condition_keeps (d := d) (by simp only [pageBase, dieBase]; omega) r.ctx code)
    rw [ht, rd_haltSlot_info _ hcode]
    rwa [herr, phase, keep.reads _ (by decide), ← phase]
  · rw [hend.mem, setCtx_mem, mem_coreErred]

end Sys2Proof.Proofs
end
section
/-! Proofs about loads and stores of a program, and the effects that a speculative task defers (R81, R88, R106, R172, R175). -/
namespace Sys2Proof.Proofs
open Sys2Proof.Machine Sys2Proof.Safety Sys2Proof.Laws

/-! ## When an access may go on (R95) -/

theorem readStop_none (s : State) {c : Core} {a n : Nat}
    (h : n = 0 ∨ (mayReadRange c a n = true ∧ readBlocked c a n = false ∧ rangeReady c a n = true)) : readStop s c a n = none := by
  unfold readStop
  rcases h with h0 | ⟨hmay, hfree, hready⟩
  · rw [if_pos h0]
  · simp [hmay, hfree, hready]

theorem readStop_busy (s : State) {c : Core} {a n : Nat} (h0 : n ≠ 0) (hmay : mayReadRange c a n = true)
    (hfree : readBlocked c a n = false) (hbusy : rangeReady c a n = false) : readStop s c a n = some (.stall 4) := by
  simp [readStop, h0, hmay, hfree, hbusy]

theorem writeStop_none (s : State) {c : Core} {r : Run} {a n : Nat}
    (h : n = 0 ∨ (mayWriteRange c r a n = true ∧ writeBlocked c a n = false ∧ rangeReady c a n = true)) :
    writeStop s c r a n = none := by
  unfold writeStop
  rcases h with h0 | ⟨hmay, hfree, hready⟩
  · rw [if_pos h0]
  · simp [hmay, hfree, hready]

/-! ## Format M (R88) -/

/-- Where a vector is loaded or stored, or a word below the window, the access is one of core SRAM. -/
theorem not_window {w a : Nat} (h : isV (fld w 51 5) = true ∨ a < 0x3FF000) :
    ¬ (!isV (fld w 51 5) && decide (windowBase ≤ a)) = true := by
  rcases h with hv | ha
  · simp [hv]
  · have hlow : ¬ windowBase ≤ a := Nat.not_le.mpr ha
    simp [hlow]

/-! ## VLD (R81, R88) -/

section
variable {s : State} {id : CoreId} {r : Run} {w : Nat} (h : Ready s id r w) (hop : opcodeOf w = 0x10)
  (hal : mAddr (getCore s (cid id)) w % mSize w = 0)
include h hop hal

/-- A word of the window is read at once. -/
theorem execVld_window (hv : isV (fld w 51 5) = false) (ha : 0x3FF000 ≤ mAddr (getCore s (cid id)) w) :
    exec (.vld id) s = .next (setCore (drawNat s).2 (cid id) { setReg (getCore s (cid id)) (fld w 51 5)
      (windowWord s (cid id) (getCore s (cid id)) r (mAddr (getCore s (cid id)) w - windowBase)) with
        pc := (getCore s (cid id)).pc + 1, stall := 0 }) := by
  have hwin : (!isV (fld w 51 5) && decide (windowBase ≤ mAddr (getCore s (cid id)) w)) = true := by simp [hv, windowBase, ha]
  rw [exec_next rfl h hop ((if_neg (not_not_intro hal)).trans (if_pos hwin)) (by simp), getCore_setCore, setCore_setCore]

variable (hacc : isV (fld w 51 5) = true ∨ mAddr (getCore s (cid id)) w < 0x3FF000)
include hacc

theorem execVld_busy (hstop : readStop s (getCore s (cid id)) (mAddr (getCore s (cid id)) w)
    (mLanes (getCore s (cid id)) w * mSize w) = some (.stall 4)) : exec (.vld id) s = .next (stalls s id 4) := by
  refine exec_stalls rfl h hop ?_
  simp only [hal, ne_eq, not_true_eq_false, if_false, if_neg (not_window hacc), hstop]

variable (hstop : readStop s (getCore s (cid id)) (mAddr (getCore s (cid id)) w) (mLanes (getCore s (cid id)) w * mSize w) = none)
  (hcheck : coreCheck s (cid id) (some r.ctx) (mAddr (getCore s (cid id)) w) (mLanes (getCore s (cid id)) w * mSize w) = (s, false))
include hstop hcheck

/-- The lane j that a load gives. -/
def loadedLane (s : State) (k : Nat) (r : Run) (w j : Nat) : W32 :=
  laneOf (fld w 46 2) (bytesAt (coreBytes s k (some r.ctx) (mAddr (getCore s k) w) (mLanes (getCore s k) w * mSize w)) (j * mSize w)
    (mSize w))

theorem execVld_word (hv : isV (fld w 51 5) = false) :
    exec (.vld id) s = .next (goesOn s id (setReg (getCore s (cid id)) (fld w 51 5) (loadedLane s (cid id) r w 0))) := by
  refine exec_goesOn rfl h hop ?_
  simp only [hal, ne_eq, not_true_eq_false, if_false, if_neg (not_window hacc), hstop, hcheck, Bool.false_eq_true]
  rw [hv]
  rfl

theorem execVld_vector (hv : isV (fld w 51 5) = true) : ∃ v : List W32,
    exec (.vld id) s = .next (goesOn s id (setVec (getCore s (cid id)) (fld w 51 5) v)) ∧
    ∀ j < 64, v.getD j 0 = if j < mLanes (getCore s (cid id)) w then loadedLane s (cid id) r w j
      else (vecVal (getCore s (cid id)) (fld w 51 5)).getD j 0 := by
  refine ⟨mergeLanes (mLanes (getCore s (cid id)) w) ((List.range (mLanes (getCore s (cid id)) w)).map (loadedLane s (cid id) r w))
      (vecVal (getCore s (cid id)) (fld w 51 5)),
    exec_goesOn rfl h hop ?_, fun j _ => ?_⟩
  · simp only [hal, ne_eq, not_true_eq_false, if_false, if_neg (not_window hacc), hstop, hcheck, Bool.false_eq_true]
    rw [hv]
    rfl
  · rw [getD_mergeLanes (by simp)]
    split
    next hj => simp [List.getD_eq_getElem?_getD, hj]
    next => rfl

end

/-- Settles O7: a word of the window, a range that may be read, and one that is not ready. -/
theorem loadFromCoreSram : Obligations.LoadFromCoreSram := by
  unfold Obligations.LoadFromCoreSram
  intro s id r w h hop c rd wd sz a n bs lane hal
  refine ⟨fun hv ha => ⟨_, execVld_window h hop hal hv ha, getCore_setCore .., rfl, rfl⟩, fun hacc hmay => ⟨fun hready hcheck => ?_, ?_⟩⟩
  · have hstop : readStop s c a (n * sz) = none := readStop_none s (by
      rcases hmay with h0 | ⟨hm, hb⟩
      · exact .inl (by rw [h0, Nat.zero_mul])
      · rcases hready with h0 | hr
        · exact .inl (by rw [h0, Nat.zero_mul])
        · exact .inr ⟨hm, hb, hr⟩)
    refine ⟨fun hv => ?_, execVld_vector h hop hal hacc hstop hcheck⟩
    exact execVld_word h hop hal hacc hstop hcheck hv
  · intro hn hbusy
    obtain ⟨hm, hb⟩ := hmay.resolve_left hn
    have hsz : sz ≠ 0 := by unfold sz; split <;> decide
    exact execVld_busy h hop hal hacc (readStop_busy s (Nat.mul_ne_zero hn hsz) hm hb hbusy)

/-! ## The deferral list (R106, R172, R175) -/

theorem storePieces_nil (k : Nat) (ps : List (Nat × Nat)) (s : State) : storePieces k ps [] s = s := by
  induction ps with
  | nil => rfl
  | cons p ps ih => rw [storePieces, List.take_nil, List.drop_nil, store_clean s _ [] rfl rfl, memWrite, ih]

/-- An effect without bytes has room while fewer than 64 are held. -/
theorem deferRoom_zero (c : Core) : deferRoom c 0 = decide ((deferHeld c).length < 64) := by simp [deferRoom]

section
variable {s : State} {id : CoreId} {r : Run} {w op : Nat} {i : Instr} {f : State → Nat → Core → Run → Nat → Eff}
  {bs : List Byte} {e : Nat → Deferred}
  (he : exec i s = answer s (issue s id op f)) (h : Ready s id r w) (hop : opcodeOf w = op)
  (hf : f s (cid id) (getCore s (cid id)) r w = deferEff s (cid id) (getCore s (cid id)) r bs e)
include he h hop hf

/-- An effect that has room enters the list, its bytes the ring, and the task goes on. -/
theorem exec_defers (hroom : deferRoom (getCore s (cid id)) bs.length = true) : exec i s =
    .next (goesOn (storePieces (cid id) (ringParts (getCore s (cid id)) ((ringAt (getCore s (cid id)) bs.length).getD 0) bs.length) bs s) id
      { getCore s (cid id) with
        deferred := (getCore s (cid id)).deferred ++ [(r.ctx, e ((ringAt (getCore s (cid id)) bs.length).getD 0))] }) := by
  have hcore : ∀ ps, getCore (storePieces (cid id) ps bs s) (cid id) = getCore s (cid id) := fun ps =>
    getCore_of_cores (BesideMemory.cores.storePieces ..) _
  have hawaits : ∀ c, awaits (deferPut s (cid id) c r.ctx bs e) = awaits s := fun c =>
    (awaits_setCore ..).trans (BesideMemory.awaits.storePieces ..)
  rw [exec_next he h hop (hf.trans (if_pos hroom)) (hawaits _), deferPut, getCore_setCore, setCore_setCore, goesOn, hcore]

theorem exec_defers_nil (hbs : bs = []) (hroom : (deferHeld (getCore s (cid id))).length < 64) : exec i s = .next (goesOn s id
    { getCore s (cid id) with
      deferred := (getCore s (cid id)).deferred ++ [(r.ctx, e ((ringAt (getCore s (cid id)) 0).getD 0))] }) := by
  subst hbs
  rw [exec_defers he h hop hf ((deferRoom_zero _).trans (decide_eq_true hroom)), storePieces_nil]
  rfl

variable (hroom : deferRoom (getCore s (cid id)) bs.length = false)
include hroom

/-- Without room a task that is not NARROW waits to be confirmed, and a NARROW attempt faults. -/
theorem exec_defer_waits (hn : r.narrow = false) : exec i s = .next (stalls s id 5) :=
  exec_stalls he h hop (hf.trans (by simp [deferEff, hroom, hn]))

theorem exec_defer_faults (hn : r.narrow = true) :
    exec i s = .next (programError s (cid id) r 0x0B (getCore s (cid id)).pc op) :=
  exec_prot he h hop (hf.trans (by simp [deferEff, hroom, hn]))

end

/-! ## What a program's store changes (R81, R173) -/

theorem copyStored_sound {s : State} (h : Sound s) (a b n : Nat) : copyStored s a b n = { s with mem := (copyStored s a b n).mem } := by
  have hbad : badWords s a n = [] := badWords_nil _ _ _ h.1
  simp only [copyStored, checkRead_clean s a n hbad, ueWords, hbad, List.filter_nil, List.map_nil, storePoisoned, store_sound h]
  exact memWrite_eq ..

/-- A state that differs in memory and cores alone. -/
def OnlyMemCores (s t : State) : Prop := t = { s with mem := t.mem, cores := t.cores }

namespace OnlyMemCores
variable {s t u : State}

theorem refl (s : State) : OnlyMemCores s s := rfl

theorem trans (h : OnlyMemCores s t) (g : OnlyMemCores t u) : OnlyMemCores s u := by
  unfold OnlyMemCores at h g ⊢
  rw [h] at g
  exact g

theorem sound (h : OnlyMemCores s t) (hs : Sound s) : Sound t := by
  unfold OnlyMemCores at h
  rw [h]
  exact hs

theorem openSlab (hs : Sound s) (k ctx i j : Nat) : OnlyMemCores s (openSlab k ctx i j s) := by
  have hcopy : ∀ a b, OnlyMemCores s (copyStored s a b 1024) := fun a b => by
    unfold OnlyMemCores
    rw [copyStored_sound hs]
  unfold Machine.openSlab
  extract_lets c x lo hi v
  split
  · exact refl s
  · have hv : OnlyMemCores s v := by
      unfold v
      split
      · exact hcopy ..
      · exact hcopy ..
    exact hv.trans rfl

theorem openSlabs (hs : Sound s) (k : Nat) (r : Run) (a n : Nat) : OnlyMemCores s (openSlabs k r a n s) := by
  unfold Machine.openSlabs
  split
  · refine fold_keeps (P := OnlyMemCores s) _ (fun t i h => h.trans ?_) _ _ (refl s)
    dsimp only
    split
    · exact openSlab (h.sound hs) ..
    · exact refl t
  · exact refl s

theorem coreStore (hs : Sound s) (k : Nat) (ctx : Option Nat) (a : Nat) (bs : List Byte) : OnlyMemCores s (coreStore s k ctx a bs) := by
  unfold OnlyMemCores Machine.coreStore
  rw [storePieces_eq _ hs]

theorem progStore (hs : Sound s) (k : Nat) (r : Run) (a : Nat) (bs : List Byte) : OnlyMemCores s (progStore s k r a bs) := by
  have hopen := openSlabs hs k r a bs.length
  have hstore := hopen.trans (coreStore (hopen.sound hs) k (some r.ctx) a bs)
  unfold Machine.progStore
  dsimp only
  split
  · exact hstore.trans rfl
  · exact hstore

theorem regs (h : OnlyMemCores s t) : t.regs = s.regs := by
  unfold OnlyMemCores at h
  rw [h]

theorem awaits (h : OnlyMemCores s t) : awaits t = awaits s := by
  unfold OnlyMemCores at h
  rw [h]
  rfl

end OnlyMemCores

/-- A core without a shadow region opens no slab. -/
theorem openSlabs_unshadowed {s : State} {k : Nat} (hc : (getCore s k).shadows = []) (r : Run) (a n : Nat) : openSlabs k r a n s = s := by
  unfold openSlabs
  split
  · refine fold_keeps (P := fun t => t = s) _ (fun t i h => ?_) _ _ rfl
    subst h
    simp [shadowOf, hc]
  · rfl

/-- On such a core a store stands where it is addressed. -/
theorem rdByte_progStore_unshadowed {s : State} {k : Nat} (hs : Sound s) (hc : (getCore s k).shadows = []) (r : Run) (a : Nat)
    (bs : List Byte) {i : Nat} (hi : i < bs.length) : rdByte (progStore s k r a bs) (coreAddr k (a + i)) = bs.getD i 0 := by
  have hmem : (progStore s k r a bs).mem = (memWrite s (coreAddr k a) bs).mem := by
    unfold progStore
    rw [openSlabs_unshadowed hc, coreStore_unshadowed hs hc]
    dsimp only
    split
    · rfl
    · rfl
  have hbyte : rdByte (progStore s k r a bs) (coreAddr k (a + i)) = rdByte (memWrite s (coreAddr k a) bs) (coreAddr k a + i) := by
    rw [rdByte, hmem, ← rdByte, coreAddr_add]
  rw [hbyte, rdByte_memWrite_in _ _ _ _ hi, List.getD_eq_getElem?_getD, List.getElem?_eq_getElem hi, Option.getD_some]

/-! ## VST (R81, R88) -/

section
variable {s : State} {id : CoreId} {r : Run} {w : Nat} (h : Ready s id r w) (hop : opcodeOf w = 0x11)
  (hal : mAddr (getCore s (cid id)) w % mSize w = 0)
include h hop hal

section
variable (hv : isV (fld w 51 5) = false) (ha : 0x3FF000 ≤ mAddr (getCore s (cid id)) w)
include hv ha

/-- A word of the window beyond the AMAX words ignores a store. -/
theorem execVst_ignored (ho : 0x3FF040 ≤ mAddr (getCore s (cid id)) w) : exec (.vst id) s = .next (goesOn s id (getCore s (cid id))) := by
  have hwin : (!isV (fld w 51 5) && decide (windowBase ≤ mAddr (getCore s (cid id)) w)) = true := by simp [hv, windowBase, ha]
  have hoff : 0x40 ≤ mAddr (getCore s (cid id)) w - windowBase := by simp only [windowBase]; omega
  exact exec_goesOn_self rfl h hop ((if_neg (not_not_intro hal)).trans ((if_pos hwin).trans (if_pos hoff)))

variable (ho : mAddr (getCore s (cid id)) w < 0x3FF040)
include ho

theorem execVst_amax (hspec : r.speculative = false) : exec (.vst id) s =
    .next (goesOn (wr s (corPage (cid id)) (cor_AMAX_n + (mAddr (getCore s (cid id)) w - windowBase))
      (regVal (getCore s (cid id)) (fld w 51 5)).toNat) id (getCore s (cid id))) := by
  have hwin : (!isV (fld w 51 5) && decide (windowBase ≤ mAddr (getCore s (cid id)) w)) = true := by simp [hv, windowBase, ha]
  have hoff : ¬ 0x40 ≤ mAddr (getCore s (cid id)) w - windowBase := by simp only [windowBase]; omega
  exact exec_goesOn_beside rfl h hop ((if_neg (not_not_intro hal)).trans ((if_pos hwin).trans ((if_neg hoff).trans
    (if_neg (by rw [hspec]; exact Bool.false_ne_true))))) (awaits_wr ..) (getCore_wr ..)

omit h hop in
/-- A store to an AMAX word, of a speculative task, is an effect to defer. -/
theorem execVst_amax_eff (hspec : r.speculative = true) : ∃ f, exec (.vst id) s = answer s (issue s id 0x11 f) ∧
    f s (cid id) (getCore s (cid id)) r w = deferEff s (cid id) (getCore s (cid id)) r []
      (fun _ => .amax ((mAddr (getCore s (cid id)) w - windowBase) / 4) (regVal (getCore s (cid id)) (fld w 51 5))) := by
  have hwin : (!isV (fld w 51 5) && decide (windowBase ≤ mAddr (getCore s (cid id)) w)) = true := by simp [hv, windowBase, ha]
  have hoff : ¬ 0x40 ≤ mAddr (getCore s (cid id)) w - windowBase := by simp only [windowBase]; omega
  exact ⟨_, rfl, (if_neg (not_not_intro hal)).trans ((if_pos hwin).trans ((if_neg hoff).trans (if_pos hspec)))⟩

end

/-- The bytes that a VST stores. -/
def storedBytes (c : Core) (w : Nat) : List Byte :=
  if isV (fld w 51 5) then ((vecVal c (fld w 51 5)).take (mLanes c w)).flatMap (laneBytes (fld w 46 2))
  else toBytes 4 (regVal c (fld w 51 5)).toNat

/-- Elsewhere the program's store takes place, and the task goes on. -/
theorem execVst_stores (hs : Sound s) (hacc : isV (fld w 51 5) = true ∨ mAddr (getCore s (cid id)) w < 0x3FF000)
    (hstop : writeStop s (getCore s (cid id)) r (mAddr (getCore s (cid id)) w) (mLanes (getCore s (cid id)) w * mSize w) = none) :
    ∃ e : Core, e.pc = (getCore s (cid id)).pc + 1 ∧ exec (.vst id) s =
      .next (setCore (progStore s (cid id) r (mAddr (getCore s (cid id)) w) (storedBytes (getCore s (cid id)) w)) (cid id) e) := by
  refine ⟨_, rfl, exec_next rfl h hop ?_ (OnlyMemCores.progStore hs ..).awaits⟩
  simp only [hal, ne_eq, not_true_eq_false, if_false, if_neg (not_window hacc), hstop]
  rfl

end

/-- Settles O8: the AMAX words, the other words of the window, and the stores of core SRAM. -/
theorem storeToCoreSram : Obligations.StoreToCoreSram := by
  unfold Obligations.StoreToCoreSram
  intro s id r w h hop hsynd hhard c rs wd sz a n bs hal
  have hs : Sound s := ⟨hsynd, hhard⟩
  refine ⟨fun hv ha ho => ⟨fun hspec => execVst_amax h hop hal hv ha ho hspec, fun hspec => ?_⟩,
    fun hv ho => execVst_ignored h hop hal hv (Nat.le_trans (by decide) ho) ho, fun hacc hmay => ?_⟩
  · obtain ⟨f, he, hf⟩ := execVst_amax_eff hal hv ha ho hspec
    refine ⟨fun hroom => exec_defers_nil he h hop hf rfl hroom, fun hfull => ?_, fun hfull => ?_⟩
    · exact exec_defer_waits he h hop hf ((deferRoom_zero _).trans (decide_eq_false (Nat.not_lt.mpr hfull)))
    · exact exec_defer_faults he h hop hf ((deferRoom_zero _).trans (decide_eq_false (Nat.not_lt.mpr hfull)))
  · have hstop : writeStop s c r a (n * sz) = none := writeStop_none s (hmay.imp_left fun h0 => by rw [h0, Nat.zero_mul])
    obtain ⟨e, hpc, he⟩ := execVst_stores h hop hal hs hacc hstop
    refine ⟨_, he, by rw [getCore_setCore, hpc], (OnlyMemCores.progStore hs ..).regs, fun hc i hi => ?_, fun hspec x hx => ?_⟩
    · exact rdByte_progStore_unshadowed hs hc r a bs hi
    · exact (rdByte_progStore hspec hs a bs x).trans (rdByte_storePieces_out hx hs bs)

end Sys2Proof.Proofs
end
section
/-! Proofs about the send queue, semaphores and fences (R91 to R94, R103 to R106, R172). -/
namespace Sys2Proof.Proofs
open Sys2Proof.Machine Sys2Proof.Safety Sys2Proof.Laws

/-! ## The send queue (R91, R94) -/

section
variable {s : State} {id : CoreId} {r : Run} {w op : Nat} {i : Instr} {f : State → Nat → Core → Run → Nat → Eff} {t : Token}
  {mark : Option Nat} (he : exec i s = answer s (issue s id op f)) (h : Ready s id r w) (hop : opcodeOf w = op)
  (hf : f s (cid id) (getCore s (cid id)) r w = sendEff s (cid id) (getCore s (cid id)) r t mark)
  (hspec : r.speculative = false)
include he h hop hf hspec

/-- A token of a task that is not speculative enters a send queue with room. -/
theorem exec_sends (hrel : (getCore s (cid id)).releasing = []) (hroom : sendRoom s (cid id) = true) : exec i s =
    .next (goesOn s id { getCore s (cid id) with
      sendq := (getCore s (cid id)).sendq ++ [⟨t, .task (cid id) r.ctx, slotOf s (cid id / 384)⟩],
      sigs := (getCore s (cid id)).sigs ++ mark.toList }) :=
  exec_goesOn he h hop (hf.trans (by simp [sendEff, hspec, hrel, hroom, sendPut]))

theorem exec_send_full (hroom : sendRoom s (cid id) = false) : exec i s = .next (stalls s id 5) :=
  exec_stalls he h hop (hf.trans (by simp [sendEff, hspec, hroom]))

end

/-- A speculative task defers a token with its payload, a SIGNAL with its mark alone. -/
theorem sendEff_speculative {r : Run} (h : r.speculative = true) (s : State) (k : Nat) (c : Core) (t : Token) :
    sendEff s k c r t none = deferEff s k c r t.payload (.send t) := if_pos h

theorem sendEff_signal_speculative {r : Run} (h : r.speculative = true) (s : State) (k : Nat) (c : Core) (t : Token) (m : Nat) :
    sendEff s k c r t (some m) = deferEff s k c r [] (fun _ => .signal t m) := if_pos h

/-- The token of a SEND. -/
def sendToken (s : State) (k : Nat) (r : Run) (w : Nat) (e : End) : Token :=
  let c := getCore s k
  { taskSends s k r 1 (if w.testBit 40 then 1 else 0) (fld w 35 5) e (regVal c (fld w 25 5)).toNat with
    slot := (regVal c (fld w 30 5)).toNat % 16, length := fld w 41 7, arm := w.testBit 9,
    offset := if w.testBit 40 then 0 else fld w 10 15, dcount := if w.testBit 40 then fld w 10 15 else 0,
    payload := coreBytes s k (some r.ctx) (areg c (fld w 48 3)) (32 * fld w 41 7) }

/-- A SEND to a legal destination whose payload may be read comes to the sending of its token. -/
theorem execSend_eff {s : State} {k : Nat} {r : Run} {w : Nat} {e : End} (hdest : destOf s (regVal (getCore s k) (fld w 51 5)).toNat = some e)
    (hstop : readStop s (getCore s k) (areg (getCore s k) (fld w 48 3)) (32 * fld w 41 7) = none)
    (hcheck : coreCheck s k (some r.ctx) (areg (getCore s k) (fld w 48 3)) (32 * fld w 41 7) = (s, false)) :
    ∃ f, (∀ id, exec (.send id) s = answer s (issue s id 0x30 f)) ∧
      f s k (getCore s k) r w = sendEff s k (getCore s k) r (sendToken s k r w e) none := by
  refine ⟨_, fun id => rfl, ?_⟩
  simp only [hdest, hstop, hcheck, Bool.false_eq_true, if_false]
  rfl

/-- The head of the send queue sets out on the mesh of its own module. -/
theorem execSendTransmit_leaves {s : State} {id : CoreId} {f : Flight} {rest : List Flight}
    (hq : (getCore s (cid id)).sendq = f :: rest) (hrel : (getCore s (cid id)).releasing = []) (hgo : canLeave s f = true)
    (hsig : signalHeld s (cid id) f = false) (hmod : f.tok.dest.mod = moduleNo s)
    (hdest : (f.tok.dest.die < 8 ∧ slotOf s f.tok.dest.die = f.pslot) ∨ (f.tok.dest.die = 8 ∧ hubEndpoint f.tok.dest.core = true)) :
    execSendTransmit id s = { setCore s (cid id) { getCore s (cid id) with
      sendq := rest, sigs := if f.tok.kind = 5 then (getCore s (cid id)).sigs.tail else (getCore s (cid id)).sigs }
        with net := s.net ++ [f] } := by
  have hnear : ∀ c, netSend (setCore s (cid id) c) f.tok f.owner f.pslot =
      { setCore s (cid id) c with net := s.net ++ [f] } := fun c =>
    netSend_near (setCore s (cid id) c) f.tok f.owner f.pslot hmod
      (fun h8 => (hdest.resolve_right fun h => by omega).2) (fun h8 => hdest.resolve_left fun h => by omega)
  simp only [execSendTransmit, hq, hgo, hsig, Bool.not_true, Bool.or_self, Bool.false_eq_true, if_false, hnear]
  exact pumpAll_nil ((congrArg Core.releasing (getCore_setCore s (cid id) _)).trans hrel)

/-- Settles O14: SEND by the queue or by the deferral of its token, SEND_TRANSMIT by the mesh. -/
theorem sendAndTransmit : Obligations.SendAndTransmit := by
  unfold Obligations.SendAndTransmit
  refine ⟨?_, fun s id f rest hq hrel hgo hsig hmod hdest => congrArg (answer s) (execSendTransmit_leaves hq hrel hgo hsig hmod hdest)⟩
  intro s id r w e h hop k c n a control hdest hmay hcheck at_ t
  obtain ⟨f, he, hf⟩ := execSend_eff hdest (readStop_none s hmay) hcheck
  refine ⟨fun hspec hrel => ⟨fun hroom => ?_, exec_send_full (he id) h hop hf hspec⟩, fun hspec => ?_⟩
  · rw [exec_sends (he id) h hop hf hspec hrel hroom, Option.toList_none, List.append_nil]
    rfl
  · have hd := hf.trans (sendEff_speculative hspec ..)
    exact ⟨exec_defers (he id) h hop hd, exec_defer_waits (he id) h hop hd, exec_defer_faults (he id) h hop hd⟩

/-- A SIGNAL to a legal destination comes to the sending of its token, its semaphore in TAG and its count in VALUE. -/
theorem execSignal_eff {s : State} {id : CoreId} {r : Run} {w : Nat} {e : End}
    (hdest : destOf s (regVal (getCore s (cid id)) (fld w 51 5)).toNat = some e) :
    ∃ f, exec (.signal id) s = answer s (issue s id 0x42 f) ∧ f s (cid id) (getCore s (cid id)) r w =
      sendEff s (cid id) (getCore s (cid id)) r (taskSends s (cid id) r 0 5 (fld w 43 5) e (fld w 0 16))
        (some (getCore s (cid id)).serial) :=
  ⟨_, rfl, by simp only [hdest]⟩

/-! ## Fences (R105, R236) -/

theorem each_cons {α σ : Type} (a : α) (l : List α) (f : α → σ → σ) (s : σ) : each (a :: l) f s = each l f (f a s) := rfl

/-- The end of a gather epoch counts on the die's GCH page and empties the die's lines. -/
theorem endGatherEpoch_eq (d : Nat) (s : State) : ∃ n, endGatherEpoch d s =
    setDie (bump (bump s (.gch d) gch_RA_EVICT n) (.gch d) gch_INVALIDATIONS 1) d { getDie s d with lines := [] } := ⟨_, rfl⟩

theorem cores_endGatherEpochs (l : List Nat) (s : State) : (each l endGatherEpoch s).cores = s.cores :=
  each_keep State.cores endGatherEpoch (fun d s => by
    obtain ⟨n, e⟩ := endGatherEpoch_eq d s
    rw [e, setDie_cores, bump_cores, bump_cores]) l s

theorem awaits_endGatherEpochs (l : List Nat) (s : State) : awaits (each l endGatherEpoch s) = awaits s :=
  awaits_each (fun _ _ => by simp [endGatherEpoch]) l s

/-- The end of a die's gather epoch empties its lines, and no other die's end brings any back. -/
theorem lines_endGatherEpoch {s : State} {d e : Nat} (h : d = e ∨ (getDie s d).lines = []) : (getDie (endGatherEpoch e s) d).lines = [] := by
  obtain ⟨n, he⟩ := endGatherEpoch_eq e s
  rw [he]
  by_cases hde : d = e
  · rw [hde, getDie_setDie]
  · rw [getDie_setDie_ne _ _ hde, getDie_bump, getDie_bump, h.resolve_left hde]

theorem lines_endGatherEpochs (l : List Nat) (s : State) {d : Nat} (h : d ∈ l ∨ (getDie s d).lines = []) :
    (getDie (each l endGatherEpoch s) d).lines = [] := by
  induction l generalizing s with
  | nil => exact h.resolve_left List.not_mem_nil
  | cons e l ih =>
    rw [each_cons]
    refine ih _ ?_
    rcases h with hm | hl
    · exact (List.mem_cons.mp hm).symm.imp_right fun hde => lines_endGatherEpoch (.inl hde)
    · exact .inr (lines_endGatherEpoch (.inr hl))

theorem execFenceComplete_ends {s : State} {id : CoreId} {r : Run} {scope : Nat} (hrun : (getCore s (cid id)).run = some r)
    (hwait : (getCore s (cid id)).wait = .fence scope) (hrel : (getCore s (cid id)).releasing = [])
    (hgo : runs s (cid id / 384) = true) (hend : r.ended = false) (hhalt : (getCore s (cid id)).halted = false)
    (hdone : fenceDone s (cid id) r.ctx scope = true) :
    execFenceComplete id s = setCore (each (fenceDies s (cid id / 384) scope) endGatherEpoch s) (cid id)
      { getCore s (cid id) with wait := .none, pc := (getCore s (cid id)).pc + 1, stall := 0 } := by
  have hcore := getCore_of_cores (cores_endGatherEpochs (fenceDies s (cid id / 384) scope) s) (cid id)
  simp only [execFenceComplete, hrel, hrun, hwait, hgo, hend, hhalt, hdone, hcore, List.all_nil, Bool.not_false, Bool.and_self, if_true]

/-- Settles O16: each instruction by what it comes to, the end of a fence by the gather epochs that it ends. -/
theorem semaphoresAndFences : Obligations.SemaphoresAndFences := by
  unfold Obligations.SemaphoresAndFences
  refine ⟨?_, ?_⟩
  · intro s id r w h k c n cnt
    refine ⟨fun hop hk => ⟨fun hc => ?_, fun hc => ?_⟩, ?_, fun hop e hdest hspec hroom => ?_,
      fun hop hspec hscope hroom => ?_, fun hop e hdest hspec hrel => ?_, fun hop hspec => ?_⟩
    · refine ⟨_, exec_goesOn rfl h hop ((if_pos hk).trans (if_neg (Nat.not_lt.mpr hc))), ?_, ?_, fun j hj => ?_, ?_⟩
      all_goals rw [goesOn, getCore_setCore]
      · exact tget_tset_same ..
      · exact tget_tset_ne _ _ _ hj
    · exact exec_stalls rfl h hop ((if_pos hk).trans (if_pos hc))
    · intro hop hk g m
      have hrange : ¬ fld w 48 2 = 0 := by omega
      exact ⟨fun hr => exec_goesOn_self rfl h hop ((if_neg hrange).trans (if_pos hr)),
        fun hr => exec_stalls rfl h hop ((if_neg hrange).trans (if_neg (ne_true_of_eq_false hr)))⟩
    · obtain ⟨f, he, hf⟩ := execSignal_eff hdest
      exact ⟨_, exec_defers_nil he h hop (hf.trans (sendEff_signal_speculative hspec ..)) rfl hroom, rfl, rfl, rfl, rfl, rfl⟩
    · have hdefer : (r.speculative && fld w 48 2 != 0) = true := by simpa [hspec] using hscope
      exact exec_defers_nil (e := fun _ => .fence (fld w 48 2)) rfl h hop (if_pos hdefer) rfl hroom
    · obtain ⟨f, he, hf⟩ := execSignal_eff hdest
      exact ⟨fun hroom => ⟨_, exec_sends he h hop hf hspec hrel hroom, rfl, rfl, rfl, rfl, rfl, rfl⟩, exec_send_full he h hop hf hspec⟩
    · have hnow : ¬ (r.speculative && fld w 48 2 != 0) = true := by rcases hspec with e | e <;> simp [e]
      rw [exec_holds rfl h hop (if_neg hnow) (awaits_setCore ..), getCore_setCore, setCore_setCore]
  · intro s id r scope k c hrun hwait hrel hgo hend hhalt hdone
    refine ⟨_, exec_of_awaits (congrArg (answer s) (execFenceComplete_ends hrun hwait hrel hgo hend hhalt hdone)) ?_, ?_, ?_, fun _ d hd => ?_⟩
    · rw [awaits_setCore, awaits_endGatherEpochs]
    · rw [getCore_setCore]
    · rw [getCore_setCore]
    · exact lines_endGatherEpochs _ _ (.inl hd)

end Sys2Proof.Proofs
end
section
/-! Refutation about RECV (R101, R364): a core's released effects go on with it, and their reads correct memory. -/
namespace Sys2Proof.Proofs
open Sys2Proof.Machine Sys2Proof.Safety Sys2Proof.Laws

/-- A read over one word whose data bit n is wrong corrects that bit (R364). -/
theorem checkRead_corrects {s : State} {a len w n : Nat} {p : Page} (hs : badWords s a len = [(w, column n)]) (hn : n < 64)
    (hp : eccPage (8 * w) = some p) : (checkRead s a len).2 = false ∧
    rdByte (checkRead s a len).1 (8 * w + n / 8) = rdByte s (8 * w + n / 8) ^^^ BitVec.ofNat 8 (2 ^ (n % 8)) := by
  have hbit : syndBit (column n) = some n := syndBit_column n (by omega)
  have hbyte : ∀ u v : State, u.mem = v.mem → rdByte u (8 * w + n / 8) = rdByte v (8 * w + n / 8) := fun u v h => by
    rw [rdByte, h, ← rdByte]
  rw [checkRead, hs]
  simp only [List.foldl_cons, List.foldl_nil, readBad, hp, hbit]
  refine ⟨trivial, ?_⟩
  rw [hbyte _ (flipBit (countErr s p (eccSource (8 * w)) (column n).toNat (eccWord (8 * w)) false false) w n)
    (by rw [noteCorrection_mem, setSynd_mem]), flipBit, if_pos hn, rdByte_wrByte, hbyte _ s (countErr_mem ..)]

theorem BesideMemory.ringRead {β : Type} {g : State → β} (hg : BesideMemory g) (s : State) (k a n : Nat) : g (ringRead s k a n).1 = g s :=
  List.foldlRecOn (motive := fun r : State × Bool => g r.1 = g s) _ _ rfl fun _ h _ _ => (hg.checkRead ..).trans h

/-- The one SEND that a core has released enters the send queue with its bytes as the ring gives them, and memory is as their read
leaves it. -/
theorem pumpAll_send_mem {s : State} {k i a : Nat} {t : Token} (hr : (getCore s k).releasing = [(i, .send t a)])
    (hroom : sendRoom s k = true)
    (hclean : (ringRead (setCore s k { getCore s k with releasing := [] }) k a (32 * t.length)).2.2 = false) :
    (pumpAll s k).mem = (ringRead (setCore s k { getCore s k with releasing := [] }) k a (32 * t.length)).1.mem := by
  have hring := BesideMemory.cores.ringRead (setCore s k { getCore s k with releasing := [] }) k a (32 * t.length)
  rw [pumpAll, hr, List.length_singleton, pump]
  simp only [hr, hroom, if_true, snapshot, hclean, Bool.false_eq_true, if_false]
  rw [pump]
  have hend : ∀ (u : State) (t : Token), u.cores = (setCore s k { getCore s k with releasing := [] }).cores →
      (getCore (sendPut u k i t none) k).releasing = [] := fun u t h => by
    rw [sendPut, getCore_setCore, getCore_of_cores h, getCore_setCore]
  simp only [hend _ _ hring]
  rfl

/-- RECV of a record takes it and lets the core's released effects go on. -/
theorem execRecv_takes {s : State} {id : CoreId} {r : Run} {w : Nat} {v : W32} (h : Ready s id r w) (hop : opcodeOf w = 0x31)
    (hv : (getHold (getCore s (cid id)) (fld w 45 5) ((regVal (getCore s (cid id)) (fld w 40 5)).toNat % 16)).record = some v)
    {e : Core} (he : setReg (setHold (getCore s (cid id)) (fld w 45 5) ((regVal (getCore s (cid id)) (fld w 40 5)).toNat % 16)
      { getHold (getCore s (cid id)) (fld w 45 5) ((regVal (getCore s (cid id)) (fld w 40 5)).toNat % 16) with
        record := none, taken := if r.speculative then some (r.ctx, v) else none,
        sample := if r.speculative then
          (getHold (getCore s (cid id)) (fld w 45 5) ((regVal (getCore s (cid id)) (fld w 40 5)).toNat % 16)).sample else 0 })
      (fld w 51 5) v = e) :
    ∃ c : Core, exec (.recv id) s = .next (setCore (pumpAll (setCore s (cid id) e) (cid id)) (cid id) c) :=
  ⟨_, exec_next rfl h hop (by simp only [hv, he]) (by rw [awaits_pumpAll, awaits_setCore])⟩

/-- A core of which one task receives while another's released SEND, its bytes at 0 of the core, waits for the send queue. -/
def receiver : Core :=
  { Core.reset with
    pc := 4, run := some ⟨3, 3, 1, 0, 0, false, false, 7, 7, 0, 0, 0, false, 0, 0, 0, 0, false⟩,
    holds := [(0, { Hold.none with record := some 9 })],
    releasing := [(5, .send ⟨1, 0, 0, 0, 1, false, 0, ⟨1, 0, 0⟩, ⟨0, 0, 0⟩, 0, 0, 1, 0, []⟩ 0)] }

/-- The module in RUN with that core at site 0 of die 0, RECV at its word 4, and a single-bit error in the word at address 0. -/
def receiving : State :=
  { setPhase State.reset 0 3 with mem := [(39, 0x31)], synd := [(0, column 0)], cores := [(0, receiver)] }

/-- The core once RECV has taken its record. -/
def received : Core := setReg (setHold receiver 0 0 Hold.none) 0 9

theorem ready_receiving : Ready receiving ⟨0, 0⟩ ⟨3, 3, 1, 0, 0, false, false, 7, 7, 0, 0, 0, false, 0, 0, 0, 0, false⟩ (0x31 * 2 ^ 56) where
  task := by decide +kernel
  goes := by decide +kernel
  inStore := by decide +kernel
  clean := by decide +kernel
  word := by decide +kernel
  legal := by decide +kernel
  narrow := by decide +kernel
  parity := by decide +kernel

/-- The read of the SEND's bytes corrects the word at address 0. -/
theorem ringRead_received : (ringRead (setCore receiving 0 { received with releasing := [] }) 0 0 32).2.2 = false ∧
    rdByte (ringRead (setCore receiving 0 { received with releasing := [] }) 0 0 32).1 0 = 1 := by
  obtain ⟨hclean, hbyte⟩ := checkRead_corrects (s := setCore receiving 0 { received with releasing := [] }) (a := coreAddr 0 0)
    (len := 32) (w := 0) (n := 0) (p := .cor 0 0) rfl (by decide) (by decide)
  have hparts : ringParts (getCore (setCore receiving 0 { received with releasing := [] }) 0) 0 32 = [(0, 0), (0, 32)] := by decide +kernel
  simp only [ringRead, hparts, List.foldl_cons, List.foldl_nil, checkRead_clean _ (coreAddr 0 0) 0 rfl, hclean]
  exact ⟨rfl, hbyte.trans (by decide +kernel)⟩

/-- Refutes O15: the RECV of one task lets another's released SEND into the queue, and the read of its bytes corrects a word. -/
theorem not_recvSteerClaim : ¬ Obligations.RecvSteerClaim := by
  unfold Obligations.RecvSteerClaim
  intro hall
  obtain ⟨hrecv, -⟩ := hall receiving ⟨0, 0⟩ _ _ ready_receiving
  obtain ⟨t, ht, -, hmem, -⟩ := hrecv (by decide +kernel) 9 (by decide +kernel)
  have hcore : getCore (setCore receiving 0 received) 0 = received := getCore_setCore ..
  obtain ⟨hclean, hbyte⟩ := ringRead_received
  have hsent := pumpAll_send_mem (s := setCore receiving 0 received) (k := 0) (i := 5) (a := 0)
    (t := ⟨1, 0, 0, 0, 1, false, 0, ⟨1, 0, 0⟩, ⟨0, 0, 0⟩, 0, 0, 1, 0, []⟩) (by rw [hcore]; decide +kernel) (by decide +kernel)
    (by rw [hcore, setCore_setCore]; exact hclean)
  rw [hcore, setCore_setCore] at hsent
  obtain ⟨c, he⟩ := execRecv_takes (v := 9) (e := received) ready_receiving (by decide +kernel) (by decide +kernel) (by decide +kernel)
  have hfin : t.mem = (pumpAll (setCore receiving 0 received) 0).mem := by
    rw [ht] at he
    cases he
    exact setCore_mem ..
  have hzero : rdByte receiving 0 = 1 := by rw [rdByte, ← hmem, hfin, hsent, ← rdByte]; exact hbyte
  exact absurd hzero (by decide +kernel)

end Sys2Proof.Proofs
end
section
/-! Proofs about the core sites: what the task engine does leaves every core as it is (R166 to R178, R197, R203). -/
namespace Sys2Proof.Proofs
open Sys2Proof.Machine Sys2Proof.Safety Sys2Proof.Laws

/-- The cores of a machine: `State.cores`, under a name that no proof below unfolds, as `awaits` is of `State.pending`. -/
def sites (s : State) : Tab Core := s.cores

theorem sites_congr {s t : State} (h : t.cores = s.cores) : sites t = sites s := h

theorem cores_of_sites {s t : State} (h : sites t = sites s) : t.cores = s.cores := h

theorem sites_of_near {s t : State} (h : Near s t) : sites t = sites s := sites_congr h.cores

theorem BesideMemory.sites : BesideMemory sites := by constructor <;> intros <;> rfl

/-- The cores in the state of a pair, for operations that answer a value beside the state. -/
def sitesFst {α : Type} (q : State × α) : Tab Core := sites q.1

section
variable {α : Type} (s : State) (a : α)

@[simp] theorem sites_fst (q : State × α) : sites q.1 = sitesFst q := by rw [sitesFst]
@[simp] theorem sitesFst_pair : sitesFst (s, a) = sites s := by rw [sitesFst]

end

/-! ## The operations of the state -/

section
variable (s : State) (p : Page) (k o v : Nat)

@[simp] theorem sites_wr : sites (wr s p o v) = sites s := sites_of_near (near_wr ..)
@[simp] theorem sites_bump : sites (bump s p o v) = sites s := sites_of_near (near_bump ..)
@[simp] theorem sites_wrMax : sites (wrMax s p o v) = sites s := sites_of_near (near_wr ..)
@[simp] theorem sites_last : sites (last s p v) = sites s := sites_of_near (near_last ..)
@[simp] theorem sites_setSlot (x : SlotSt) : sites (setSlot s k x) = sites s := sites_of_near (near_setSlot ..)
@[simp] theorem sites_raise : sites (raise s p v) = sites s := sites_of_near (near_raise ..)
@[simp] theorem sites_condition : sites (condition s p o v) = sites s := sites_of_near (near_condition ..)
@[simp] theorem sites_haltSlot (a b d : Nat) (r : Bool) : sites (haltSlot s k a b r d) = sites s := sites_of_near (near_haltSlot ..)
@[simp] theorem sites_windowFault : sites (windowFault s k o v) = sites s := sites_of_near (near_windowFault ..)
@[simp] theorem sites_sampleFault (a b : Nat) : sites (sampleFault s k o v a b) = sites s := sites_of_near (near_sampleFault ..)
@[simp] theorem sites_setDie (x : DieSt) : sites (setDie s k x) = sites s := sites_congr (setDie_cores ..)
@[simp] theorem sites_setCtx (i : Nat) (x : Ctx) : sites (setCtx s k i x) = sites s := sites_congr (setCtx_cores ..)
@[simp] theorem sites_setSynd (x : Byte) : sites (setSynd s k x) = sites s := BesideMemory.sites.setSynd ..
@[simp] theorem sites_countErr (a b : Nat) (u c : Bool) : sites (countErr s p a b v u c) = sites s := BesideMemory.sites.countErr ..
@[simp] theorem sites_noteCorrection (a b : Nat) (u : Bool) : sites (noteCorrection s a b v u) = sites s :=
  BesideMemory.sites.noteCorrection ..
@[simp] theorem sites_checkRead (a n : Nat) : sitesFst (checkRead s a n) = sites s := BesideMemory.sites.checkRead ..
@[simp] theorem sites_coreCheck (c : Option Nat) (a n : Nat) : sitesFst (coreCheck s k c a n) = sites s := BesideMemory.sites.coreCheck ..
@[simp] theorem sites_ringRead (a n : Nat) : sitesFst (ringRead s k a n) = sites s := BesideMemory.sites.ringRead ..
@[simp] theorem sites_drawNat : sites (drawNat s).2 = sites s := sites_congr rfl
@[simp] theorem sites_net (l : List Flight) : sites { s with net := l } = sites s := sites_congr rfl
@[simp] theorem sites_leaveAll : sites (leaveAll k s) = sites s := sites_congr (sent_leaveAll ..).cores

end

theorem sites_each {α : Type} {f : α → State → State} (h : ∀ a s, sites (f a s) = sites s) (l : List α) (s : State) :
    sites (each l f s) = sites s := each_keep sites f h l s

theorem sites_foldl {α β : Type} {f : State × β → α → State × β} (h : ∀ q a, sitesFst (f q a) = sitesFst q) (l : List α)
    (q : State × β) : sitesFst (l.foldl f q) = sitesFst q :=
  fold_keeps (P := fun t => sitesFst t = sitesFst q) f (fun t a ht => (h t a).trans ht) l q rfl

section
variable {α : Type} (c : Prop) [Decidable c]

@[simp] theorem sites_ite (s t : State) : sites (if c then s else t) = if c then sites s else sites t := apply_ite ..
@[simp] theorem sitesFst_ite (q r : State × α) : sitesFst (if c then q else r) = if c then sitesFst q else sitesFst r := apply_ite ..

end

@[simp] theorem sites_netSend (s : State) (t : Token) (o : Owner) (k : Nat) : sites (netSend s t o k) = sites s := by
  simp [netSend, hubLets]

/-! ## Reads by virtual address -/

@[simp] theorem sites_readMarks (p : Page) (source base : Nat) (scrub : Bool) (r : Nat → Bool) (l : Tab Byte) (s : State) :
    sitesFst (readMarks p source base scrub r l s) = sites s := by
  refine (sites_foldl (fun q e => ?_) l (s, [], false)).trans (sitesFst_pair ..)
  dsimp only
  split
  · simp
  · split
    · split <;> simp
    · simp

@[simp] theorem sites_stackUnits (s : State) (a n : Nat) (write : Bool) : sites (stackUnits s a n write) = sites s := by
  simp [stackUnits]

@[simp] theorem sites_physRead (s : State) (a n : Nat) : sitesFst (physRead s a n) = sites s := by simp [physRead]

@[simp] theorem sites_pageRead (s : State) (d e : Nat) : sitesFst (pageRead s d e) = sites s := by
  unfold pageRead
  simp

@[simp] theorem sites_recordFault (s : State) (d : Nat) (u : UnitNo) (write : Bool) (code reason va : Nat) :
    sites (recordFault s d u write code reason va) = sites s := by simp [recordFault]

@[simp] theorem sites_readEntry (k c key : Nat) (s : State) : sites (readEntry k c key s) = sites s := by
  unfold readEntry
  extract_lets x
  split
  · rfl
  next p count keep _ a b _ =>
    have hcount : ∀ s n copy, sites (count s n copy) = sites s := fun s n copy => by simp [count]
    have hkeep : ∀ e s, sites (keep e s) = sites s := fun e s => sites_setSlot ..
    simp [hcount, hkeep]

@[simp] theorem sites_evict (s : State) (l mine : List (Nat × Nat)) : sitesFst (evict s l mine) = sites s := by
  unfold evict
  extract_lets r
  split
  · simp [r]
  · simp

@[simp] theorem sites_tableReads (k n : Nat) (s : State) : sites (tableReads k n s) = sites s := by simp [tableReads]

@[simp] theorem sites_readTables (k c vpn : Nat) (s : State) : sites (readTables k c vpn s) = sites s := by simp [readTables]

@[simp] theorem sites_walkTables (k c vpn : Nat) (s : State) : sites (walkTables k c vpn s) = sites s := by simp [walkTables]

@[simp] theorem sites_touch (s : State) (k c vpn : Nat) : sites (touch s k c vpn) = sites s := by simp [touch]

@[simp] theorem sites_cowStall (s : State) (k vpn writer va : Nat) : sites (cowStall s k vpn writer va) = sites s := by
  simp [cowStall]

@[simp] theorem sites_partRead (s : State) (d e off n va : Nat) : sitesFst (partRead s d e off n va) = sites s := by
  unfold partRead
  simp

@[simp] theorem sites_vaReadOk (s : State) (k d : Nat) (u : UnitNo) (va n : Nat) : sitesFst (vaReadOk s k d u va n) = sites s := by
  refine (sites_foldl (fun q p => ?_) _ (s, [], [])).trans (sitesFst_pair ..)
  simp

@[simp] theorem sites_faultWalk (s : State) (k c reason vpn : Nat) : sites (faultWalk s k c reason vpn) = sites s := by
  simp [faultWalk]

@[simp] theorem sites_judge (s : State) (k d : Nat) (u : UnitNo) (va n : Nat) (write : Bool) :
    sitesFst (judge s k d u va n write) = sites s := by
  unfold judge
  extract_lets a
  clear_value a
  rcases a with _ | ⟨c, r, v⟩ | ⟨v, _ | _⟩
  · simp
  · simp
  · simp
  · simp

/-! ## The task engine -/

@[simp] theorem sites_toCore (s : State) (d i tag info : Nat) (payload : List Byte) :
    sites (toCore s d i tag info payload) = sites s := sites_netSend ..

@[simp] theorem sites_dropReports (s : State) (d i : Nat) : sites (dropReports s d i) = sites s := sites_net ..

@[simp] theorem sites_sendDep (s : State) (d tgt tag sample task : Nat) : sites (sendDep s d tgt tag sample task) = sites s := by
  simp [sendDep]

@[simp] theorem sites_addCycles (s : State) (d i : Nat) : sites (addCycles s d i) = sites s :=
  (sites_setCtx ..).trans (sites_congr rfl)

@[simp] theorem sites_charge (s : State) (d i : Nat) : sites (charge s d i) = sites s := by
  unfold charge
  extract_lets x k y
  split <;> simp

@[simp] theorem sites_coreFaultInfo (s : State) (k code pc op : Nat) : sites (coreFaultInfo s k code pc op) = sites s := by
  simp [coreFaultInfo]

@[simp] theorem sites_engineError (s : State) (d i code kind : Nat) : sites (engineError s d i code kind) = sites s := by
  simp [engineError]

@[simp] theorem sites_discardAttempt (s : State) (d i : Nat) : sites (discardAttempt s d i) = sites s := by
  unfold discardAttempt
  extract_lets x t
  split <;> simp [t]

@[simp] theorem sites_succDrop (s : State) (d i : Nat) : sites (succDrop s d i) = sites s := by simp [succDrop]

@[simp] theorem sites_succCached (s : State) (d i : Nat) : sitesFst (succCached s d i) = sites s := by
  unfold succCached
  extract_lets y
  split <;> simp

@[simp] theorem sites_succOf (s : State) (d i : Nat) : sitesFst (succOf s d i) = sites s := by
  unfold succOf
  extract_lets x
  split
  · simp
  · have hc := sites_succCached s d i
    generalize succCached s d i = q at hc ⊢
    rcases q with ⟨t, _ | l⟩
    · have hj := sites_judge t (slotOf t d) d .task x.succ (8 * x.nsucc) false
      dsimp only
      generalize judge t (slotOf t d) d .task x.succ (8 * x.nsucc) false = p at hj ⊢
      rcases p with ⟨u, _ | _ | _⟩ <;> simp_all
    · simpa using hc

@[simp] theorem sites_strayDep (s : State) (d i : Nat) : sites (strayDep s d i) = sites s := sites_engineError ..

@[simp] theorem sites_satisfy (s : State) (d i sample : Nat) : sites (satisfy s d i sample) = sites s := by simp [satisfy]

@[simp] theorem sites_depStart (s : State) (d i sample : Nat) : sites (depStart s d i sample) = sites s := by simp [depStart]

@[simp] theorem sites_commitDecide (s : State) (d i : Nat) : sites (commitDecide s d i) = sites s := by simp [commitDecide]

@[simp] theorem sites_depCommit (s : State) (d i sample : Nat) : sites (depCommit s d i sample) = sites s := by simp [depCommit]

@[simp] theorem sites_listLost (s : State) (d i code : Nat) : sites (listLost s d i code) = sites s := by simp [listLost]

theorem sites_passOn {f : Nat → State → State} (hf : ∀ e s, sites (f e s) = sites s) (s : State) (d i sample : Nat) :
    sites (passOn f s d i sample) = sites s := by
  unfold passOn
  split
  · simp
  · have hs := sites_succOf s d i
    generalize succOf s d i = q at hs ⊢
    rcases q with ⟨t, c | l⟩
    · simpa using hs
    · simpa [sites_each hf] using hs

@[simp] theorem sites_depDiscard (fuel : Nat) (s : State) (d i sample : Nat) : sites (depDiscard fuel s d i sample) = sites s := by
  induction fuel generalizing s d i sample with
  | zero => rfl
  | succ fuel ih =>
    have hpass : ∀ s i, sites (passOn (fun e s => if succDie s d e = d then depDiscard fuel s d (ctxOf (succTarget e)) sample
        else sendDep s d (succDie s d e) 3 sample (succTarget e)) s d i sample) = sites s :=
      fun s i => sites_passOn (fun e s => by simp [ih]) ..
    unfold depDiscard
    extract_lets x t y
    have ht : sites t = sites s := by simp [t]
    split
    · simp
    · split
      · rfl
      · split <;> simp [hpass, ht]

@[simp] theorem sites_edge (d tag sample e : Nat) (s : State) : sites (edge d tag sample e s) = sites s := by simp [edge]

/-! ## A failed sample -/

@[simp] theorem sites_discardNow (s : State) (d i : Nat) : sites (discardNow s d i) = sites s := by
  simp [discardNow, sites_passOn]

@[simp] theorem sites_discardFor (d sample i : Nat) (s : State) : sites (discardFor d sample i s) = sites s := by simp [discardFor]

@[simp] theorem sites_discardSample (s : State) (d sample : Nat) : sites (discardSample s d sample) = sites s :=
  sites_each (fun _ _ => sites_discardFor ..) ..

@[simp] theorem sites_faultPeers (s : State) (d info sample : Nat) : sites (faultPeers s d info sample) = sites s :=
  sites_each (fun _ _ => (sites_bump ..).trans (sites_netSend ..)) ..

@[simp] theorem sites_failSample (s : State) (d sample code core : Nat) : sites (failSample s d sample code core) = sites s := by
  simp [failSample, sites_each]

@[simp] theorem sites_releaseLost (s : State) (k i : Nat) : sites (releaseLost s k i) = sites s := by simp [releaseLost]

@[simp] theorem sites_snapshot (s : State) (k i a n : Nat) : sitesFst (snapshot s k i a n) = sites s := by simp [snapshot]

end Sys2Proof.Proofs
end
section
/-! Proofs about semaphores (R103) and what a core releases (R104, R106, R170): what its course changes of the core, and that
undamaged memory is only read. -/
namespace Sys2Proof.Proofs
open Sys2Proof.Machine Sys2Proof.Safety Sys2Proof.Laws

/-! ## Semaphores (R103) -/

theorem semSum_fst (v n : Nat) : (semSum v n).1 = min (v + n) 0xFFFF := by
  unfold semSum
  split <;> (dsimp only; omega)

section
variable (s : State) (k n m : Nat)

/-- An addition changes the semaphore, and counts where it saturates. -/
theorem semAdd_keeps {β : Type} (g : State → β) (hg : ∀ t p o v, g (bump t p o v) = g t) : g (semAdd s k n m) =
    g (setCore s k { getCore s k with sem := tset 0 (getCore s k).sem n (min (tget 0 (getCore s k).sem n + m) 0xFFFF) }) := by
  rw [← semSum_fst]
  unfold semAdd
  extract_lets c r t
  split
  · exact hg ..
  · rfl

theorem getCore_semAdd : getCore (semAdd s k n m) k =
    { getCore s k with sem := tset 0 (getCore s k).sem n (min (tget 0 (getCore s k).sem n + m) 0xFFFF) } :=
  (semAdd_keeps s k n m (getCore · k) fun _ _ _ _ => getCore_bump ..).trans (getCore_setCore ..)

theorem getCore_semAdd_ne {j : Nat} (h : j ≠ k) : getCore (semAdd s k n m) j = getCore s j :=
  (semAdd_keeps s k n m (getCore · j) fun _ _ _ _ => getCore_bump ..).trans (getCore_setCore_ne _ _ h)

theorem semAdd_mem : (semAdd s k n m).mem = s.mem := (semAdd_keeps s k n m State.mem bump_mem).trans (setCore_mem ..)

theorem semAdd_net : (semAdd s k n m).net = s.net := (semAdd_keeps s k n m State.net bump_net).trans (setCore_net ..)

theorem awaits_semAdd : awaits (semAdd s k n m) = awaits s := (semAdd_keeps s k n m awaits fun _ _ _ _ => awaits_bump ..).trans (awaits_setCore ..)

end

/-! ## Released effects (R106, R170) -/

/-- Core e is core c with other entries in its send queue, other released effects, and other rules. -/
def Pumped (c e : Core) : Prop := ∃ q g l r, e = { c with sendq := q, sigs := g, releasing := l, rules := r }

theorem Pumped.refl (c : Core) : Pumped c c := ⟨_, _, _, _, rfl⟩

theorem Pumped.next {c e : Core} (h : Pumped c e) (q : List Flight) (g : List Nat) (l : List (Nat × Deferred)) (r : Tab Rule) :
    Pumped c { e with sendq := q, sigs := g, releasing := l, rules := r } := by
  obtain ⟨_, _, _, _, rfl⟩ := h
  exact ⟨_, _, _, _, rfl⟩

/-- What every single effect of a core keeps, its released effects keep. -/
theorem pump_keeps {P : State → Prop} {k : Nat}
    (core : ∀ u e, Pumped (getCore u k) e → P u → P (setCore u k e))
    (read : ∀ u i a n, P u → P (snapshot u k i a n).1)
    (amax : ∀ u n v, P u → P (wr u (corPage k) (cor_AMAX_n + 4 * n) v)) :
    ∀ (fuel : Nat) (s : State), P s → P (pump fuel k s) := by
  have put : ∀ u i t mark, P u → P (sendPut u k i t mark) := fun u i t mark h => core _ _ ⟨_, _, _, _, rfl⟩ h
  intro fuel
  induction fuel with
  | zero => exact fun s h => h
  | succ fuel ih =>
    intro s h
    have pops : ∀ l, P (setCore s k { getCore s k with releasing := l }) := fun l => core _ _ ⟨_, _, _, _, rfl⟩ h
    unfold pump
    extract_lets c
    split
    · exact h
    · split
      · split
        · exact ih _ (put _ _ _ _ (read _ _ _ _ (pops _)))
        · exact h
      · split
        · exact ih _ (put _ _ _ _ (pops _))
        · exact h
      · exact h
      · split
        · exact ih _ (core _ _ ⟨_, _, _, _, rfl⟩ (read _ _ _ _ (pops _)))
        · exact h
      · exact ih _ (amax _ _ _ (pops _))
      · exact ih _ (pops _)

/-- Of its own core, what is released changes the send queue, the released effects and the rules. -/
theorem pumped_pumpAll (s : State) (k : Nat) : Pumped (getCore s k) (getCore (pumpAll s k) k) := by
  have same : ∀ u v : State, sites v = sites u → Pumped (getCore s k) (getCore u k) → Pumped (getCore s k) (getCore v k) :=
    fun u v e h => by rwa [getCore_of_cores (cores_of_sites e)]
  refine pump_keeps (P := fun u => Pumped (getCore s k) (getCore u k)) (fun u e he h => ?_) (fun u i a n => same u _ ?_)
    (fun u n v => same u _ (sites_wr ..)) _ s (.refl _)
  · obtain ⟨q, g, l, r, rfl⟩ := he
    rw [getCore_setCore]
    exact h.next q g l r
  · rw [sites_fst, sites_snapshot]

/-- Undamaged memory is read without a change. -/
theorem ringRead_clean {s : State} (h : s.synd = []) (k a n : Nat) :
    (ringRead s k a n).1 = s ∧ (ringRead s k a n).2.2 = false := by
  refine List.foldlRecOn (motive := fun r : State × Bool => r.1 = s ∧ r.2 = false) _ _ ⟨rfl, rfl⟩ fun q hq p _ => ?_
  obtain ⟨hs, hb⟩ := hq
  rw [checkRead_clean _ _ _ (badWords_nil _ _ _ (hs ▸ h))]
  exact ⟨hs, by rw [hb]; rfl⟩

theorem snapshot_clean {s : State} (h : s.synd = []) (k i a n : Nat) : (snapshot s k i a n).1 = s := by
  obtain ⟨hs, hb⟩ := ringRead_clean h k a n
  rw [snapshot, hb]
  exact hs

/-- u is undamaged and has the memory and the network of s. -/
structure Quiet (s u : State) : Prop where
  synd : u.synd = []
  net : u.net = s.net
  mem : u.mem = s.mem

/-- Over undamaged memory, what a core releases sends nothing on the mesh and changes no byte. -/
theorem quiet_pumpAll {s : State} (h : s.synd = []) (k : Nat) : Quiet s (pumpAll s k) := by
  refine pump_keeps (P := Quiet s) (fun u e _ hu => ⟨?_, ?_, ?_⟩) (fun u i a n hu => ?_) (fun u n v hu => ⟨?_, ?_, ?_⟩) _ s ⟨h, rfl, rfl⟩
  · rw [setCore_synd, hu.synd]
  · rw [setCore_net, hu.net]
  · rw [setCore_mem, hu.mem]
  · rwa [snapshot_clean hu.synd]
  · rw [wr_synd, hu.synd]
  · rw [wr_net, hu.net]
  · rw [wr_mem, hu.mem]

end Sys2Proof.Proofs
end
section
/-! Proofs about dispatch, edges and TASK tokens at a core (R79, R159, R163 to R177). -/
namespace Sys2Proof.Proofs
open Sys2Proof.Machine Sys2Proof.Safety Sys2Proof.Laws

/-! ## Dispatch (R163, R177) -/

theorem readCtx_undamaged (s : State) (d i : Nat) (run : Bool) : readCtx s d i run [] = (s, [], false) := rfl

/-- A die that owes no program word rewrites none. -/
theorem refreshCore_idle {s : State} {d : Nat} (h : (getDie s d).refresh = []) (key : Nat) :
    ∃ y : DieSt, refreshCore s d key = setDie s d y ∧ y.succs = (getDie s d).succs := by
  simp only [refreshCore, h]
  exact ⟨_, rfl, rfl⟩

/-- A token from a slice to its core joins the network. -/
theorem toCore_sends (s : State) {d : Nat} (hd : d < 8) (i tag info : Nat) (b : List Byte) : toCore s d i tag info b = { s with net := s.net ++
    [⟨taskToken s d (getCtx s d i).core tag (getCtx s d i).task (getCtx s d i).sample info true b, .nobody, slotOf s d⟩] } :=
  netSend_near s _ _ _ rfl (fun _ => rfl) (fun h => absurd h (Nat.not_le.mpr hd))

/-- When the slice of logical core l, which core key carries, dispatches the undamaged context i, as x (R163, R363, R368). -/
structure Dispatches (s : State) (d l key i : Nat) (x : Ctx) : Prop where
  die : d < 8
  site : coreOf s d l = some key
  next : nextTask s d l = some (i, x)
  goes : runs s d = true
  engine : (rd s (.tke d) hCTRL).testBit 0 = true
  free : coreBusy s d l = false
  shows : x = getCtx s d i
  core : x.core = l
  current : (getDie s d).refresh = []
  sound : x.badDesc = []

section
variable {s : State} {d l key i : Nat} {x : Ctx} (h : Dispatches s d l key i x)
include h

/-- A READY context is dispatched by its descriptor. -/
theorem execTaskDispatch_ready (hst : x.state = .ready) (hw : succWaits s d i = false) :
    execTaskDispatch d l s = edges (toCore (setCtx (refreshCore s d key) d i { x with state := .running }) d i 0 (b2n x.retained)
      (descBytes { x with state := .running })) d i 1 := by
  simp only [execTaskDispatch, h.site, h.next, h.goes, h.engine, h.free, hw, h.sound, readCtx_undamaged, hst,
    List.any_nil, Bool.not_true, Bool.and_false, Bool.or_self, Bool.false_eq_true, if_false, if_true]

/-- A YIELDED one goes back with its run record. -/
theorem execTaskDispatch_yielded (hst : x.state = .yielded) (hrun : x.badRun = []) :
    execTaskDispatch d l s = toCore (setCtx (refreshCore s d key) d i { x with state := .running }) d i 1 0 (runBytes x.run) := by
  have hready : (TaskState.yielded == TaskState.ready) = false := rfl
  simp only [execTaskDispatch, h.site, h.next, h.goes, h.engine, h.free, h.sound, hrun, readCtx_undamaged, hst, hready,
    List.any_nil, Bool.not_true, Bool.false_and, Bool.or_self, Bool.false_eq_true, if_false, reduceCtorEq]

/-- A context that becomes RUNNING with its token on the way to its core. -/
theorem toCore_running {c : Ctx} (hc : c.core = l) (tag info : Nat) (b : List Byte) : ∃ t f,
    toCore (setCtx (refreshCore s d key) d i c) d i tag info b = t ∧ awaits t = awaits s ∧ getCtx t d i = c ∧
    (getDie t d).succs = (getDie s d).succs ∧ t.net = s.net ++ [f] ∧ f.tok.kind = 2 ∧ f.tok.tag = tag ∧ f.tok.dest = coreEnd s d l ∧
    f.tok.payload = b := by
  obtain ⟨y, hy, hsuccs⟩ := refreshCore_idle h.current key
  have hctx : getCtx (setCtx (refreshCore s d key) d i c) d i = c := getCtx_setCtx ..
  refine ⟨_, ⟨taskToken (setCtx (refreshCore s d key) d i c) d c.core tag c.task c.sample info true b, .nobody,
    slotOf (setCtx (refreshCore s d key) d i c) d⟩, rfl, ?_, ?_, ?_, ?_, rfl, rfl, ?_, rfl⟩
  · rw [awaits_toCore, awaits_setCtx, hy, awaits_setDie]
  · rw [getCtx_of_dies (dies_toCore h.die ..), hctx]
  · rw [getDie_of_dies (dies_toCore h.die ..), succs_setCtx, hy, getDie_setDie, hsuccs]
  · rw [toCore_sends _ h.die, hctx, setCtx_net, hy, setDie_net]
  · rw [hy, hc]
    rfl

theorem taskDispatch_ready (hst : x.state = .ready) {es : List Nat} (hes : CachedList s d i es) : ∃ t f,
    execTaskDispatch d l s = each (es.filter succAhead) (edge d 1 x.sample) t ∧ awaits t = awaits s ∧
    (getCtx t d i).state = .running ∧ t.net = s.net ++ [f] ∧ f.tok.kind = 2 ∧ f.tok.tag = 0 ∧ f.tok.dest = coreEnd s d l ∧
    f.tok.payload = descBytes { x with state := .running } := by
  obtain ⟨t, f, ht, haw, hctx, hsuccs, hf⟩ := toCore_running h (c := { x with state := .running }) h.core 0 (b2n x.retained)
    (descBytes { x with state := .running })
  have hlist : CachedList t d i es := cachedList_congr hes (by rw [hctx, h.shows]) hsuccs
  refine ⟨t, f, ?_, haw, congrArg Ctx.state hctx, hf⟩
  rw [execTaskDispatch_ready h hst (succWaits_cached hes), ht, edges, succOf_cached hlist, hctx]

end

/-! ## TASK tokens at a core (R79, R170, R177) -/

/-- A core once a DISPATCH payload b has set it up for a run. -/
def dispatched (c : Core) (r : Run) (b : List Byte) : Core :=
  { c with
    pc := bytesAt b 6 2 % 4096, s := tset 0 (tset 0 [] 14 (w32 (bytesAt b 40 4))) 15 (w32 (bytesAt b 0 4)),
    a := tset 0 [] 7 (w32 (bytesAt b 8 4 % 2 ^ 22)), v := [], ret := [], parity := [], run := some r, wait := .none, stall := 0,
    halted := false }

theorem exec_dispatch {s : State} {n k : Nat} {x : Flight} (h : ForCore s n 2 k x) (ht : x.tok.tag = 0) :
    exec (.dispatch n) s = .next (setCore (netTake s n) k (dispatched (getCore s k)
      (dispatchRun (netTake s n) (k / 384) x.tok.dcount x.tok.payload) x.tok.payload)) :=
  exec_of_awaits (congrArg (answer s) (taskAtCore_for h ht _)) (by rw [awaits_setCore, awaits_netTake])

section
variable (c : Core) (r : Run) (b : List Byte)

/-- The s registers that a DISPATCH sets are 14 and 15, the others read zero. -/
theorem regVal_dispatched_s : regVal (dispatched c r b) 14 = w32 (bytesAt b 40 4) ∧ regVal (dispatched c r b) 15 = w32 (bytesAt b 0 4) ∧
    ∀ q, q < 14 → regVal (dispatched c r b) q = 0 := by
  have hreg : ∀ q, q ≠ 0 → q < 16 → regVal (dispatched c r b) q =
      tget 0 (tset 0 (tset 0 [] 14 (w32 (bytesAt b 40 4))) 15 (w32 (bytesAt b 0 4))) q := fun q h0 h => (if_neg h0).trans (if_pos h)
  refine ⟨?_, ?_, fun q hq => ?_⟩
  · rw [hreg 14 (by decide) (by decide), tget_tset_ne _ _ _ (by decide), tget_tset_same]
  · rw [hreg 15 (by decide) (by decide), tget_tset_same]
  · by_cases h0 : q = 0
    · exact if_pos h0
    · rw [hreg q h0 (by omega), tget_tset_ne _ _ _ (by omega), tget_tset_ne _ _ _ (by omega), tget_nil]

/-- The a register that it sets is a7. -/
theorem regVal_dispatched_a : regVal (dispatched c r b) 23 = w32 (bytesAt b 8 4 % 2 ^ 22) ∧
    ∀ q, 16 ≤ q → q < 23 → regVal (dispatched c r b) q = 0 := by
  have hreg : ∀ q, 16 ≤ q → q < 24 → regVal (dispatched c r b) q = tget 0 (tset 0 [] 7 (w32 (bytesAt b 8 4 % 2 ^ 22))) (q - 16) :=
    fun q h h' => (if_neg (by omega)).trans ((if_neg (by omega)).trans (if_pos h'))
  refine ⟨?_, fun q h h' => ?_⟩
  · rw [hreg 23 (by decide) (by decide), tget_tset_same]
  · rw [hreg q h (by omega), tget_tset_ne _ _ _ (by omega), tget_nil]

end

theorem exec_taskResume {s : State} {n k : Nat} {x : Flight} (h : ForCore s n 2 k x) (ht : x.tok.tag = 1) {r : Run}
    (hr : (getCore s k).away.find? (·.task == x.tok.value) = some r) :
    exec (.taskResume n) s = .next (setCore (netTake s n) k { getCore s k with
      pc := (runFrom x.tok.payload).pc % 4096, s := (runFrom x.tok.payload).s, a := (runFrom x.tok.payload).a, v := [],
      ret := (runFrom x.tok.payload).ret, parity := [], wait := .none, stall := 0,
      away := (getCore s k).away.filter (·.task != x.tok.value),
      run := some { r with sat := (runFrom x.tok.payload).sat, nz := (runFrom x.tok.payload).nz, uf := (runFrom x.tok.payload).uf,
                           vidx := (runFrom x.tok.payload).vidx, ended := false } }) := by
  refine exec_of_awaits (congrArg (answer s) ((taskAtCore_for h ht _).trans ?_)) (by rw [awaits_setCore, awaits_netTake])
  simp only [getCore_netTake, hr]

/-- Giving WAITs back changes the semaphores of their core alone. -/
theorem each_semAdd_keeps {β : Type} {k : Nat} (g : State → β) (hg : ∀ t n m, g (semAdd t k n m) = g t) (l : List (Nat × Nat × Nat))
    (s : State) : g (each l (fun w s => semAdd s k w.2.1 w.2.2) s) = g s := each_keep g _ (fun _ _ => hg ..) l s

/-- A discard leaves the core nothing of the context (R170). -/
theorem coreDiscard_clears (s : State) (k i : Nat) : ∃ e : Core,
    coreDiscard s k i = each ((getCore s k).waits.filter (·.1 == i)) (fun w s => semAdd s k w.2.1 w.2.2) (setCore s k e) ∧
    (∀ q ∈ e.queue, q.ctx ≠ i) ∧ (∀ q ∈ e.deferred, q.1 ≠ i) ∧ (∀ q ∈ e.away, q.ctx ≠ i) ∧ (∀ q ∈ e.waits, q.1 ≠ i) ∧
    ∀ r, e.run = some r → r.ctx ≠ i := by
  have keeps : ∀ {α : Type} (l : List α) (f : α → Nat), ∀ q ∈ l.filter (f · != i), f q ≠ i := fun l f q hq =>
    by simpa using (List.mem_filter.mp hq).2
  refine ⟨_, rfl, keeps _ _, keeps _ _, keeps _ _, keeps _ _, fun r hr => ?_⟩
  cases hc : (getCore s k).run with
  | none => simp [hc] at hr
  | some r' =>
    simp only [hc] at hr
    split at hr
    · cases hr
    next hne =>
      cases hr
      simpa using hne

theorem semAdds_getCore (k : Nat) (l : List (Nat × Nat × Nat)) (s : State) :
    ∃ t, getCore (each l (fun w s => semAdd s k w.2.1 w.2.2) s) k = { getCore s k with sem := t } :=
  fold_keeps (P := fun u => ∃ t, getCore u k = { getCore s k with sem := t }) _ (fun u w ⟨t, hu⟩ => by
    rw [getCore_semAdd, hu]
    exact ⟨_, rfl⟩) l s ⟨_, rfl⟩

theorem exec_taskDiscard {s : State} {n k : Nat} {x : Flight} (h : ForCore s n 2 k x) (ht : x.tok.tag = 4) :
    ∃ u, exec (.taskDiscard n) s = .next u ∧
      (∀ q ∈ (getCore u k).queue, q.ctx ≠ ctxOf x.tok.value) ∧ (∀ q ∈ (getCore u k).deferred, q.1 ≠ ctxOf x.tok.value) ∧
      (∀ q ∈ (getCore u k).away, q.ctx ≠ ctxOf x.tok.value) ∧ (∀ q ∈ (getCore u k).waits, q.1 ≠ ctxOf x.tok.value) ∧
      (∀ r, (getCore u k).run = some r → r.ctx ≠ ctxOf x.tok.value) ∧ u.mem = s.mem := by
  obtain ⟨e, he, hclear⟩ := coreDiscard_clears (netTake s n) k (ctxOf x.tok.value)
  obtain ⟨hqueue, hdeferred, haway, hwaits, hrun⟩ := hclear
  refine ⟨_, exec_of_awaits (congrArg (answer s) ((taskAtCore_for h ht _).trans he)) ?_, ?_⟩
  · rw [each_semAdd_keeps awaits fun _ _ _ => awaits_semAdd .., awaits_setCore, awaits_netTake]
  · obtain ⟨t, hcore⟩ := semAdds_getCore k ((getCore (netTake s n) k).waits.filter (·.1 == ctxOf x.tok.value)) (setCore (netTake s n) k e)
    rw [hcore, getCore_setCore, each_semAdd_keeps State.mem fun _ _ _ => semAdd_mem .., setCore_mem, netTake_mem]
    exact ⟨hqueue, hdeferred, haway, hwaits, hrun, rfl⟩

/-- What a confirmation at the core keeps: all that no core and no register holds. -/
theorem coreConfirm_keeps {β : Type} (g : State → β) (hcore : ∀ t k c, g (setCore t k c) = g t) (hwr : ∀ t p o v, g (wr t p o v) = g t)
    (s : State) (k i : Nat) : g (coreConfirm s k i) = g s := by
  unfold coreConfirm
  extract_lets c am t
  exact (each_keep g _ (fun _ _ => hwr ..) am t).trans (hcore ..)

/-- A release gives what a context deferred to the core's released effects. -/
theorem releaseDeferred_eq (s : State) (k i : Nat) (keep : Bool) :
    ∃ e : Core, releaseDeferred s k i keep = pumpAll (setCore s k e) k ∧ e.run = (getCore s k).run := ⟨_, rfl, rfl⟩

theorem execConfirm_eq {s : State} {n k : Nat} {x : Flight} (h : ForCore s n 2 k x) (ht : x.tok.tag = 5) : ∃ e : Core,
    execConfirm n s = pumpAll (setCore (coreConfirm (netTake s n) k (ctxOf x.tok.value)) k e) k ∧
    e.run = (getCore (coreConfirm (netTake s n) k (ctxOf x.tok.value)) k).run.map (unspeculate (ctxOf x.tok.value)) := by
  obtain ⟨e, he, hrun⟩ := releaseDeferred_eq (setCore (coreConfirm (netTake s n) k (ctxOf x.tok.value)) k
    { getCore (coreConfirm (netTake s n) k (ctxOf x.tok.value)) k with
      run := (getCore (coreConfirm (netTake s n) k (ctxOf x.tok.value)) k).run.map (unspeculate (ctxOf x.tok.value)),
      away := (getCore (coreConfirm (netTake s n) k (ctxOf x.tok.value)) k).away.map (unspeculate (ctxOf x.tok.value)) })
    k (ctxOf x.tok.value) true
  rw [setCore_setCore] at he
  rw [getCore_setCore] at hrun
  exact ⟨e, (taskAtCore_for h ht _).trans he, hrun⟩

theorem exec_confirm {s : State} {n k : Nat} {x : Flight} (h : ForCore s n 2 k x) (ht : x.tok.tag = 5) :
    ∃ u, exec (.confirm n) s = .next u ∧
      (∀ r, (getCore u k).run = some r → r.ctx = ctxOf x.tok.value → r.speculative = false) ∧ (s.synd = [] → u.mem = s.mem) := by
  obtain ⟨e, he, hrun⟩ := execConfirm_eq h ht
  refine ⟨_, exec_of_awaits (congrArg (answer s) he) ?_, fun r hr hctx => ?_, fun hs => ?_⟩
  · rw [awaits_pumpAll, awaits_setCore, (atCore_coreConfirm ..).awaits, awaits_netTake]
  · obtain ⟨_, _, _, _, hp⟩ := pumped_pumpAll (setCore (coreConfirm (netTake s n) k (ctxOf x.tok.value)) k e) k
    rw [hp, getCore_setCore] at hr
    obtain ⟨r', -, rfl⟩ := Option.map_eq_some_iff.mp (hrun.symm.trans hr)
    unfold unspeculate at hctx ⊢
    split at hctx
    · rw [if_pos ‹_›]
    · exact absurd hctx ‹_›
  · have hsynd : (setCore (coreConfirm (netTake s n) k (ctxOf x.tok.value)) k e).synd = [] := by
      rw [setCore_synd, coreConfirm_keeps State.synd setCore_synd wr_synd, netTake_synd, hs]
    rw [(quiet_pumpAll hsynd k).mem, setCore_mem, coreConfirm_keeps State.mem setCore_mem wr_mem, netTake_mem]

/-! ## Edges and successor entries (R159, R166, R176) -/

/-- A DEP token for another die of the partition joins the network. -/
theorem sendDep_net {s : State} {d t : Nat} (ht : t < 8) (hs : slotOf s t = slotOf s d) (tag sample task : Nat) :
    (sendDep s d t tag sample task).net = s.net ++
      [⟨engineToken s (slotOf s d) 3 tag (taskEnd s d) (taskEnd s t) 0 sample task, .engine d, slotOf s d⟩] := by
  have he := netSend_near s (engineToken s (slotOf s d) 3 tag (taskEnd s d) (taskEnd s t) 0 sample task) (.engine d) (slotOf s d) rfl
    (fun _ => hs) (fun h => absurd h (Nat.not_le.mpr ht))
  rw [sendDep, bump_net, he]

/-- A START on its own die takes one of DCUR and counts its producer. -/
theorem getCtx_depStart {s : State} {d j m : Nat} (hrel : relFor (getCtx s d j) m = true) (hst : (getCtx s d j).state = .waiting)
    (hd : 0 < (getCtx s d j).dcur) (hsoft : softEdges s d (getCtx s d j) = true) :
    getCtx (depStart s d j m) d j = { getCtx s d j with
      dcur := (getCtx s d j).dcur - 1, pcur := (getCtx s d j).pcur + 1,
      state := if (getCtx s d j).dcur = 1 then .ready else .waiting } := by
  have hgo : (softEdges s d (getCtx s d j) && (getCtx s d j).state == .waiting && decide (0 < (getCtx s d j).dcur)) = true := by
    simp [hsoft, hst, hd]
  rw [depStart, hrel, if_neg (by decide), if_pos hgo, getCtx_setCtx]

theorem getCtx_satisfy {s : State} {d j m : Nat} (hrel : relFor (getCtx s d j) m = true) (hst : (getCtx s d j).state = .waiting)
    (hd : 0 < (getCtx s d j).dcur) : getCtx (satisfy s d j m) d j = { getCtx s d j with
      dcur := (getCtx s d j).dcur - 1, state := if (getCtx s d j).dcur = 1 then .ready else .waiting } := by
  rw [satisfy, hrel, if_neg (by decide), if_pos ⟨hst, hd⟩, getCtx_setCtx]

/-- A successor entry for a task of the own die satisfies it. -/
theorem successor_near {s : State} {k i cls m e : Nat} (hk : succKind e < 2) (ht : succDie s (k / 384) e = k / 384) :
    successor k i cls m none e s = satisfy s (k / 384) (ctxOf (succTarget e)) m := by
  unfold successor
  rcases (by omega : succKind e = 0 ∨ succKind e = 1) with h | h
  · simp only [h]
  · simp only [h, ht, if_true]

theorem successor_far {s : State} {k i cls m e : Nat} (hk : succKind e = 1) (ht : succDie s (k / 384) e ≠ k / 384) :
    successor k i cls m none e s = sendDep s (k / 384) (succDie s (k / 384) e) 0 m (succTarget e) := by
  simp only [successor, hk, ht, if_false]

/-- One released SIGNAL enters a send queue with room. -/
theorem pumpAll_signal {s : State} {k i mark : Nat} {t : Token} (hr : (getCore s k).releasing = [(i, .signal t mark)])
    (hroom : sendRoom s k = true) : pumpAll s k = sendPut (setCore s k { getCore s k with releasing := [] }) k i t (some mark) := by
  have hend : (getCore (sendPut (setCore s k { getCore s k with releasing := [] }) k i t (some mark)) k).releasing = [] := by
    rw [sendPut, getCore_setCore, getCore_setCore]
  rw [pumpAll, hr, List.length_singleton, pump]
  simp only [hr, hroom, if_true]
  rw [pump]
  simp only [hend]

/-! ### The room of a send queue: no core has a part in the way of what is in flight (R94, R97) -/

section
variable (s : State) (k : Nat) (c : Core)

theorem roomOf_setCore (l : Leg) (vc : Nat) : roomOf (setCore s k c) l vc = roomOf s l vc := rfl

theorem overDies_setCore (j : Nat) (goal at_ : Spot) (route : List Nat) :
    overDies (setCore s k c) j goal at_ route = overDies s j goal at_ route := by
  induction route generalizing at_ with
  | nil => rfl
  | cons d rest ih =>
    cases rest with
    | nil => rfl
    | cons e rest => rw [overDies, overDies, ih]; rfl

theorem header_setCore (vc : Nat) (o : Flits) (back path : List Leg) : header (setCore s k c) vc o back path = header s vc o back path := by
  induction path generalizing back with
  | nil => rfl
  | cons l rest ih =>
    cases rest with
    | nil => rfl
    | cons m rest => rw [header, header, ih]; rfl

theorem layFlits_setCore (vc n : Nat) (back : List Leg) (o : Flits) : layFlits (setCore s k c) vc n back o = layFlits s vc n back o := by
  induction back generalizing n o with
  | nil => rfl
  | cons l rest ih =>
    cases rest with
    | nil => rfl
    | cons m rest => unfold layFlits; simp only [ih, roomOf_setCore]

theorem pathOf_setCore (j : Nat) (t : Token) : pathOf (setCore s k c) j t = pathOf s j t := by
  unfold pathOf
  simp only [overDies_setCore]
  rfl

theorem flow_setCore (l : List Flight) (o : Flits) : flow (setCore s k c) l o = flow s l o := by
  induction l generalizing o with
  | nil => rfl
  | cons f rest ih => simp only [flow, pathOf_setCore, header_setCore, layFlits_setCore, ih]

theorem leaving_setCore (e : End) : leaving (setCore s k c) e = leaving s e := by
  have hunsent : unsent (setCore s k c) = unsent s := funext fun e => funext fun vc => by rw [unsent, flow_setCore, setCore_net, ← unsent]
  rw [leaving, hunsent, ← leaving]

end

theorem sendRoom_setCore {s : State} {k : Nat} {c : Core} (h : c.sendq = (getCore s k).sendq) : sendRoom (setCore s k c) k = sendRoom s k := by
  rw [sendRoom, getCore_setCore, h, leaving_setCore]
  rfl

/-- The SIGNAL of a SEM entry of a list. -/
def semToken (s : State) (k m e : Nat) : Token :=
  engineToken s (slotOf s (k / 384)) 5 (fld (succTarget e) 9 5) (here s (k / 384) (selfCore s k)) (here s (k / 384) (succTarget e % 512)) 0 m
    (succTarget e / 65536)

/-- A SEM entry follows what its core has released. -/
theorem successor_sem {s : State} {k i cls m e : Nat} (hk : succKind e = 5) : ∃ (c : Core) (mark : Nat),
    successor k i cls m none e s = pumpAll (setCore s k c) k ∧ c.sendq = (getCore s k).sendq ∧
    c.releasing = (getCore s k).releasing ++ [(i, .signal (semToken s k m e) mark)] := by
  simp only [successor, hk]
  exact ⟨_, _, rfl, rfl, rfl⟩

/-- It enters a send queue with room. -/
theorem sendq_successor_sem {s : State} {k i cls m e : Nat} (hk : succKind e = 5) (hr : (getCore s k).releasing = [])
    (hroom : sendRoom s k = true) : ∃ w, (getCore (successor k i cls m none e s) k).sendq = (getCore s k).sendq ++
      [⟨semToken s k m e, .task k i, w⟩] := by
  obtain ⟨c, mark, he, hq, hrel⟩ := successor_sem (s := s) (k := k) (i := i) (cls := cls) (m := m) hk
  rw [hr, List.nil_append] at hrel
  rw [he, pumpAll_signal ((congrArg Core.releasing (getCore_setCore ..)).trans hrel) ((sendRoom_setCore hq).trans hroom), sendPut]
  simp only [getCore_setCore, hq]
  exact ⟨_, rfl⟩

/-- Settles O20: dispatch by the slice's choice, TASK tokens by what each makes of its core, entries by their kind. -/
theorem dispatchAndTaskTokens : Obligations.DispatchAndTaskTokens := by
  unfold Obligations.DispatchAndTaskTokens
  refine ⟨?_, ?_, ?_⟩
  · intro s d l key i x hsite hnext hgoes hengine hfree hshows hcore hcurrent
    refine ⟨fun hst hsound es hes => ?_, fun hst hsound hrun => ?_⟩
    · obtain ⟨t, f, he, haw, hf⟩ := taskDispatch_ready ⟨d.isLt, hsite, hnext, hgoes, hengine, hfree, hshows, hcore, hcurrent, hsound⟩ hst hes
      exact ⟨t, f, exec_of_awaits (congrArg (answer s) he) (by rw [awaits_each fun _ _ => awaits_edge .., haw]), hf⟩
    · have hdisp : Dispatches s d l key i x := ⟨d.isLt, hsite, hnext, hgoes, hengine, hfree, hshows, hcore, hcurrent, hsound⟩
      obtain ⟨t, f, ht, haw, hctx, -, hnet, hkind, htag, -, hpayload⟩ :=
        toCore_running hdisp (c := { x with state := .running }) hcore 1 0 (runBytes x.run)
      exact ⟨t, f, exec_of_awaits (congrArg (answer s) ((execTaskDispatch_yielded hdisp hst hrun).trans ht)) haw, congrArg Ctx.state hctx,
        hnet, hkind, htag, hpayload⟩
  · intro s n k x h t c i
    refine ⟨fun ht => ⟨_, dispatchRun (netTake s n) (k / 384) t.dcount t.payload, exec_dispatch h ht, ?_⟩,
      fun ht r hr => ⟨_, exec_taskResume h ht hr, ?_⟩, exec_taskDiscard h, exec_confirm h⟩
    · rw [getCore_setCore, setCore_mem, netTake_mem]
      obtain ⟨hsample, htask, hzero⟩ := regVal_dispatched_s (getCore s k) (dispatchRun (netTake s n) (k / 384) t.dcount t.payload) t.payload
      obtain ⟨hargs, hzero'⟩ := regVal_dispatched_a (getCore s k) (dispatchRun (netTake s n) (k / 384) t.dcount t.payload) t.payload
      exact ⟨rfl, rfl, rfl, rfl, hsample, htask, hargs, hzero, hzero', rfl, rfl, rfl⟩
    · rw [getCore_setCore]
      exact ⟨rfl, rfl, rfl, rfl, rfl, rfl⟩
  · intro s k i cls m e hk d t j dep
    refine ⟨fun htd ht hslot => ⟨fun tag => ?_, fun hkind => ?_⟩, fun htd hrel hst hdcur => ⟨fun hsoft => ?_, fun hkind => ?_⟩,
      fun hkind hr hroom => ?_⟩
    · exact ⟨_, (congrArg State.net (if_pos htd)).trans (sendDep_net ht hslot ..), rfl, rfl, rfl, rfl, rfl⟩
    · exact ⟨_, (congrArg State.net (successor_far hkind htd)).trans (sendDep_net ht hslot ..), rfl, rfl, rfl, rfl, rfl⟩
    · have he : edge d 1 m e s = depStart s d j m := (if_neg (not_not_intro htd)).trans (if_pos rfl)
      rw [he, getCtx_depStart hrel hst hdcur hsoft]
    · rw [successor_near hkind htd]
      exact getCtx_satisfy hrel hst hdcur
    · obtain ⟨w, hq⟩ := sendq_successor_sem (i := i) (cls := cls) (m := m) hkind hr hroom
      exact ⟨_, hq, rfl, rfl, rfl, rfl⟩

end Sys2Proof.Proofs
end
section
/-! Proofs about the switchback of a core: how a rule fires (R66, R98 to R103). -/
namespace Sys2Proof.Proofs
open Sys2Proof.Machine Sys2Proof.Safety Sys2Proof.Laws

/-! ## Bytes of a core without a shadow region -/

theorem memRead_add (s : State) (a m n : Nat) : memRead s a (m + n) = memRead s a m ++ memRead s (a + m) n := by
  simp only [memRead, List.range_add, List.map_append, List.map_map, Function.comp_def, Nat.add_assoc]

theorem flatMap_pieces_unshadowed {c : Core} (hc : c.shadows = []) (s : State) (k : Nat) (ctx : Option Nat) (fuel a n : Nat)
    (hf : n ≤ 1024 * fuel - a % 1024) :
    (pieces c ctx fuel a n).flatMap (fun p => memRead s (coreAddr k p.1) p.2) = memRead s (coreAddr k a) n := by
  have hplace : ∀ a, place c ctx a = a := fun a => by simp [place, shadowOf, hc]
  induction fuel generalizing a n with
  | zero =>
    obtain rfl : n = 0 := by omega
    rfl
  | succ fuel ih =>
    rw [pieces]
    split
    next h0 =>
      subst h0
      rfl
    next h0 =>
      extract_lets m
      have hm : m = min n (1024 - a % 1024) := rfl
      have hsplit : n = m + (n - m) := by omega
      rw [List.flatMap_cons, hplace, ih (a + m) (n - m) (by omega), coreAddr_add, ← memRead_add, ← hsplit]

/-- Such a core reads a range where it stands. -/
theorem coreBytes_unshadowed {s : State} {k : Nat} (hc : (getCore s k).shadows = []) (ctx : Option Nat) (a n : Nat) :
    coreBytes s k ctx a n = memRead s (coreAddr k a) n := flatMap_pieces_unshadowed hc s k ctx _ a n (by omega)

theorem memRead_memWrite (s : State) (a : Nat) (bs : List Byte) : memRead (memWrite s a bs) a bs.length = bs := by
  refine List.ext_getElem (by simp [memRead]) fun i hi hi' => ?_
  simp [memRead, rdByte_memWrite_in _ _ _ _ hi']

/-! ## Holds -/

theorem getHold_setHold (c : Core) (rule slot : Nat) (h : Hold) : getHold (setHold c rule slot h) rule slot = h := tget_tset_same ..

theorem Pumped.getHold {c e : Core} (h : Pumped c e) (rule slot : Nat) : getHold e rule slot = getHold c rule slot := by
  obtain ⟨_, _, _, _, rfl⟩ := h
  rfl

theorem Pumped.sem {c e : Core} (h : Pumped c e) : e.sem = c.sem := by
  obtain ⟨_, _, _, _, rfl⟩ := h
  rfl

theorem markBusy_busy (c : Core) (a n : Nat) (b : Bool) : ∃ l, markBusy c a n b = { c with busy := l } := by
  unfold markBusy
  split
  · exact ⟨_, rfl⟩
  · exact ⟨_, rfl⟩

/-- The tokens of a set free their ranges: of their core only the ready bits change. -/
theorem each_markBusy (rule : Rule) (toks : List Token) (c : Core) : ∃ l, each toks (fun t c =>
    if t.kind = 0 then markBusy c (tokRange rule t).1 (tokRange rule t).2 false else c) c = { c with busy := l } := by
  refine fold_keeps (P := fun e => ∃ l, e = { c with busy := l }) _ (fun e t he => ?_) toks c ⟨_, rfl⟩
  obtain ⟨l, rfl⟩ := he
  dsimp only
  split
  · obtain ⟨l', h'⟩ := markBusy_busy { c with busy := l } (tokRange rule t).1 (tokRange rule t).2 false
    exact ⟨l', h'⟩
  · exact ⟨l, rfl⟩

/-! ## Firing (R101) -/

/-- Core e is core c once its slot holds nothing but a fire record. -/
structure Fired (n slot : Nat) (rec_ : Option W32) (c e : Core) : Prop where
  sem : e.sem = c.sem
  record : (getHold e n slot).record = rec_
  data : (getHold e n slot).data = []
  ctrl : (getHold e n slot).ctrl = none

theorem Fired.pumped {n slot : Nat} {rec_ : Option W32} {c e f : Core} (h : Fired n slot rec_ c e) (g : Pumped e f) :
    Fired n slot rec_ c f :=
  ⟨g.sem.trans h.sem, by rw [g.getHold, h.record], by rw [g.getHold, h.data], by rw [g.getHold, h.ctrl]⟩

theorem fired_of (n slot : Nat) (rec_ : Option W32) (rule : Rule) (toks : List Token) (c : Core) (h : Hold) (smp : Nat) :
    Fired n slot rec_ c (setHold (each toks (fun t c =>
      if t.kind = 0 then markBusy c (tokRange rule t).1 (tokRange rule t).2 false else c) c) n slot
        { h with data := [], ctrl := none, record := rec_, sample := smp }) := by
  obtain ⟨l, he⟩ := each_markBusy rule toks c
  rw [he]
  constructor
  · rfl
  · rw [getHold_setHold]
  · rw [getHold_setHold]
  · rw [getHold_setHold]

/-- The DELIVER arm leaves the VALUE as the slot's record, and counts the rule's semaphore. -/
theorem fire_delivers {arm : Nat} (harm : armAction arm = 0) (s : State) (k n slot value : Nat) (toks : List Token) : ∃ e : Core,
    fire s k n slot arm value toks = (if (tget Rule.none (getCore s k).rules n).semen then
      semAdd (pumpAll (setCore s k e) k) k (tget Rule.none (getCore s k).rules n).sem 1 else pumpAll (setCore s k e) k) ∧
    Fired n slot (some (w32 value)) (getCore s k) e := by
  have hforward : armForwards arm = false := by simp [armForwards, harm]
  unfold fire
  simp only [hforward, harm, Bool.false_eq_true, if_false, beq_self_eq_true, Bool.true_or, Bool.not_false, Bool.and_self, if_true,
    Bool.true_and]
  exact ⟨_, rfl, fired_of ..⟩

/-- A token of a firing set as the FORWARD arm sends it on. -/
def forwarded (s : State) (k : Nat) (rule : Rule) (arm : Nat) (t : Token) : Token :=
  { t with dest := here s (fld arm 2 4) (fld arm 6 9), tag := fld arm 15 5, src := here s (k / 384) (selfCore s k),
           payload := if t.kind = 0 then coreBytes s k none (tokRange rule t).1 (tokRange rule t).2 else [] }

theorem forwarded_net (s : State) (l : List Flight) (k : Nat) (rule : Rule) (arm : Nat) (t : Token) :
    forwarded { s with net := l } k rule arm t = forwarded s k rule arm t := rfl

section
variable {s : State} {arm k : Nat} (hdie : fld arm 2 4 < 8) (hs : s.synd = []) (hslot : slotOf s (fld arm 2 4) = slotOf s (k / 384))
include hdie hs hslot

/-- Over undamaged memory a token of the set joins the network. -/
theorem forwardOne_clean (rule : Rule) (t : Token) : forwardOne k rule arm (s, false) t =
    ({ s with net := s.net ++ [⟨forwarded s k rule arm t, .nobody, slotOf s (k / 384)⟩] }, false) := by
  have hsend : netSend s (forwarded s k rule arm t) .nobody (slotOf s (k / 384)) =
      { s with net := s.net ++ [⟨forwarded s k rule arm t, .nobody, slotOf s (k / 384)⟩] } :=
    netSend_near s _ _ _ rfl (fun _ => hslot) (fun h => absurd h (Nat.not_le.mpr hdie))
  rw [← hsend, forwardOne]
  by_cases hk : t.kind = 0
  · simp only [hk, if_true, coreCheck_clean hs, Bool.false_eq_true, if_false, forwarded]
  · simp only [hk, Bool.false_eq_true, if_false, forwarded]

theorem foldl_forwardOne (rule : Rule) (toks : List Token) : toks.foldl (forwardOne k rule arm) (s, false) =
    ({ s with net := s.net ++ toks.map (fun t => ⟨forwarded s k rule arm t, .nobody, slotOf s (k / 384)⟩) }, false) := by
  induction toks generalizing s with
  | nil => simp
  | cons t toks ih =>
    rw [List.foldl_cons, forwardOne_clean hdie hs hslot]
    refine (ih (s := { s with net := s.net ++ [_] }) hs hslot).trans ?_
    simp only [forwarded_net, List.append_assoc, List.singleton_append, List.map_cons]
    rfl

theorem fire_forwards (harm : armAction arm = 1) (n slot value : Nat) (toks : List Token) : ∃ e : Core,
    fire s k n slot arm value toks = pumpAll (setCore { s with net := s.net ++ toks.map (fun t =>
      ⟨forwarded s k (tget Rule.none (getCore s k).rules n) arm t, .nobody, slotOf s (k / 384)⟩) } k e) k ∧
    Fired n slot none (getCore s k) e := by
  have hforward : armForwards arm = true := by simp [armForwards, harm]
  unfold fire
  simp only [hforward, if_true, foldl_forwardOne hdie hs hslot]
  simp only [harm]
  exact ⟨_, rfl, fired_of ..⟩

/-- Over undamaged memory the FORWARD arm sends the set on, and leaves no record. -/
theorem fire_forwarded (harm : armAction arm = 1) (n slot value : Nat) (toks : List Token) : ∃ u, fire s k n slot arm value toks = u ∧
    awaits u = awaits s ∧ Fired n slot none (getCore s k) (getCore u k) ∧ u.net = s.net ++ toks.map (fun t =>
      ⟨forwarded s k (tget Rule.none (getCore s k).rules n) arm t, .nobody, slotOf s (k / 384)⟩) := by
  obtain ⟨e, he, hfired⟩ := fire_forwards hdie hs hslot harm n slot value toks
  refine ⟨_, he, ?_, ?_, ?_⟩
  · rw [awaits_pumpAll, awaits_setCore, awaits_net]
  · exact Fired.pumped (by rwa [getCore_setCore]) (pumped_pumpAll ..)
  · exact (quiet_pumpAll (s := setCore { s with net := _ } k e) hs k).net

end

/-- What a semaphore reads once its rule has fired by the DELIVER arm (R101, R103). -/
def countedOnce (c : Core) (rule : Rule) : Nat :=
  if rule.semen then min (tget 0 c.sem rule.sem + 1) 0xFFFF else tget 0 c.sem rule.sem

/-- The DELIVER arm leaves the VALUE as the slot's record and counts the semaphore; over undamaged memory it sends nothing and writes
no byte. -/
theorem fire_delivered {arm : Nat} (harm : armAction arm = 0) (s : State) (k n slot value : Nat) (toks : List Token) {rule : Rule}
    (hrule : tget Rule.none (getCore s k).rules n = rule) : ∃ u, fire s k n slot arm value toks = u ∧ awaits u = awaits s ∧
    (getHold (getCore u k) n slot).record = some (w32 value) ∧ (getHold (getCore u k) n slot).data = [] ∧
    (getHold (getCore u k) n slot).ctrl = none ∧ tget 0 (getCore u k).sem rule.sem = countedOnce (getCore s k) rule ∧
    (s.synd = [] → Quiet s u) := by
  obtain ⟨e, he, hfired⟩ := fire_delivers harm s k n slot value toks
  obtain ⟨u, hu⟩ : ∃ u, pumpAll (setCore s k e) k = u := ⟨_, rfl⟩
  have hcore : Fired n slot (some (w32 value)) (getCore s k) (getCore u k) :=
    hu ▸ Fired.pumped (by rwa [getCore_setCore]) (pumped_pumpAll ..)
  have haw : awaits u = awaits s := by rw [← hu, awaits_pumpAll, awaits_setCore]
  have hquiet : s.synd = [] → Quiet s u := fun h => by
    obtain ⟨hsynd, hnet, hmem⟩ := quiet_pumpAll (s := setCore s k e) ((setCore_synd ..).trans h) k
    exact hu ▸ ⟨hsynd, hnet.trans (setCore_net ..), hmem.trans (setCore_mem ..)⟩
  rw [hrule, hu] at he
  refine ⟨_, he, ?_⟩
  unfold countedOnce
  split
  · rw [awaits_semAdd, getCore_semAdd, tget_tset_same, hcore.sem]
    refine ⟨haw, hcore.record, hcore.data, hcore.ctrl, rfl, fun h => ⟨?_, ?_, ?_⟩⟩
    · rw [semAdd_keeps _ _ _ _ State.synd bump_synd, setCore_synd, (hquiet h).synd]
    · rw [semAdd_net, (hquiet h).net]
    · rw [semAdd_mem, (hquiet h).mem]
  · exact ⟨haw, hcore.record, hcore.data, hcore.ctrl, by rw [hcore.sem], hquiet⟩

end Sys2Proof.Proofs
end
section
/-! Proofs about tokens that arrive at a core (R98 to R103). -/
namespace Sys2Proof.Proofs
open Sys2Proof.Machine Sys2Proof.Safety Sys2Proof.Laws

/-! ## The switchback (R98, R100) -/

section
variable {s : State} {n kind k : Nat} {x : Flight} (h : ForCore s n kind k x)
  (hun : (getHold (getCore s k) x.tok.tag x.tok.slot).unmatched = false)
include h hun

theorem switchback_takes {wait : Core → Token → Bool} (hw : wait (getCore s k) x.tok = false) (f : Nat → Token → State → State) :
    switchback kind wait f n s = f k x.tok (netTake s n) := by
  simp [switchback, h.next, h.kind, h.site, h.epoch, hun, hw, Nat.not_le.mpr h.near]

theorem switchback_waits {wait : Core → Token → Bool} (hw : wait (getCore s k) x.tok = true) (f : Nat → Token → State → State) :
    switchback kind wait f n s = s := by
  simp [switchback, h.next, h.kind, h.site, h.epoch, hun, hw, Nat.not_le.mpr h.near]

end

/-- The set of a slot that holds its CONTROL token fires once it is whole. -/
theorem tryFire_held {s : State} {k n slot : Nat} {h : Hold} {t : Token} (hh : getHold (getCore s k) n slot = h) (hc : h.ctrl = some t) :
    tryFire s k n slot = if h.data.length = t.dcount then
      fire s k n slot (if t.arm then (tget Rule.none (getCore s k).rules n).arm1 else (tget Rule.none (getCore s k).rules n).arm0) t.value
        (h.data ++ [t]) else s := by
  simp only [tryFire, hh, hc]

theorem tryFire_unheld {s : State} {k n slot : Nat} (hc : (getHold (getCore s k) n slot).ctrl = none) : tryFire s k n slot = s := by
  simp only [tryFire, hc]

/-! ## DATA tokens (R100) -/

theorem memWrite_setCore (s : State) (k : Nat) (c : Core) (a : Nat) (bs : List Byte) :
    memWrite (setCore s k c) a bs = setCore (memWrite s a bs) k c := by
  induction bs generalizing s a with
  | nil => rfl
  | cons b bs ih => exact ih (wrByte s a b) (a + 1)

theorem coreStore_setCore {s : State} (hs : Sound s) (k : Nat) {c : Core} (hc : c.shadows = []) (a : Nat) (bs : List Byte) :
    coreStore (setCore s k c) k none a bs = setCore (memWrite s (coreAddr k a) bs) k c := by
  have hsound : Sound (setCore s k c) := hs
  rw [coreStore_unshadowed hsound (by rwa [getCore_setCore]), memWrite_setCore]

/-- The machine once core k holds a DATA token and its bytes. -/
def dataHeld (s : State) (k : Nat) (t : Token) (l : Tab Bool) : State :=
  setCore (memWrite s (coreAddr k (tokRange (tget Rule.none (getCore s k).rules t.tag) t).1) t.payload) k
    (setHold { getCore s k with busy := l } t.tag t.slot
      { getHold (getCore s k) t.tag t.slot with data := (getHold (getCore s k) t.tag t.slot).data ++ [t] })

section
variable {s : State} {k : Nat} {t : Token} (hs : Sound s) (hc : (getCore s k).shadows = [])
  (hsize : 32 * t.offset + 32 * t.length ≤ (tget Rule.none (getCore s k).rules t.tag).size)
  (href : refusesWrite (getCore s k) (tokRange (tget Rule.none (getCore s k).rules t.tag) t) = false)
include hs hc hsize href

/-- A DATA token that fits and may be written is held, and by itself fires a rule that does not join. -/
theorem dataDo_holds : ∃ l, dataDo k t s = if (tget Rule.none (getCore s k).rules t.tag).join then
      tryFire (dataHeld s k t l) k t.tag t.slot
    else fire (dataHeld s k t l) k t.tag t.slot (tget Rule.none (getCore s k).rules t.tag).arm0 t.value [t] := by
  obtain ⟨l, hl⟩ := markBusy_busy (getCore s k) (tokRange (tget Rule.none (getCore s k).rules t.tag) t).1
    (tokRange (tget Rule.none (getCore s k).rules t.tag) t).2 true
  refine ⟨l, ?_⟩
  have hstore : ∀ a, coreStore (setCore s k { getCore s k with busy := l }) k none a t.payload =
      setCore (memWrite s (coreAddr k a) t.payload) k { getCore s k with busy := l } := fun a =>
    coreStore_setCore hs k (c := { getCore s k with busy := l }) hc a t.payload
  have hfit : ¬ (tget Rule.none (getCore s k).rules t.tag).size < 32 * t.offset + 32 * t.length := Nat.not_lt.mpr hsize
  simp only [dataDo, hfit, href, hl, hstore, getCore_setCore, setCore_setCore, Bool.false_eq_true, if_false]
  rfl

end

section
variable (s : State) (k : Nat) (t : Token) (l : Tab Bool)

theorem getCore_dataHeld : getCore (dataHeld s k t l) k = setHold { getCore s k with busy := l } t.tag t.slot
    { getHold (getCore s k) t.tag t.slot with data := (getHold (getCore s k) t.tag t.slot).data ++ [t] } := getCore_setCore ..

theorem getHold_dataHeld : getHold (getCore (dataHeld s k t l) k) t.tag t.slot =
    { getHold (getCore s k) t.tag t.slot with data := (getHold (getCore s k) t.tag t.slot).data ++ [t] } := by
  rw [getCore_dataHeld, getHold_setHold]

/-- The token's bytes stand in its range. -/
theorem rdByte_dataHeld {i : Nat} (hi : i < t.payload.length) : rdByte (dataHeld s k t l)
    (coreAddr k ((tokRange (tget Rule.none (getCore s k).rules t.tag) t).1 + i)) = t.payload.getD i 0 := by
  rw [dataHeld, rdByte_setCore, coreAddr_add, rdByte_memWrite_in _ _ _ _ hi, List.getD_eq_getElem?_getD, List.getElem?_eq_getElem hi,
    Option.getD_some]

/-- What is no memory and no core, a DATA token that is held leaves. -/
theorem dataHeld_keeps {β : Type} (g : State → β) (hmem : ∀ u m, g { u with mem := m } = g u) (hcore : ∀ u c, g (setCore u k c) = g u) :
    g (dataHeld s k t l) = g s := by rw [dataHeld, hcore, memWrite_eq, hmem]

theorem synd_dataHeld : (dataHeld s k t l).synd = s.synd := dataHeld_keeps s k t l State.synd (fun _ _ => rfl) fun _ _ => setCore_synd ..

theorem awaits_dataHeld : awaits (dataHeld s k t l) = awaits s := dataHeld_keeps s k t l awaits (fun _ _ => rfl) fun _ _ => awaits_setCore ..

theorem net_dataHeld : (dataHeld s k t l).net = s.net := dataHeld_keeps s k t l State.net (fun _ _ => rfl) fun _ _ => setCore_net ..

end

/-- Sent on at once, a DATA token that is held takes its own bytes with it. -/
theorem forwarded_dataHeld {s : State} {k : Nat} {t : Token} (hc : (getCore s k).shadows = []) (hk : t.kind = 0)
    (hlen : t.payload.length = 32 * t.length) (l : Tab Bool) (arm : Nat) :
    forwarded (dataHeld s k t l) k (tget Rule.none (getCore s k).rules t.tag) arm t =
      { t with dest := here s (fld arm 2 4) (fld arm 6 9), tag := fld arm 15 5, src := here s (k / 384) (selfCore s k) } := by
  have hhere : ∀ d c, here (dataHeld s k t l) d c = here s d c := fun d c =>
    dataHeld_keeps s k t l (here · d c) (fun _ _ => rfl) fun _ _ => rfl
  have hself : selfCore (dataHeld s k t l) k = selfCore s k := dataHeld_keeps s k t l (selfCore · k) (fun _ _ => rfl) fun _ _ => rfl
  have hbytes : coreBytes (dataHeld s k t l) k none (tokRange (tget Rule.none (getCore s k).rules t.tag) t).1
      (tokRange (tget Rule.none (getCore s k).rules t.tag) t).2 = t.payload := by
    rw [coreBytes_unshadowed (by rw [getCore_dataHeld]; exact hc)]
    refine Eq.trans ?_ (memRead_memWrite s (coreAddr k (tokRange (tget Rule.none (getCore s k).rules t.tag) t).1) t.payload)
    rw [hlen]
    rfl
  rw [forwarded, if_pos hk, hhere, hhere, hself, hbytes]

/-! ## Tokens by their rule -/

/-- The machine once the slot of a joining rule holds its CONTROL token. -/
def ctrlHeld (s : State) (k : Nat) (t : Token) : State :=
  setCore s k (setHold (getCore s k) t.tag t.slot { getHold (getCore s k) t.tag t.slot with ctrl := some t })

theorem getCore_ctrlHeld (s : State) (k : Nat) (t : Token) : getCore (ctrlHeld s k t) k =
    setHold (getCore s k) t.tag t.slot { getHold (getCore s k) t.tag t.slot with ctrl := some t } := getCore_setCore ..

section
variable {s : State} {n k : Nat} {x : Flight} (hun : (getHold (getCore s k) x.tok.tag x.tok.slot).unmatched = false)
  (hw : tokenWaits (getCore s k) x.tok = false)
include hun hw

section
variable (h : ForCore s n 0 k x) (hs : Sound s) (hc : (getCore s k).shadows = [])
  (hsize : 32 * x.tok.offset + 32 * x.tok.length ≤ (tget Rule.none (getCore s k).rules x.tok.tag).size)
  (href : refusesWrite (getCore s k) (tokRange (tget Rule.none (getCore s k).rules x.tok.tag) x.tok) = false)
include h hs hc hsize href

theorem execDataTokenArrive_joins (hj : (tget Rule.none (getCore s k).rules x.tok.tag).join = true)
    (hctrl : (getHold (getCore s k) x.tok.tag x.tok.slot).ctrl = none) :
    ∃ l, execDataTokenArrive n s = dataHeld (netTake s n) k x.tok l := by
  obtain ⟨l, hl⟩ := dataDo_holds (s := netTake s n) hs hc hsize href
  exact ⟨l, (switchback_takes h hun hw dataDo).trans (hl.trans ((if_pos hj).trans
    (tryFire_unheld (by rw [getHold_dataHeld]; exact hctrl))))⟩

theorem execDataTokenArrive_fires (hj : (tget Rule.none (getCore s k).rules x.tok.tag).join = false) :
    ∃ l, execDataTokenArrive n s = fire (dataHeld (netTake s n) k x.tok l) k x.tok.tag x.tok.slot
      (tget Rule.none (getCore s k).rules x.tok.tag).arm0 x.tok.value [x.tok] := by
  obtain ⟨l, hl⟩ := dataDo_holds (s := netTake s n) hs hc hsize href
  exact ⟨l, (switchback_takes h hun hw dataDo).trans (hl.trans (if_neg (ne_true_of_eq_false hj)))⟩

end

section
variable (h : ForCore s n 1 k x) (hctrl : (getHold (getCore s k) x.tok.tag x.tok.slot).ctrl = none)
include h hctrl

theorem execControlTokenArrive_takes : execControlTokenArrive n s = controlDo k x.tok (netTake s n) :=
  switchback_takes (wait := fun c t => tokenWaits c t || (getHold c t.tag t.slot).ctrl.isSome) h hun (by rw [hw, hctrl]; rfl) controlDo

theorem execControlTokenArrive_fires (hj : (tget Rule.none (getCore s k).rules x.tok.tag).join = false) :
    execControlTokenArrive n s = fire (netTake s n) k x.tok.tag x.tok.slot
      (tget Rule.none (getCore s k).rules x.tok.tag).arm0 x.tok.value [x.tok] :=
  (execControlTokenArrive_takes hun hw h hctrl).trans (if_pos (by rw [getCore_netTake, hj]; rfl))

/-- With JOIN = 1 the tokens are held, until the set is whole and fires. -/
theorem execControlTokenArrive_joins (hj : (tget Rule.none (getCore s k).rules x.tok.tag).join = true)
    (hle : (getHold (getCore s k) x.tok.tag x.tok.slot).data.length ≤ x.tok.dcount) :
    execControlTokenArrive n s = if (getHold (getCore s k) x.tok.tag x.tok.slot).data.length = x.tok.dcount then
      fire (ctrlHeld (netTake s n) k x.tok) k x.tok.tag x.tok.slot (if x.tok.arm then (tget Rule.none (getCore s k).rules x.tok.tag).arm1
        else (tget Rule.none (getCore s k).rules x.tok.tag).arm0) x.tok.value ((getHold (getCore s k) x.tok.tag x.tok.slot).data ++ [x.tok])
      else ctrlHeld (netTake s n) k x.tok := by
  have hheld : controlDo k x.tok (netTake s n) = tryFire (ctrlHeld (netTake s n) k x.tok) k x.tok.tag x.tok.slot :=
    (if_neg (by rw [getCore_netTake, hj]; decide)).trans (if_neg (Nat.not_lt.mpr hle))
  rw [execControlTokenArrive_takes hun hw h hctrl, hheld, tryFire_held (by rw [getCore_ctrlHeld, getHold_setHold]) rfl, getCore_ctrlHeld]
  rfl

end
end

theorem exec_signalTokenArrive {s : State} {n k : Nat} {x : Flight} (h : ForCore s n 5 k x) :
    exec (.signalTokenArrive n) s = .next (semAdd (netTake s n) k x.tok.tag (x.tok.value % 65536)) := by
  refine exec_of_awaits (congrArg (answer s) ?_) (by rw [awaits_semAdd, awaits_netTake])
  simp [execSignalTokenArrive, h.next, h.kind, h.site, h.epoch, Nat.not_le.mpr h.near]

/-- Settles O18: DATA and CONTROL tokens by what they leave held and how their rule fires, a SIGNAL by its semaphore. -/
theorem tokensAtCore : Obligations.TokensAtCore := by
  unfold Obligations.TokensAtCore
  refine ⟨fun s n k x => ?_, fun s n k x h => ?_⟩
  · intro t c rule hold
    refine ⟨fun h hun hw hj hctrl hsize href hc hs hh => ?_, fun h hun hw hj hctrl => ⟨fun hlt => ?_, fun hlen harm => ?_⟩,
      fun h hun hw hj hctrl hs hlen => ?_, fun h hun hw hj hlen hsize href hc hs hh => ⟨fun harm => ?_, fun harm hdie hslot => ?_⟩,
      fun h hun hw hctrl hj hs => ⟨fun harm => ?_, fun harm hdie hslot => ?_⟩, fun h hun hw => ?_, fun h hun hw => ?_⟩
    · obtain ⟨l, hl⟩ := execDataTokenArrive_joins hun hw h ⟨hs, hh⟩ hc hsize href hj hctrl
      refine ⟨_, exec_of_awaits (congrArg (answer s) hl) ?_, ?_, fun i hi => rdByte_dataHeld (netTake s n) k t l hi, ?_⟩
      · rw [awaits_dataHeld, awaits_netTake]
      · rw [getHold_dataHeld]
        rfl
      · rw [net_dataHeld]
        rfl
    · have he := (execControlTokenArrive_joins hun hw h hctrl hj hlt.le).trans (if_neg hlt.ne)
      refine ⟨_, exec_of_awaits (congrArg (answer s) he) ?_, ?_, ?_, ?_⟩
      · rw [ctrlHeld, awaits_setCore, awaits_netTake]
      · rw [getCore_ctrlHeld, getHold_setHold]
      · rw [getCore_ctrlHeld, getHold_setHold]
        rfl
      · rw [ctrlHeld, setCore_net]
        rfl
    · have he := (execControlTokenArrive_joins hun hw h hctrl hj hlen.le).trans (if_pos hlen)
      have hcore := getCore_ctrlHeld (netTake s n) k t
      obtain ⟨u, hu, haw, hrecord, hdata, hno, hsem, -⟩ := fire_delivered harm (ctrlHeld (netTake s n) k t) k t.tag t.slot t.value
        (hold.data ++ [t]) (rule := rule) (by rw [hcore]; rfl)
      refine ⟨u, exec_of_awaits (congrArg (answer s) (he.trans hu)) ?_, hrecord, hdata, hno, ?_⟩
      · rw [haw, ctrlHeld, awaits_setCore, awaits_netTake]
      · rw [hsem, hcore]
        rfl
    · intro arm harm hdie hslot
      have he := (execControlTokenArrive_joins hun hw h hctrl hj hlen.le).trans (if_pos hlen)
      have hsynd : (ctrlHeld (netTake s n) k t).synd = [] := hs
      obtain ⟨u, hu, haw, hfired, hnet⟩ := fire_forwarded hdie (s := ctrlHeld (netTake s n) k t) hsynd hslot harm t.tag t.slot t.value
        (hold.data ++ [t])
      refine ⟨u, _, exec_of_awaits (congrArg (answer s) (he.trans hu)) ?_, hnet, ?_, hfired.record, hfired.data⟩
      · rw [haw, ctrlHeld, awaits_setCore, awaits_netTake]
      · rw [List.map_map]
        rfl
    · obtain ⟨l, hl⟩ := execDataTokenArrive_fires hun hw h ⟨hs, hh⟩ hc hsize href hj
      have hcore := getCore_dataHeld (netTake s n) k t l
      obtain ⟨u, hu, haw, hrecord, hdata, -, hsem, hquiet⟩ := fire_delivered harm (dataHeld (netTake s n) k t l) k t.tag t.slot t.value [t]
        (rule := rule) (by rw [hcore]; rfl)
      obtain ⟨-, hnet, hmem⟩ := hquiet (by rw [synd_dataHeld]; exact hs)
      refine ⟨u, exec_of_awaits (congrArg (answer s) (hl.trans hu)) ?_, ?_, hrecord, hdata, fun i hi => ?_, ?_⟩
      · rw [haw, awaits_dataHeld, awaits_netTake]
      · rw [hnet, net_dataHeld]
        rfl
      · rw [rdByte, hmem, ← rdByte]
        exact rdByte_dataHeld (netTake s n) k t l hi
      · rw [hsem, hcore]
        rfl
    · obtain ⟨l, hl⟩ := execDataTokenArrive_fires hun hw h ⟨hs, hh⟩ hc hsize href hj
      have hslot' : ∀ d, slotOf (dataHeld (netTake s n) k t l) d = slotOf s d := fun d =>
        dataHeld_keeps (netTake s n) k t l (slotOf · d) (fun _ _ => rfl) fun _ _ => rfl
      have hrule : tget Rule.none (getCore (dataHeld (netTake s n) k t l) k).rules t.tag = rule := by rw [getCore_dataHeld]; rfl
      obtain ⟨u, hu, haw, hfired, hnet⟩ := fire_forwarded hdie (s := dataHeld (netTake s n) k t l) ((synd_dataHeld ..).trans hs)
        (by rw [hslot', hslot', hslot]) harm t.tag t.slot t.value [t]
      refine ⟨u, exec_of_awaits (congrArg (answer s) (hl.trans hu)) ?_, hfired.record, ?_⟩
      · rw [haw, awaits_dataHeld, awaits_netTake]
      · have hfwd : forwarded (dataHeld (netTake s n) k t l) k rule rule.arm0 t = _ :=
          forwarded_dataHeld (s := netTake s n) hc h.kind hlen l rule.arm0
        rw [hnet, net_dataHeld, hrule, hslot', List.map_singleton, hfwd]
        rfl
    · obtain ⟨u, hu, haw, hrecord, -, -, hsem, -⟩ := fire_delivered harm (netTake s n) k t.tag t.slot t.value [t] (rule := rule) rfl
      exact ⟨u, exec_of_awaits (congrArg (answer s) ((execControlTokenArrive_fires hun hw h hctrl hj).trans hu))
        (by rw [haw, awaits_netTake]), hrecord, hsem⟩
    · obtain ⟨u, hu, haw, hfired, hnet⟩ := fire_forwarded hdie (s := netTake s n) hs hslot harm t.tag t.slot t.value [t]
      refine ⟨u, exec_of_awaits (congrArg (answer s) ((execControlTokenArrive_fires hun hw h hctrl hj).trans hu))
        (by rw [haw, awaits_netTake]), hfired.record, ?_⟩
      have hkind : ¬ t.kind = 0 := by rw [h.kind]; decide
      rw [hnet, List.map_singleton, forwarded, if_neg hkind]
      rfl
    · exact exec_of_awaits (congrArg (answer s) (switchback_waits h hun hw dataDo)) rfl
    · exact exec_of_awaits (congrArg (answer s) (switchback_waits h hun
        (wait := fun c t => tokenWaits c t || (getHold c t.tag t.slot).ctrl.isSome) (by rw [hw]; rfl) controlDo)) rfl
  · refine ⟨_, exec_signalTokenArrive h, ?_, fun j hj => ?_, fun j hj => ?_, ?_, ?_⟩
    · rw [getCore_semAdd, tget_tset_same]
      rfl
    · rw [getCore_semAdd]
      exact tget_tset_ne _ _ _ hj
    · rw [getCore_semAdd_ne _ _ _ _ hj]
      rfl
    · rw [semAdd_net]
      rfl
    · rw [semAdd_mem]
      rfl

end Sys2Proof.Proofs
end
section
/-! Proofs about the sending side of a Flidric port: the fields of a flit, and what sending leaves of the receiving side (R297 to
R303). -/
namespace Sys2Proof.Proofs
open Sys2Proof.Machine Sys2Proof.Safety Sys2Proof.Laws

/-! ## The fields of a flit (R299) -/

section
variable (s : State) (p : Nat) (x : PortSt) (vc cls seq credit : Nat) (hb nak : Bool) (pl : List Byte)

theorem bytesAt_flitBytes_flags :
    bytesAt (flitBytes s p x vc cls seq credit hb nak pl) 0 1 = (vc + 4 * cls + 8 * b2n hb + 16 * b2n nak) % 256 := by
  simp only [flitBytes, List.append_assoc]
  exact bytesAt_between [] _ 1 _

theorem flSeq_flitBytes : flSeq (flitBytes s p x vc cls seq credit hb nak pl) = seq % 4096 := by
  have hb : bytesAt (flitBytes s p x vc cls seq credit hb nak pl) 1 2 = seq % 256 ^ 2 := by
    simp only [flitBytes, List.append_assoc]
    rw [← List.append_assoc]
    exact bytesAt_between (toBytes 1 _) _ 2 _
  rw [flSeq, hb]
  omega

theorem bytesAt_flitBytes_heartbeat : bytesAt (flitBytes s p x vc cls seq credit hb nak pl) 7 3 =
    (if hb then moduleNo s + 2 ^ 18 * p else 0) % 256 ^ 3 := by
  have hcut : ∃ rest, flitBytes s p x vc cls seq credit hb nak pl =
      (toBytes 1 (vc + 4 * cls + 8 * b2n hb + 16 * b2n nak) ++ toBytes 2 seq ++ toBytes 2 ((x.expect + 4095) % 4096) ++ toBytes 1 credit
        ++ toBytes 1 pl.length) ++ toBytes 3 (if hb then moduleNo s + 2 ^ 18 * p else 0) ++ rest := by
    simp only [flitBytes, List.append_assoc]
    exact ⟨_, rfl⟩
  obtain ⟨rest, h⟩ := hcut
  rw [h]
  exact bytesAt_between (toBytes 1 _ ++ toBytes 2 _ ++ toBytes 2 _ ++ toBytes 1 _ ++ toBytes 1 _) rest 3 _

end

/-- A flit of a heartbeat carries HB, the module and the port (R302). -/
theorem heartbeat_fields (s : State) {p : Nat} (hp : p < 16) (x : PortSt) (c : Bool) (credit : Nat) (pl : List Byte) :
    flHb (flitBytes s p x 3 (b2n c) 0 credit true false pl) = true ∧
    flHbId (flitBytes s p x 3 (b2n c) 0 credit true false pl) = moduleNo s ∧
    flHbPort (flitBytes s p x 3 (b2n c) 0 credit true false pl) = p := by
  have hm : moduleNo s < 2 ^ 18 := Nat.mod_lt _ (by decide)
  have hv : bytesAt (flitBytes s p x 3 (b2n c) 0 credit true false pl) 7 3 = moduleNo s + 2 ^ 18 * p := by
    rw [bytesAt_flitBytes_heartbeat, if_pos rfl, Nat.mod_eq_of_lt (by omega)]
  refine ⟨?_, ?_, ?_⟩
  · rw [flHb, bytesAt_flitBytes_flags]
    cases c <;> decide
  · rw [flHbId, hv]
    omega
  · rw [flHbPort, hv, fld, Nat.shiftRight_eq_div_pow]
    omega

theorem flNak_asked (s : State) (p : Nat) (x : PortSt) (c : Bool) (credit : Nat) (pl : List Byte) :
    flNak (flitBytes s p x 3 (b2n c) 0 credit false true pl) = true := by
  rw [flNak, bytesAt_flitBytes_flags]
  cases c <;> decide

/-! ## What sending leaves -/

/-- t has what port p counts and awaits as in s, and its registers but those that sending counts in. -/
structure Counts (p : Nat) (s t : State) : Prop where
  awaits : awaits t = awaits s
  reads : ∀ o < 0x1000, o ≠ fld_TX_FLITS → o ≠ fld_DISCARDED → rd t (.fld p) o = rd s (.fld p) o
  expect : (getPort t p).expect = (getPort s p).expect
  bad : (getPort t p).bad = (getPort s p).bad

/-- t has the whole receiving side of port p as in s, and of its wire what more was sent. -/
structure Emits (p : Nat) (s t : State) : Prop extends Counts p s t where
  nakIn : (getPort t p).nakIn = (getPort s p).nakIn
  rx : (getPort t p).rx = (getPort s p).rx
  inbox : (getPort t p).inbox = (getPort s p).inbox
  wire : ∃ l, (getPort t p).wire = (getPort s p).wire ++ l

/-- x has the receiving side of y. -/
def SameInput (x y : PortSt) : Prop := x.expect = y.expect ∧ x.bad = y.bad ∧ x.nakIn = y.nakIn ∧ x.rx = y.rx ∧ x.inbox = y.inbox

theorem SameInput.refl (x : PortSt) : SameInput x x := ⟨rfl, rfl, rfl, rfl, rfl⟩

namespace Counts
variable {p : Nat} {s t u : State}

theorem refl (p : Nat) (s : State) : Counts p s s := ⟨rfl, fun _ _ _ _ => rfl, rfl, rfl⟩

theorem trans (h : Counts p s t) (g : Counts p t u) : Counts p s u :=
  ⟨g.awaits.trans h.awaits, fun o ho ht hd => (g.reads o ho ht hd).trans (h.reads o ho ht hd), g.expect.trans h.expect, g.bad.trans h.bad⟩

end Counts

namespace Emits
variable {p : Nat} {s t u : State}

theorem refl (p : Nat) (s : State) : Emits p s s := ⟨.refl p s, rfl, rfl, rfl, [], (List.append_nil _).symm⟩

theorem trans (h : Emits p s t) (g : Emits p t u) : Emits p s u := by
  obtain ⟨l, hl⟩ := h.wire
  obtain ⟨m, hm⟩ := g.wire
  exact ⟨h.toCounts.trans g.toCounts, g.nakIn.trans h.nakIn, g.rx.trans h.rx, g.inbox.trans h.inbox, l ++ m,
    by rw [hm, hl, List.append_assoc]⟩

/-- Sending counts on a port's page in TX_FLITS and DISCARDED, and on the page of a slot's routes. -/
theorem bump {q o : Nat} (ho : o < 0x1000) (h : q ≠ p ∨ o = fld_TX_FLITS ∨ o = fld_DISCARDED) (s : State) (n : Nat) :
    Emits p s (bump s (.fld q) o n) := by
  refine ⟨⟨awaits_bump .., fun a ha ht hd => rd_bump_ne _ _ ?_, rfl, rfl⟩, rfl, rfl, rfl, [], (List.append_nil _).symm⟩
  simp only [pageBase]
  omega

/-- What the sending side of a port becomes. -/
theorem setPort {q : Nat} {x : PortSt} (hx : SameInput x (getPort s q)) (hw : ∃ l, x.wire = (getPort s q).wire ++ l) (p : Nat) :
    Emits p s (setPort s q x) := by
  obtain ⟨he, hb, hn, hr, hi⟩ := hx
  by_cases h : p = q
  · subst h
    exact ⟨⟨awaits_setPort .., fun _ _ _ _ => rfl, by rwa [getPort_setPort], by rwa [getPort_setPort]⟩, by rwa [getPort_setPort],
      by rwa [getPort_setPort], by rwa [getPort_setPort], by rwa [getPort_setPort]⟩
  · exact ⟨⟨awaits_setPort .., fun _ _ _ _ => rfl, by rw [getPort_setPort_ne _ _ h], by rw [getPort_setPort_ne _ _ h]⟩,
      by rw [getPort_setPort_ne _ _ h], by rw [getPort_setPort_ne _ _ h], by rw [getPort_setPort_ne _ _ h], [],
      by rw [getPort_setPort_ne _ _ h, List.append_nil]⟩

theorem ite {c : Prop} [Decidable c] (ht : Emits p s t) (hu : Emits p s u) : Emits p s (if c then t else u) := by
  split
  · exact ht
  · exact hu

end Emits

/-- Of a port, returning credit changes what is owed. -/
theorem nextCredit_owed (x : PortSt) (cls : Nat) : ∃ l, (nextCredit x cls).2 = { x with owed := l } := by
  unfold nextCredit
  split
  · exact ⟨_, rfl⟩
  · exact ⟨_, rfl⟩

/-- A flit that no replay keeps goes out with the credit of its CLASS. -/
theorem sendNone_eq (s : State) (p : Nat) (hb nak : Bool) : ∃ (l : Tab Nat) (c : Bool) (credit : Nat), sendNone s p hb nak =
    bump (setPort s p { getPort s p with
      owed := l, unanswered := 0, wire := (getPort s p).wire ++ [flitBytes s p { getPort s p with owed := l } 3 (b2n c) 0 credit hb nak []] })
      (.fld p) fld_TX_FLITS 1 := by
  obtain ⟨l, hl⟩ := nextCredit_owed (getPort s p) (idleClass (getPort s p))
  refine ⟨l, (List.range 3).all (fun v => tget 0 (getPort s p).owed (streamKey v 0) == 0),
    (nextCredit (getPort s p) (idleClass (getPort s p))).1, ?_⟩
  unfold sendNone
  dsimp only
  rw [hl]
  rfl

theorem emits_sendNone (s : State) (p : Nat) (hb nak : Bool) : Emits p s (sendNone s p hb nak) := by
  obtain ⟨l, c, credit, h⟩ := sendNone_eq s p hb nak
  rw [h]
  refine Emits.trans (.setPort ?_ ⟨_, rfl⟩ p) (.bump (by decide) (.inr (.inl rfl)) ..)
  exact .refl (getPort s p)

theorem emits_ackIdle (s : State) (p : Nat) : Emits p s (ackIdle s p) := by
  refine .ite (emits_sendNone ..) (.setPort ?_ ⟨[], ?_⟩ p)
  · exact .refl (getPort s p)
  · rw [List.append_nil]

section
variable (p : Nat)

/-- A flit goes out with the credit of its CLASS, and the replay buffer keeps it. -/
theorem emits_flit {s : State} {q : Nat} {y : PortSt} (hy : SameInput y (getPort s q)) (hw : y.wire = (getPort s q).wire)
    (cls : Nat) (l : List TxFlit) (f : List Byte) : Emits p s (bump (setPort s q
      { (nextCredit y cls).2 with replay := l, wire := (nextCredit y cls).2.wire ++ [f] }) (.fld q) fld_TX_FLITS 1) := by
  obtain ⟨o, ho⟩ := nextCredit_owed y cls
  rw [ho]
  exact (Emits.setPort (q := q) (x := { y with owed := o, replay := l, wire := y.wire ++ [f] }) hy ⟨[f], by rw [hw]⟩ p).trans
    (.bump (by decide) (.inr (.inl rfl)) ..)

theorem emits_sendFlit {s t : State} {q : Nat} (h : sendFlit s q = some t) : Emits p s t := by
  unfold sendFlit at h
  dsimp only at h
  split at h
  · cases h
  · split at h
    · cases h
    · cases h
      refine emits_flit p ?_ ?_ _ _ _
      · exact .refl (getPort s q)
      · rfl

theorem emits_flush (n q : Nat) (s : State) : Emits p s (flush n q s) := by
  induction n generalizing s with
  | zero => exact .refl p s
  | succ n ih =>
    unfold flush
    split
    · split
      next h => exact (emits_sendFlit p h).trans (ih _)
      · exact .refl p s
    · exact .refl p s

theorem emits_portFlush (s : State) (q : Nat) : Emits p s (portFlush s q) := emits_flush ..

variable {p : Nat} (hp : p < 16)
include hp

theorem emits_routePage {o : Nat} (ho : o < 0x1000) (s : State) (k n : Nat) : Emits p s (bump s (routePage k) o n) :=
  .bump ho (.inl (by omega)) ..

theorem emits_portPut (s : State) (k q cls vc : Nat) (bytes : List Byte) (own : Option Flight) :
    Emits p s (portPut s k q cls vc bytes own) := by
  unfold portPut
  split
  · exact .ite ((emits_routePage hp (by decide) ..).trans (.bump (by decide) (.inr (.inr rfl)) ..)) (emits_routePage hp (by decide) ..)
  · refine Emits.trans (.setPort ?_ ⟨[], ?_⟩ p) (emits_portFlush ..)
    · exact .refl (getPort s q)
    · rw [List.append_nil]

theorem emits_routeOut (s : State) (k : Nat) (f : Flight) (from_ : Option (Nat × Nat)) : Emits p s (routeOut s k f from_) :=
  .ite (emits_routePage hp (by decide) ..) (emits_portPut hp ..)

theorem emits_leaveAll (n : Nat) (s : State) : Emits p s (leaveAll n s) := by
  induction n generalizing s with
  | zero => exact .refl p s
  | succ n ih =>
    unfold leaveAll
    split
    next m f _ =>
      have htake : Emits p s (netTake s m) := ⟨⟨awaits_netTake .., fun _ _ _ _ => rfl, rfl, rfl⟩, rfl, rfl, rfl, [], (List.append_nil _).symm⟩
      exact (htake.trans (emits_routeOut hp ..)).trans (ih _)
    · exact .refl p s

theorem emits_hubLets (s : State) : Emits p s (hubLets s) := emits_leaveAll hp ..

end

end Sys2Proof.Proofs
end
section
/-! Proofs about the receiving side of a Flidric port (R299 to R302, R307). -/
namespace Sys2Proof.Proofs
open Sys2Proof.Machine Sys2Proof.Safety Sys2Proof.Laws

/-! ## What each part of a flit's reception changes -/

section
variable (s : State) (p : Nat) (good : Bool)

/-- What forward error correction counts leaves all but its registers and the messages. -/
theorem fecCount_keeps {β : Type} (g : State → β) (hfree : ∀ t n, g { t with free := n } = g t) (hwr : ∀ t o v, o = fld_HB_AGE ∨
    o = fld_FEC_CORR ∨ o = fld_FEC_UNCORR → g (wr t (.fld p) o v) = g t) (hraise : ∀ t n, g (raise t (.fld p) n) = g t) :
    g (fecCount s p good) = g s := by
  have hdraw : ∀ t, g (drawNat t).2 = g t := fun t => hfree ..
  have hbump : ∀ t o n, o = fld_FEC_CORR ∨ o = fld_FEC_UNCORR → g (bump t (.fld p) o n) = g t := fun t o n h => hwr t o _ (.inr h)
  unfold fecCount
  extract_lets a b c age t
  have ht : g t = g s := by rw [hbump _ _ _ (.inl rfl), hwr _ _ _ (.inl rfl), hdraw, hdraw, hdraw]
  split
  · exact ht
  · rw [hraise, hbump _ _ _ (.inr rfl), ht]

theorem ports_fecCount : (fecCount s p good).ports = s.ports :=
  fecCount_keeps s p good State.ports (fun _ _ => rfl) (fun _ _ _ _ => rfl) fun _ _ => raise_ports ..

theorem net_fecCount : (fecCount s p good).net = s.net :=
  fecCount_keeps s p good State.net (fun _ _ => rfl) (fun _ _ _ _ => rfl) fun _ _ => raise_net ..

theorem awaits_fecCount : awaits (fecCount s p good) = awaits s :=
  fecCount_keeps s p good awaits (fun _ _ => rfl) (fun _ _ _ _ => awaits_wr ..) fun _ _ => awaits_raise ..

theorem rd_fecCount {q : Page} {o : Nat} (h : ∀ a, a = fld_HB_AGE ∨ a = fld_FEC_CORR ∨ a = fld_FEC_UNCORR ∨ a = hEVT →
    pageBase q + o ≠ pageBase (.fld p) + a) : rd (fecCount s p good) q o = rd s q o :=
  fecCount_keeps s p good (rd · q o) (fun _ _ => rfl)
    (fun t a v ha => rd_wr_ne t v (h a (by rcases ha with e | e | e <;> simp [e]))) fun t n => rd_raise_ne t n (h hEVT (by simp))

theorem getPort_fecCount : getPort (fecCount s p good) p = getPort s p := by rw [getPort, ports_fecCount, ← getPort]

end

section
variable (s : State) (p : Nat) (b : List Byte)

/-- The control part of a flit releases what its ACK covers, and brings NAK and credit. -/
theorem getPort_flitControl : ∃ (l : List TxFlit) (c : Tab Nat), getPort (flitControl s p b) p =
    { getPort s p with replay := l, nakIn := (getPort s p).nakIn || flNak b, credit := c } := by
  unfold flitControl
  dsimp only
  split
  · exact ⟨_, _, getPort_setPort ..⟩
  · exact ⟨_, _, getPort_setPort ..⟩

theorem awaits_flitControl : awaits (flitControl s p b) = awaits s := by simp [flitControl]

theorem rd_flitControl_ne {o : Nat} (hp : o ≠ fld_PEER) (ha : o ≠ fld_HB_AGE) : rd (flitControl s p b) (.fld p) o = rd s (.fld p) o := by
  unfold flitControl
  dsimp only
  split
  · rw [rd_wr_ne _ _ (by omega), rd_wr_ne _ _ (by omega)]
    rfl
  · rfl

/-- A heartbeat names the peer and its port (R302). -/
theorem rd_flitControl (h : flHb b = true) : rd (flitControl s p b) (.fld p) fld_PEER = flHbId b + 2 ^ 18 * flHbPort b ∧
    rd (flitControl s p b) (.fld p) fld_HB_AGE = 0 := by
  have hid : flHbId b < 2 ^ 18 := Nat.mod_lt _ (by decide)
  have hport : flHbPort b < 2 ^ 4 := Nat.mod_lt _ (by decide)
  unfold flitControl
  dsimp only
  rw [if_pos h]
  refine ⟨?_, rd_wr ..⟩
  rw [rd_wr_ne _ _ (by simp only [fld_PEER, fld_HB_AGE]; omega), rd_wr, Nat.mod_eq_of_lt (by omega)]

end

/-! ## The units of a stream (R300) -/

theorem rxFree_eq (x : PortSt) (key n : Nat) : ∃ (f : Tab (List Nat)) (o : Tab Nat), rxFree x key n = { x with fills := f, owed := o } :=
  ⟨_, _, rfl⟩

namespace Counts
variable {p : Nat} {s : State}

theorem setPort {x : PortSt} (he : x.expect = (getPort s p).expect) (hb : x.bad = (getPort s p).bad) : Counts p s (setPort s p x) :=
  ⟨awaits_setPort .., fun _ _ _ _ => rfl, by rwa [getPort_setPort], by rwa [getPort_setPort]⟩

theorem discards (s : State) (n : Nat) : Counts p s (bump s (.fld p) fld_DISCARDED n) :=
  (Emits.bump (by decide) (.inr (.inr rfl)) s n).toCounts

end Counts

theorem counts_takeUnits (n p key : Nat) (s : State) : Counts p s (takeUnits n p key s) := by
  induction n generalizing s with
  | zero => exact .refl p s
  | succ n ih =>
    unfold takeUnits
    extract_lets x b m y
    have hfree : ∀ k, Counts p s (Machine.setPort s p (rxFree y key k)) := fun k => by
      obtain ⟨f, o, h⟩ := rxFree_eq y key k
      rw [h]
      exact .setPort rfl rfl
    split
    · exact .refl p s
    · split
      · exact (hfree _).trans (ih _)
      · split
        · exact ((hfree _).trans (.discards ..)).trans (ih _)
        · refine Counts.trans (Counts.setPort ?_ ?_) (ih _)
          · rfl
          · rfl

theorem takeUnits_short {s : State} {p key : Nat} (h : (tget [] (getPort s p).rx key).length < 32) (n : Nat) : takeUnits n p key s = s := by
  cases n with
  | zero => rfl
  | succ n => exact if_pos (.inl h)

/-- A stream that holds one whole token and no more gives it to the inbox. -/
theorem takeUnits_whole {s : State} {p key : Nat} {b : List Byte} (hb : tget [] (getPort s p).rx key = b)
    (hvoid : tfind (getPort s p).void key = none) (hlen : 32 ≤ b.length) (hsize : unitSize (key / 2) b = b.length) (hvc : key / 2 < 2) (n : Nat) :
    (getPort (takeUnits (n + 1) p key s) p).inbox = (getPort s p).inbox ++ [(key / 2, key % 2, b)] := by
  have hlong : ¬ (b.length < 32 ∨ b.length < b.length) := by omega
  have hcoll : (decide (key / 2 = 2) && segVoid b) = false := by
    have hne : ¬ key / 2 = 2 := by omega
    simp [hne]
  have hstep : takeUnits (n + 1) p key s = takeUnits n p key (setPort s p { getPort s p with
      rx := tset [] (getPort s p).rx key [], void := tdel (getPort s p).void key,
      inbox := (getPort s p).inbox ++ [(key / 2, key % 2, b)] }) := by
    rw [takeUnits]
    simp only [hb, hvoid, hsize, hlong, hcoll, List.take_length, List.drop_length, if_false, Bool.false_eq_true]
  rw [hstep, takeUnits_short (by rw [getPort_setPort]; simp), getPort_setPort]

/-! ## A flit that fails (R301) -/

theorem offset_ne {p : Page} {a b : Nat} (h : a ≠ b) : pageBase p + a ≠ pageBase p + b := fun e => h (Nat.add_left_cancel e)

section
variable (s : State) (p : Nat)

theorem rd_portDrop_ne {o : Nat} (h : o ≠ fld_DISCARDED) : rd (portDrop s p) (.fld p) o = rd s (.fld p) o := by
  rw [portDrop, rd_setPort, rd_bump_ne _ _ (offset_ne h)]

theorem rd_linkDown_ne {o : Nat} (hd : o ≠ fld_DISCARDED) (hs : o ≠ fld_STATE) (hst : o ≠ hSTATUS) (he : o ≠ hEVT) :
    rd (linkDown s p) (.fld p) o = rd s (.fld p) o := by
  rw [linkDown, condition, rd_raise_ne _ _ (offset_ne he), last, rd_wrFld_ne _ _ _ _ (offset_ne hst), rd_portDrop_ne _ _ hd, setPortState,
    rd_wrFld_ne _ _ _ _ (offset_ne hs)]

theorem portState_linkDown : portState (linkDown s p) p = 4 := by
  rw [portState, linkDown, condition, rd_raise_ne _ _ (offset_ne (by decide)), last, rd_wrFld_ne _ _ _ _ (offset_ne (by decide)),
    rd_portDrop_ne _ _ (by decide), setPortState, rd_wrFld _ _ _ _ _ _ (by decide), Nat.mod_eq_of_lt (by decide)]

/-- The machine once a flit of port p has failed, before what the failure brings. -/
def failed (counts : Bool) : State := setPort s p { getPort s p with bad := (getPort s p).bad + b2n counts, skipping := true }

theorem flitFails_cases (counts : Bool) : flitFails s p counts =
    if counts && decide (8 ≤ (getPort s p).bad + b2n counts) then linkDown (failed s p counts) p
    else sendNone (failed s p counts) p false true := rfl

theorem rd_flitFails_ne (counts : Bool) {o : Nat} (ho : o < 0x1000) (ht : o ≠ fld_TX_FLITS) (hd : o ≠ fld_DISCARDED) (hs : o ≠ fld_STATE)
    (hst : o ≠ hSTATUS) (he : o ≠ hEVT) : rd (flitFails s p counts) (.fld p) o = rd s (.fld p) o := by
  rw [flitFails_cases]
  split
  · rw [rd_linkDown_ne _ _ hd hs hst he, failed, rd_setPort]
  · rw [(emits_sendNone ..).reads o ho ht hd, failed, rd_setPort]

theorem awaits_flitFails (counts : Bool) : awaits (flitFails s p counts) = awaits s := by
  rw [flitFails_cases]
  split
  · simp [linkDown, portDrop, setPortState, failed]
  · rw [(emits_sendNone ..).awaits, failed, awaits_setPort]

/-- The eighth failure in a row takes the port down. -/
theorem flitFails_downs (h : 8 ≤ (getPort s p).bad + 1) : portState (flitFails s p true) p = 4 := by
  have hdown : (true && decide (8 ≤ (getPort s p).bad + b2n true)) = true := decide_eq_true h
  rw [flitFails_cases, if_pos hdown, portState_linkDown]

/-- An earlier one asks for the replay. -/
theorem flitFails_asks {counts : Bool} (h : counts = true → (getPort s p).bad + 1 < 8) : ∃ f,
    (getPort (flitFails s p counts) p).bad = (getPort s p).bad + b2n counts ∧
    (getPort (flitFails s p counts) p).wire = (getPort s p).wire ++ [f] ∧ flNak f = true ∧
    portState (flitFails s p counts) p = portState s p := by
  have hup : ¬ (counts && decide (8 ≤ (getPort s p).bad + b2n counts)) = true := fun hc => by
    obtain ⟨rfl, hb⟩ := Bool.and_eq_true_iff.mp hc
    exact absurd (of_decide_eq_true hb) (Nat.not_le.mpr (h rfl))
  have hport : getPort (failed s p counts) p = { getPort s p with bad := (getPort s p).bad + b2n counts, skipping := true } := getPort_setPort ..
  obtain ⟨l, c, credit, he⟩ := sendNone_eq (failed s p counts) p false true
  refine ⟨_, ?_, ?_, flNak_asked (failed s p counts) p { getPort (failed s p counts) p with owed := l } c credit [], ?_⟩
  · rw [flitFails_cases, if_neg hup, he, getPort_bump, getPort_setPort, hport]
  · rw [flitFails_cases, if_neg hup, he, getPort_bump, getPort_setPort, hport]
  · rw [flitFails_cases, if_neg hup, portState, (emits_sendNone ..).reads _ (by decide) (by decide) (by decide), failed, rd_setPort, ← portState]

end

/-! ## FLIT_RECEIVE by what comes in (R299 to R302, R383) -/

theorem lcs_fecCount {p : Nat} (hp : p < 16) (s : State) (good : Bool) : rd (fecCount s p good) .lcs lcs_STATE = rd s .lcs lcs_STATE := by
  refine rd_fecCount _ _ _ fun a ha => ?_
  simp only [pageBase, lcs_STATE]
  omega

/-- The stream of a flit. -/
def flKey (b : List Byte) : Nat := flVc b * 2 + flCls b

theorem flCls_lt (b : List Byte) : flCls b < 2 := Nat.mod_lt _ (by decide)

theorem flKey_vc (b : List Byte) : flKey b / 2 = flVc b := by
  have hc := flCls_lt b
  unfold flKey
  omega

theorem flKey_cls (b : List Byte) : flKey b % 2 = flCls b := by
  have hc := flCls_lt b
  unfold flKey
  omega

/-- The machine once the flit that is due has come in, its payload in its stream. -/
def accepted (s : State) (p : Nat) (b : List Byte) : State :=
  let t := flitControl (bump s (.fld p) fld_RX_FLITS 1) p b
  setPort t p { getPort t p with
    expect := ((getPort t p).expect + 1) % 4096, bad := 0, skipping := false,
    fills := tset [] (getPort t p).fills (flKey b) (tget [] (getPort t p).fills (flKey b) ++ [flFill b]),
    rx := tset [] (getPort t p).rx (flKey b) (tget [] (getPort t p).rx (flKey b) ++ flPayload b) }

theorem getPort_accepted (s : State) (p : Nat) (b : List Byte) : ∃ (l : List TxFlit) (n : Bool) (c : Tab Nat) (f : Tab (List Nat)),
    getPort (accepted s p b) p = { getPort s p with
      replay := l, nakIn := n, credit := c, expect := ((getPort s p).expect + 1) % 4096, bad := 0, skipping := false, fills := f,
      rx := tset [] (getPort s p).rx (flKey b) (tget [] (getPort s p).rx (flKey b) ++ flPayload b) } := by
  obtain ⟨l, c, h⟩ := getPort_flitControl (bump s (.fld p) fld_RX_FLITS 1) p b
  unfold accepted
  dsimp only
  rw [getPort_setPort, h]
  exact ⟨_, _, _, _, rfl⟩

/-- What a port does after it has taken a flit in. -/
def settles (s : State) (p : Nat) : State := hubLets (ackIdle (portFlush s p) p)

theorem emits_settles {p : Nat} (hp : p < 16) (s : State) : Emits p s (settles s p) :=
  ((emits_portFlush p s p).trans (emits_ackIdle ..)).trans (emits_hubLets hp _)

section
variable {s : State} {p : Nat} {b : List Byte} (hlive : portLive s p = true)
include hlive

theorem execFlitReceive_bad (hg : flGood b = false) : execFlitReceive p b s =
    flitFails (bump (fecCount s p false) (.fld p) fld_CRC_ERR 1) p (countsBad (getPort s p) b) := by
  simp only [execFlitReceive, hlive, hg, getPort_fecCount, Bool.not_true, Bool.not_false, Bool.false_eq_true, if_false, if_true]

variable (hg : flGood b = true)
include hg

theorem execFlitReceive_none (hv : flVc b = 3) : execFlitReceive p b s =
    settles (flitControl (bump (fecCount s p true) (.fld p) fld_RX_FLITS 1) p b) p := by
  simp only [execFlitReceive, hlive, hg, hv, Bool.not_true, Bool.false_eq_true, if_false, if_true, settles]

variable (hv : flVc b ≠ 3) (hp : p < 16)
include hv hp

theorem execFlitReceive_barred (hc : rd s .lcs lcs_STATE % 8 = 3) : execFlitReceive p b s = fecCount s p true := by
  simp only [execFlitReceive, hlive, hg, hv, lcs_fecCount hp, hc, Bool.not_true, Bool.false_eq_true, if_false, if_true]

variable (hc : rd s .lcs lcs_STATE % 8 ≠ 3)
include hc

theorem execFlitReceive_gap (hs : flSeq b ≠ (getPort s p).expect) : execFlitReceive p b s =
    if (getPort s p).skipping then fecCount s p true else flitFails (fecCount s p true) p true := by
  simp only [execFlitReceive, hlive, hg, hv, lcs_fecCount hp, hc, getPort_fecCount, hs, Bool.not_true, Bool.false_eq_true, if_false,
    ne_eq, not_false_eq_true, if_true]

theorem execFlitReceive_due (hs : flSeq b = (getPort s p).expect) : execFlitReceive p b s =
    settles (takeUnits 256 p (flKey b) (accepted (fecCount s p true) p b)) p := by
  simp only [execFlitReceive, hlive, hg, hv, lcs_fecCount hp, hc, getPort_fecCount, hs, Bool.not_true, Bool.false_eq_true, if_false,
    ne_eq, not_true_eq_false, settles]
  rfl

end

end Sys2Proof.Proofs
end
section
/-! Proofs about flits and tokens of a Flidric port (R97, R142, R299 to R302, R307, R383). -/
namespace Sys2Proof.Proofs
open Sys2Proof.Machine Sys2Proof.Safety Sys2Proof.Laws

/-! ## Flits -/

/-- Whether a flit stands where the next one is due (R301). -/
def Due (x : PortSt) (b : List Byte) : Prop := flVc b ≠ 3 ∧ (x.skipping = false ∨ flSeq b = x.expect)

/-- Whether a flit fails: it is bad, or out of order where none is passed over. -/
def Fails (s : State) (p : Nat) (b : List Byte) : Prop :=
  flGood b = false ∨ ((rd s .lcs lcs_STATE % 8 ≠ 3 ∧ flGood b = true ∧ flVc b ≠ 3 ∧ flSeq b ≠ (getPort s p).expect) ∧
    (getPort s p).skipping = false)

theorem countsBad_iff (x : PortSt) (b : List Byte) : countsBad x b = true ↔ Due x b := by simp [countsBad, Due]

theorem rd_fld_fecCount (s : State) (p : Nat) (good : Bool) {o : Nat} (ha : o ≠ fld_HB_AGE) (hc : o ≠ fld_FEC_CORR) (hu : o ≠ fld_FEC_UNCORR)
    (he : o ≠ hEVT) : rd (fecCount s p good) (.fld p) o = rd s (.fld p) o := by
  refine rd_fecCount _ _ _ fun a h => offset_ne ?_
  rcases h with rfl | rfl | rfl | rfl
  · exact ha
  · exact hc
  · exact hu
  · exact he

section
variable {s : State} {p : Nat} {b : List Byte} (hlive : portLive s p = true) (hp : p < 16)
include hlive hp

/-- A bad flit, and one out of order where none is passed over, fails; it counts where it stands in place of the flit that is due. -/
theorem execFlitReceive_fails (h : Fails s p b) : ∃ (u : State) (counts : Bool),
    execFlitReceive p b s = flitFails u p counts ∧ getPort u p = getPort s p ∧ awaits u = awaits s ∧ portState u p = portState s p ∧
    (counts = true ↔ Due (getPort s p) b) := by
  have hstate : ∀ good, rd (fecCount s p good) (.fld p) fld_STATE = rd s (.fld p) fld_STATE := fun good =>
    rd_fld_fecCount s p good (by decide) (by decide) (by decide) (by decide)
  rcases h with hbad | ⟨⟨hc, hg, hv, hs⟩, hskip⟩
  · refine ⟨_, _, execFlitReceive_bad hlive hbad, ?_, ?_, ?_, countsBad_iff ..⟩
    · rw [getPort_bump, getPort_fecCount]
    · rw [awaits_bump, awaits_fecCount]
    · rw [portState, rd_bump_ne _ _ (offset_ne (by decide)), hstate, ← portState]
  · refine ⟨_, _, (execFlitReceive_gap hlive hg hv hp hc hs).trans (if_neg (by rw [hskip]; decide)), getPort_fecCount .., awaits_fecCount .., ?_,
      fun _ => ⟨hv, .inl hskip⟩, fun _ => rfl⟩
    rw [portState, hstate, ← portState]

/-- A flit that fails where none is due asks for the replay, as does one before the eighth in a row; the eighth takes the port down. -/
theorem flitReceive_fails (h : Fails s p b) : ∃ t, answer s (execFlitReceive p b s) = .next t ∧
    ∃ counts : Bool, (counts = true ↔ Due (getPort s p) b) ∧
      ((counts = true → (getPort s p).bad + 1 < 8) → ∃ f, (getPort t p).bad = (getPort s p).bad + b2n counts ∧
        (getPort t p).wire = (getPort s p).wire ++ [f] ∧ flNak f = true ∧ portState t p = portState s p) ∧
      (counts = true → 8 ≤ (getPort s p).bad + 1 → portState t p = 4) := by
  obtain ⟨u, counts, he, hport, haw, hstate, hcounts⟩ := execFlitReceive_fails hlive hp h
  refine ⟨_, answer_eq ?_, counts, hcounts, fun hfew => ?_, fun hc hmany => ?_⟩
  · rw [he]
    exact (awaits_flitFails ..).trans haw
  · rw [he, ← hport, ← hstate]
    exact flitFails_asks u p (by rwa [hport])
  · rw [he, hc]
    exact flitFails_downs u p (by rwa [hport])

omit hp in
theorem flitReceive_crc (hg : flGood b = false) : ∃ t, answer s (execFlitReceive p b s) = .next t ∧
    rd t (.fld p) fld_CRC_ERR = min (rd s (.fld p) fld_CRC_ERR + 1) 0xFFFFFFFF := by
  refine ⟨_, (congrArg (answer s) (execFlitReceive_bad hlive hg)).trans (answer_eq ?_), ?_⟩
  · exact (awaits_flitFails ..).trans ((awaits_bump ..).trans (awaits_fecCount ..))
  · rw [rd_flitFails_ne _ _ _ (by decide) (by decide) (by decide) (by decide) (by decide) (by decide), rd_bump,
      rd_fld_fecCount _ _ _ (by decide) (by decide) (by decide) (by decide)]

/-- The flit that is due is received, and its payload enters its stream. -/
theorem flitReceive_due (hc : rd s .lcs lcs_STATE % 8 ≠ 3) (hg : flGood b = true) (hv : flVc b ≠ 3)
    (hs : flSeq b = (getPort s p).expect) : ∃ t, answer s (execFlitReceive p b s) = .next t ∧
    (getPort t p).expect = ((getPort s p).expect + 1) % 4096 ∧ (getPort t p).bad = 0 ∧
    rd t (.fld p) fld_RX_FLITS = min (rd s (.fld p) fld_RX_FLITS + 1) 0xFFFFFFFF ∧
    ((tget [] (getPort s p).rx (flKey b) ++ flPayload b).length < 32 →
      tget [] (getPort t p).rx (flKey b) = tget [] (getPort s p).rx (flKey b) ++ flPayload b ∧ (getPort t p).inbox = (getPort s p).inbox) ∧
    (tget [] (getPort s p).rx (flKey b) = [] → tfind (getPort s p).void (flKey b) = none → 32 ≤ (flPayload b).length →
      unitSize (flVc b) (flPayload b) = (flPayload b).length → flVc b < 2 →
      (getPort t p).inbox = (getPort s p).inbox ++ [(flVc b, flCls b, flPayload b)]) := by
  obtain ⟨u, hu⟩ : ∃ u, accepted (fecCount s p true) p b = u := ⟨_, rfl⟩
  obtain ⟨l, n, c, f, hport⟩ := getPort_accepted (fecCount s p true) p b
  rw [getPort_fecCount, hu] at hport
  have haw : awaits u = awaits s := by
    rw [← hu, accepted, awaits_setPort, awaits_flitControl, awaits_bump, awaits_fecCount]
  have hrx : rd u (.fld p) fld_RX_FLITS = min (rd s (.fld p) fld_RX_FLITS + 1) 0xFFFFFFFF := by
    rw [← hu, accepted, rd_setPort, rd_flitControl_ne _ _ _ (by decide) (by decide), rd_bump,
      rd_fld_fecCount _ _ _ (by decide) (by decide) (by decide) (by decide)]
  have htake := counts_takeUnits 256 p (flKey b) u
  have hset := emits_settles hp (takeUnits 256 p (flKey b) u)
  have he := execFlitReceive_due hlive hg hv hp hc hs
  rw [hu] at he
  have hall := htake.trans hset.toCounts
  refine ⟨_, (congrArg (answer s) he).trans (answer_eq (hall.awaits.trans haw)), ?_, ?_, ?_, fun hshort => ?_,
    fun hempty hvoid hlen hsize hlow => ?_⟩
  · rw [hall.expect, hport]
  · rw [hall.bad, hport]
  · rw [hall.reads _ (by decide) (by decide) (by decide), hrx]
  · have hstream : tget [] (getPort u p).rx (flKey b) = tget [] (getPort s p).rx (flKey b) ++ flPayload b := by rw [hport, tget_tset_same]
    rw [hset.rx, hset.inbox, takeUnits_short (by rw [hstream]; exact hshort), hstream, hport]
    exact ⟨rfl, rfl⟩
  · have hstream : tget [] (getPort u p).rx (flKey b) = flPayload b := by rw [hport, tget_tset_same, hempty, List.nil_append]
    rw [hset.inbox, takeUnits_whole hstream (by rw [hport]; exact hvoid) hlen (by rw [flKey_vc]; exact hsize) (by rw [flKey_vc]; exact hlow),
      flKey_vc, flKey_cls, hport]

/-- A flit that carries nothing brings its control part alone. -/
theorem flitReceive_none (hg : flGood b = true) (hv : flVc b = 3) : ∃ t, answer s (execFlitReceive p b s) = .next t ∧
    (getPort t p).expect = (getPort s p).expect ∧ (getPort t p).nakIn = ((getPort s p).nakIn || flNak b) ∧
    (flHb b = true → rd t (.fld p) fld_PEER = flHbId b + 2 ^ 18 * flHbPort b ∧ rd t (.fld p) fld_HB_AGE = 0) := by
  obtain ⟨u, hu⟩ : ∃ u, bump (fecCount s p true) (.fld p) fld_RX_FLITS 1 = u := ⟨_, rfl⟩
  have hbefore : getPort u p = getPort s p := by rw [← hu, getPort_bump, getPort_fecCount]
  have haw : awaits u = awaits s := by rw [← hu, awaits_bump, awaits_fecCount]
  obtain ⟨l, c, hport⟩ := getPort_flitControl u p b
  rw [hbefore] at hport
  have hset := emits_settles hp (flitControl u p b)
  have he := execFlitReceive_none hlive hg hv
  rw [hu] at he
  refine ⟨_, (congrArg (answer s) he).trans (answer_eq (hset.awaits.trans ((awaits_flitControl ..).trans haw))), ?_, ?_, fun hhb => ?_⟩
  · rw [hset.expect, hport]
  · rw [hset.nakIn, hport]
  · rw [hset.reads _ (by decide) (by decide) (by decide), hset.reads _ (by decide) (by decide) (by decide)]
    exact rd_flitControl u p b hhb

omit hlive hp in
/-- A flit that is passed over, or barred in DIAGNOSTIC, leaves ports, network and the count of flits. -/
theorem flitReceive_passed (h : execFlitReceive p b s = fecCount s p true) : ∃ t, answer s (execFlitReceive p b s) = .next t ∧
    t.ports = s.ports ∧ t.net = s.net ∧ rd t (.fld p) fld_RX_FLITS = rd s (.fld p) fld_RX_FLITS :=
  ⟨_, (congrArg (answer s) h).trans (answer_eq (awaits_fecCount ..)), ports_fecCount .., net_fecCount ..,
    rd_fld_fecCount _ _ _ (by decide) (by decide) (by decide) (by decide)⟩

omit hp in
/-- A NAK is answered by the replay, which the replay buffer keeps. -/
theorem nakReplay_replays (hc : rd s .lcs lcs_STATE % 8 ≠ 3) (hn : (getPort s p).nakIn = true) : ∃ t l,
    answer s (execNakReplay p s) = .next t ∧ (getPort t p).wire = (getPort s p).wire ++ l ∧ l.length = (getPort s p).replay.length ∧
    (∀ i < l.length, ∀ f, (getPort s p).replay[i]? = some f → flSeq (l.getD i []) = f.seq % 4096) ∧
    (getPort t p).replay = (getPort s p).replay ∧ (getPort t p).nakIn = false ∧
    rd t (.fld p) fld_REPLAYS = min (rd s (.fld p) fld_REPLAYS + 1) 0xFFFFFFFF := by
  have hgo : (portLive s p && (getPort s p).nakIn && rd s .lcs lcs_STATE % 8 != 3) = true := by simp [hlive, hn, hc]
  unfold execNakReplay
  extract_lets x l
  have hx : x = getPort s p := rfl
  rw [← hx] at hn hgo ⊢
  rw [if_pos hgo]
  refine ⟨_, l, answer_eq (awaits_bump .. |>.trans ((awaits_bump ..).trans (awaits_setPort ..))), ?_, ?_, fun i hi f hf => ?_, ?_, ?_, ?_⟩
  · rw [getPort_bump, getPort_bump, getPort_setPort]
  · exact List.length_map ..
  · rw [List.getD_eq_getElem?_getD, List.getElem?_map, hf]
    exact flSeq_flitBytes ..
  · rw [getPort_bump, getPort_bump, getPort_setPort]
  · rw [getPort_bump, getPort_bump, getPort_setPort]
  · rw [rd_bump_ne _ _ (offset_ne (by decide)), rd_bump, rd_setPort]

/-- A heartbeat names the module and the port. -/
theorem heartbeatSend_sends : ∃ t f l, answer s (execHeartbeatSend p s) = .next t ∧ (getPort t p).wire = (getPort s p).wire ++ f :: l ∧
    flHb f = true ∧ flHbId f = moduleNo s ∧ flHbPort f = p := by
  obtain ⟨o, c, credit, he⟩ := sendNone_eq s p true false
  obtain ⟨l, hl⟩ := (emits_hubLets hp (sendNone s p true false)).wire
  have haw := (emits_sendNone s p true false).awaits.symm ▸ (emits_hubLets hp (sendNone s p true false)).awaits
  refine ⟨_, flitBytes s p { getPort s p with owed := o } 3 (b2n c) 0 credit true false [], l,
    (congrArg (answer s) (if_pos hlive)).trans (answer_eq haw), ?_, heartbeat_fields s hp ..⟩
  rw [hl, he, getPort_bump, getPort_setPort, List.append_assoc, List.singleton_append]

end

/-! ## Tokens from other modules (R307) -/

theorem inboxTake_eq (s : State) (p i : Nat) : ∃ x : PortSt, inboxTake s p i = setPort s p x ∧ x.inbox = ldel (getPort s p).inbox i :=
  ⟨_, rfl, rfl⟩

/-- A token that counts where it is discarded or refused has left its port, and enters no slot. -/
theorem discarded_by (s : State) (p : Nat) {x : PortSt} {l : List (Nat × Nat × List Byte)} (hx : x.inbox = l) (q : Page) (o : Nat) :
    (getPort (bump (setPort s p x) q o 1) p).inbox = l ∧ (bump (setPort s p x) q o 1).net = s.net ∧
    rd (bump (setPort s p x) q o 1) q o = min (rd s q o + 1) 0xFFFFFFFF := by
  rw [getPort_bump, getPort_setPort, bump_net, setPort_net, rd_bump, rd_setPort]
  exact ⟨hx, rfl, rfl⟩

section
variable {s : State} {p i cls k : Nat} {b : List Byte} {x : PortSt} (hf : firstToken s p = some (i, cls, b))
  (hx : inboxTake s p i = setPort s p x)
include hf hx

theorem execFlidricTokenArrive_unowned (hk : portSlot s p = none) :
    execFlidricTokenArrive p s = bump (setPort s p x) (.fld p) fld_DISCARDED 1 := by
  have hk' : portSlot (setPort s p x) p = none := hk
  simp only [execFlidricTokenArrive, hf, hx, hk']

theorem execFlidricTokenArrive_owned (hk : portSlot s p = some k) (hm : (tokenFrom b).dest.mod = moduleNo s) :
    execFlidricTokenArrive p s = if (tokenFrom b).kind = 2 ∨ 6 ≤ (tokenFrom b).kind then bump (setPort s p x) (routePage k) fld_UNROUTABLE 1
      else if foreignToken s k (tokenFrom b) then bump (setPort s p x) (routePage k) fld_FOREIGN_REFUSED 1
      else { setPort s p x with net := s.net ++ [⟨tokenFrom b, .nobody, k⟩] } := by
  have hk' : portSlot (setPort s p x) p = some k := hk
  have hm' : (tokenFrom b).dest.mod = moduleNo (setPort s p x) := hm
  have hforeign : foreignToken (setPort s p x) k (tokenFrom b) = foreignToken s k (tokenFrom b) := rfl
  simp only [execFlidricTokenArrive, hf, hx, hk', ne_eq, hm', not_true_eq_false, if_false, hforeign, setPort_net]

end

/-- Settles O44: each flit by what comes in, a token by the slot that owns its port. -/
theorem flidricFlits : Obligations.FlidricFlits := by
  unfold Obligations.FlidricFlits
  refine ⟨?_, fun s p h => ?_, ?_⟩
  · intro s p b hlive x key due carries gap
    have hp : p.val < 16 := p.isLt
    refine ⟨fun h => ?_, flitReceive_crc hlive, flitReceive_due hlive hp, fun h => ?_, flitReceive_none hlive hp, nakReplay_replays hlive,
      heartbeatSend_sends hlive hp⟩
    · obtain ⟨t, ht, counts, hcounts, hasks, hdowns⟩ := flitReceive_fails hlive hp h
      refine ⟨fun hd => ?_, fun hd hfew => ?_, fun hd hmany => ⟨t, ht, hdowns (hcounts.mpr hd) hmany⟩⟩
      · obtain rfl : counts = false := Bool.eq_false_iff.mpr fun hc => hd (hcounts.mp hc)
        obtain ⟨f, hbad, hrest⟩ := hasks (fun hc => absurd hc Bool.false_ne_true)
        exact ⟨t, f, ht, hbad, hrest⟩
      · obtain rfl := hcounts.mpr hd
        obtain ⟨f, hbad, hrest⟩ := hasks (fun _ => hfew)
        exact ⟨t, f, ht, hbad, hrest⟩
    · rcases h with ⟨⟨hc, hg, hv, hs⟩, hskip⟩ | ⟨hc, hg, hv⟩
      · exact flitReceive_passed ((execFlitReceive_gap hlive hg hv hp hc hs).trans (if_pos hskip))
      · exact flitReceive_passed (execFlitReceive_barred hlive hg hv hp (not_not.mp hc))
  · have he : execFlidricTokenArrive p s = s := by simp only [execFlidricTokenArrive, h]
    exact exec_of_awaits (congrArg (answer s) he) rfl
  · intro s p i cls b hf tok gone
    obtain ⟨x, hx, hin⟩ := inboxTake_eq s p i
    refine ⟨fun hk => ?_, fun k hk hm hkind => ?_, fun k hk hm hkind hlow => ⟨fun hnear => ?_, fun hfar => ?_⟩⟩
    · exact ⟨_, exec_of_awaits (congrArg (answer s) (execFlidricTokenArrive_unowned hf hx hk)) (by rw [awaits_bump, awaits_setPort]),
        discarded_by s p hin ..⟩
    · exact ⟨_, exec_of_awaits (congrArg (answer s) ((execFlidricTokenArrive_owned hf hx hk hm).trans (if_pos hkind)))
        (by rw [awaits_bump, awaits_setPort]), discarded_by s p hin ..⟩
    · have htaken : ¬ (tok.kind = 2 ∨ 6 ≤ tok.kind) := by omega
      have hown : ¬ foreignToken s k tok = true := by
        simp only [foreignToken, decide_eq_true_eq]
        rcases hnear with ⟨hd, hs⟩ | ⟨hd, hs⟩ <;> omega
      refine ⟨_, exec_of_awaits (congrArg (answer s) ((execFlidricTokenArrive_owned hf hx hk hm).trans ((if_neg htaken).trans (if_neg hown))))
        (by rw [awaits_net, awaits_setPort]), ?_, rfl⟩
      exact (congrArg PortSt.inbox (getPort_setPort s p x)).trans hin
    · have htaken : ¬ (tok.kind = 2 ∨ 6 ≤ tok.kind) := by omega
      have hforeign : foreignToken s k tok = true := decide_eq_true hfar
      exact ⟨_, exec_of_awaits (congrArg (answer s) ((execFlidricTokenArrive_owned hf hx hk hm).trans ((if_neg htaken).trans (if_pos hforeign))))
        (by rw [awaits_bump, awaits_setPort]), discarded_by s p hin ..⟩

end Sys2Proof.Proofs
end

section
/-! Proofs about the registers and commands of a partition's own control: no access to memory, to pages or by a command of the page
tables changes them (R189 to R219, R364, R378). -/
namespace Sys2Proof.Proofs
open Sys2Proof.Machine Sys2Proof.Safety Sys2Proof.Laws

/-! ## The registers and commands of a partition's control -/

/-- The offsets of the tick generators' and the timetables' pages, and CTRL of every task engine. -/
def guarded (o : Nat) : Bool := decide (0x50000 ≤ o ∧ o < 0x70000 ∨ 0x1000000 ≤ o ∧ o % 0x200000 = hCTRL)

/-- What the guarded registers read, and the commands in progress on the guarded pages; under a name that no proof below unfolds, so
that the kernel compares two states operation by operation. -/
def held (s : State) : (Nat → Nat) × (Nat → Option CmdRun) :=
  (fun o => if guarded o then regAt s o else 0, fun n => if guarded n then tfind s.cmds n else none)

/-- The pages whose registers but CTRL are never guarded, whatever their number: those of the dies, and of the hub the field-repair log
and the checkpoint engines. -/
def aside : Page → Bool
  | .fus | .ckp _ | .tke _ | .stm _ | .gch _ | .mem _ | .pgt _ | .wkc _ _ | .tckR _ | .cor _ _ => true
  | _ => false

section
variable (d i : Nat)

@[simp] theorem aside_fus : aside .fus = true := by rw [aside]
@[simp] theorem aside_tke : aside (.tke d) = true := by rw [aside]
@[simp] theorem aside_gch : aside (.gch d) = true := by rw [aside]
@[simp] theorem aside_mem : aside (.mem d) = true := by rw [aside]
@[simp] theorem aside_pgt : aside (.pgt d) = true := by rw [aside]
@[simp] theorem aside_homePgt (s : State) : aside (homePgt s d) = true := aside_pgt _
@[simp] theorem aside_wkc : aside (.wkc d i) = true := by rw [aside]
@[simp] theorem aside_wkcPage : aside (wkcPage d i) = true := aside_wkc ..
@[simp] theorem aside_tckR : aside (.tckR d) = true := by rw [aside]
@[simp] theorem aside_cor : aside (.cor d i) = true := by rw [aside]
@[simp] theorem aside_corPage : aside (corPage d) = true := aside_cor ..

end

/-- The offsets within a page that are registers other than CTRL. -/
def besideCtrl (o : Nat) : Bool := decide (o < 0x1000 ∧ o ≠ hCTRL)

theorem besideCtrl_iff {o : Nat} : besideCtrl o = true ↔ o < 0x1000 ∧ o ≠ hCTRL := decide_eq_true_iff

theorem guarded_aside {p : Page} {o : Nat} (hp : aside p = true) (ho : besideCtrl o = true) : guarded (pageBase p + o) = false := by
  obtain ⟨hlt, hne⟩ := of_decide_eq_true ho
  have halign := pageBase_aligned p
  have hplace : pageBase p < 0x50000 ∨ 0x70000 ≤ pageBase p := by
    cases p <;> simp only [aside, Bool.false_eq_true] at hp <;> simp only [pageBase, dieBase] <;> omega
  simp only [guarded, decide_eq_false_iff_not]
  simp only [hCTRL] at hne ⊢
  omega

theorem guarded_dieCtrl {p : Page} {d o : Nat} (hp : pageBase p = dieBase d + o) (h1 : 0x1000 ≤ o) (h2 : o < 0x200000 - 8) :
    guarded (pageBase p + hCTRL) = false := by
  simp only [guarded, decide_eq_false_iff_not, hp, dieBase, hCTRL]
  omega

theorem held_reads {s t : State} (h : held t = held s) {p : Page} {o : Nat} (hg : guarded (pageBase p + o) = true) :
    rd t p o = rd s p o := by
  have := congrFun (congrArg Prod.fst h) (pageBase p + o)
  simpa only [held, hg, if_true, rd] using this

theorem held_finds {s t : State} (h : held t = held s) {n : Nat} (hg : guarded n = true) : tfind t.cmds n = tfind s.cmds n := by
  have := congrFun (congrArg Prod.snd h) n
  simpa only [held, hg, if_true] using this

theorem held_of_regs {s t : State} (hr : t.regs = s.regs) (hc : t.cmds = s.cmds) : held t = held s := by
  simp only [held, regAt, hr, hc]

theorem held_of_cmds {s t : State} (hr : t.regs = s.regs) (hc : ∀ n, guarded n = true → tfind t.cmds n = tfind s.cmds n) :
    held t = held s := by
  have hf : (fun n => if guarded n = true then tfind t.cmds n else none) = fun n => if guarded n = true then tfind s.cmds n else none :=
    funext fun n => ite_congr rfl (hc n) fun _ => rfl
  simp only [held, regAt, hr, hf]

/-- A write outside the guarded registers. -/
theorem held_wr_of {s : State} {p : Page} {o : Nat} (h : guarded (pageBase p + o) = false) (v : Nat) : held (wr s p o v) = held s := by
  have hf : (fun a => if guarded a = true then regAt (wr s p o v) a else 0) = fun a => if guarded a = true then regAt s a else 0 := by
    funext a
    refine ite_congr rfl (fun ha => regAt_setRegAt_ne _ _ fun e => ?_) fun _ => rfl
    rw [e, h] at ha
    exact Bool.false_ne_true ha
  simp only [held, hf, wr_cmds]

section
variable {s : State} {p : Page} {o : Nat} (hp : aside p = true) (ho : besideCtrl o = true)
include hp ho

@[simp] theorem held_wr (v : Nat) : held (wr s p o v) = held s := held_wr_of (guarded_aside hp ho) v
@[simp] theorem held_bump (n : Nat) : held (bump s p o n) = held s := held_wr hp ho _
@[simp] theorem held_wrMax (v : Nat) : held (wrMax s p o v) = held s := held_wr hp ho _
@[simp] theorem held_wrFld (a n v : Nat) : held (wrFld s p o a n v) = held s := held_wr hp ho _

end

section
variable {s : State} {p : Page} (hp : aside p = true)
include hp

@[simp] theorem held_raise (b : Nat) : held (raise s p b) = held s := by
  obtain ⟨ms, fs, e⟩ := raise_eq s p b
  rw [e]
  exact (held_of_regs rfl rfl).trans (held_wr hp rfl _)

@[simp] theorem held_endCmd (code reason tag evt : Nat) : held (endCmd s p code reason tag evt) = held s :=
  (held_raise hp _).trans (held_wr hp rfl _)

@[simp] theorem held_faultBit (b : Bool) : held (faultBit s p b) = held s := held_wrFld hp rfl ..

@[simp] theorem held_logEntry (source syn word : Nat) (ue scrub : Bool) : held (logEntry s p source syn word ue scrub) = held s := by
  have hslot : ∀ n a, a = 0x800 ∨ a = 0x804 → besideCtrl (a + 8 * (n % 16)) = true := fun n a ha =>
    decide_eq_true (by simp only [hCTRL]; omega)
  unfold logEntry
  dsimp only
  split
  · rfl
  · exact (held_of_regs rfl rfl).trans ((held_wr hp (hslot _ _ (.inr rfl)) _).trans (held_wr hp (hslot _ _ (.inl rfl)) _))

@[simp] theorem held_countErr (source syn word : Nat) (ue scrub : Bool) : held (countErr s p source syn word ue scrub) = held s :=
  (held_logEntry hp ..).trans (held_bump hp (by cases ue <;> rfl) 1)

end

section
variable (s : State) (k : Nat)

@[simp] theorem held_setCore (x : Core) : held (setCore s k x) = held s := held_of_regs rfl rfl
@[simp] theorem held_setDie (x : DieSt) : held (setDie s k x) = held s := held_of_regs rfl rfl
@[simp] theorem held_setSlot (x : SlotSt) : held (setSlot s k x) = held s := held_of_regs rfl rfl
@[simp] theorem held_setTick (x : TickSt) : held (setTick s k x) = held s := held_of_regs rfl rfl
@[simp] theorem held_wrByte (b : Byte) : held (wrByte s k b) = held s := held_of_regs rfl rfl
@[simp] theorem held_setSynd (x : Byte) : held (setSynd s k x) = held s := held_of_regs rfl rfl

end

theorem held_each {α : Type} {f : α → State → State} (h : ∀ a s, held (f a s) = held s) (l : List α) (s : State) :
    held (each l f s) = held s := each_keep held f h l s

@[simp] theorem held_ite (c : Prop) [Decidable c] (s t : State) : held (if c then s else t) = if c then held s else held t := apply_ite ..

/-- `held` of the state of a pair, for operations that answer a value beside the state. -/
def heldFst {α : Type} (q : State × α) : (Nat → Nat) × (Nat → Option CmdRun) := held q.1

/-- The same where the state stands second. -/
def heldSnd {α : Type} (q : α × State) : (Nat → Nat) × (Nat → Option CmdRun) := held q.2

section
variable {α : Type} (s : State) (a : α) (c : Prop) [Decidable c]

@[simp] theorem held_fst (q : State × α) : held q.1 = heldFst q := by rw [heldFst]
@[simp] theorem held_snd (q : α × State) : held q.2 = heldSnd q := by rw [heldSnd]
@[simp] theorem heldFst_pair : heldFst (s, a) = held s := by rw [heldFst]
@[simp] theorem heldSnd_pair : heldSnd (a, s) = held s := by rw [heldSnd]
@[simp] theorem heldFst_ite (q r : State × α) : heldFst (if c then q else r) = if c then heldFst q else heldFst r := apply_ite ..
@[simp] theorem heldSnd_ite (q r : α × State) : heldSnd (if c then q else r) = if c then heldSnd q else heldSnd r := apply_ite ..

end

theorem held_foldl {α β : Type} {f : State × β → α → State × β} (h : ∀ q a, heldFst (f q a) = heldFst q) (l : List α)
    (q : State × β) : heldFst (l.foldl f q) = heldFst q :=
  fold_keeps (P := fun t => heldFst t = heldFst q) f (fun t a ht => (h t a).trans ht) l q rfl

@[simp] theorem held_drawNat (s : State) : heldSnd (drawNat s) = held s := held_of_regs rfl rfl

/-! ## Memory through its check (R364, R378) -/

@[simp] theorem held_addRepair (s : State) (kind die site mac index hword : Nat) :
    held (addRepair s kind die site mac index hword) = held s := by
  unfold addRepair
  split
  · rfl
  · split
    · exact held_raise rfl _
    · exact held_of_regs rfl rfl

@[simp] theorem held_noteCorrection (s : State) (w syn n : Nat) (scrub : Bool) : held (noteCorrection s w syn n scrub) = held s := by
  have hcorr : ∀ l, held { s with corr := l } = held s := fun l => held_of_regs rfl rfl
  simp [noteCorrection, hcorr]

@[simp] theorem held_flipBit (s : State) (w n : Nat) : held (flipBit s w n) = held s := by simp [flipBit]

theorem aside_eccPage {a : Nat} {p : Page} (h : eccPage a = some p) : aside p = true := by
  unfold eccPage at h
  split at h
  · cases h; rfl
  · split at h <;> cases h
    rfl

@[simp] theorem held_readBad (scrub : Bool) (e : Nat × Byte) (r : State × Bool) : heldFst (readBad scrub e r) = heldFst r := by
  unfold readBad
  dsimp only
  split
  · simp
  next hp =>
    have hp := aside_eccPage hp
    split <;> simp [hp]

@[simp] theorem held_checkRead (s : State) (a n : Nat) : heldFst (checkRead s a n) = held s :=
  (held_foldl (fun q e => held_readBad false e q) _ (s, false)).trans (heldFst_pair ..)

@[simp] theorem held_writeBad (a n : Nat) (e : Nat × Byte) (s : State) : held (writeBad a n e s) = held s := by simp [writeBad]

@[simp] theorem held_logRow (s : State) (w : Nat) : held (logRow s w) = held s := by simp [logRow]

@[simp] theorem held_refail (a n : Nat) (s : State) : held (refail a n s) = held s := held_each (fun _ _ => by simp) ..

@[simp] theorem held_memWrite (bs : List Byte) (s : State) (a : Nat) : held (memWrite s a bs) = held s := by
  induction bs generalizing s a with
  | nil => rfl
  | cons b bs ih => exact (ih ..).trans (held_wrByte ..)

@[simp] theorem held_store (s : State) (a : Nat) (bs : List Byte) : held (store s a bs) = held s := by
  simp [store, held_each]

@[simp] theorem held_storePoisoned (s : State) (a : Nat) (bs : List Byte) (bad : List Nat) : held (storePoisoned s a bs bad) = held s := by
  simp [storePoisoned, held_each]

@[simp] theorem held_storePieces (k : Nat) (ps : List (Nat × Nat)) (bs : List Byte) (s : State) :
    held (storePieces k ps bs s) = held s := by
  induction ps generalizing bs s with
  | nil => rfl
  | cons p ps ih => exact (ih ..).trans (held_store ..)

@[simp] theorem held_coreStore (s : State) (k : Nat) (ctx : Option Nat) (a : Nat) (bs : List Byte) :
    held (coreStore s k ctx a bs) = held s := held_storePieces ..

@[simp] theorem held_coreCheck (s : State) (k : Nat) (ctx : Option Nat) (a n : Nat) : heldFst (coreCheck s k ctx a n) = held s :=
  List.foldlRecOn (motive := fun r : State × Bool => heldFst r = held s) _ _ (heldFst_pair ..) fun r h p _ => by
    simpa using h

/-! ## Pages of virtual addresses (R196 to R213) -/

@[simp] theorem held_setPte (s : State) (k vpn e : Nat) : held (setPte s k vpn e) = held s :=
  (held_setSlot ..).trans (held_bump rfl rfl _)

@[simp] theorem held_alloc (s : State) (k tier : Nat) (stack : Option Nat) (m : Nat) : heldSnd (alloc s k tier stack m) = held s := by
  simp [alloc]

@[simp] theorem held_stackUnits (s : State) (a n : Nat) (write : Bool) : held (stackUnits s a n write) = held s := by
  cases write <;> simp [stackUnits, besideCtrl, mem_RD_UNITS, mem_WR_UNITS, mem_LAT_MAX, hCTRL]

@[simp] theorem held_physRead (s : State) (a n : Nat) : heldFst (physRead s a n) = held s := by
  simp [physRead]

@[simp] theorem held_physWrite (s : State) (a : Nat) (bs : List Byte) (bad : List Nat) : held (physWrite s a bs bad) = held s := by
  simp [physWrite, held_each]

@[simp] theorem held_pageRead (s : State) (d e : Nat) : heldFst (pageRead s d e) = held s := by
  unfold pageRead
  simp [besideCtrl, mem_CODEC_DEC, mem_CODEC_CRC_ERR, hCTRL]

@[simp] theorem held_pageStore (s : State) (cd sector : Nat) (form : Option (List Byte)) (bs : List Byte) (bad : List Nat) :
    held (pageStore s cd sector form bs bad) = held s := by
  cases form <;> simp [pageStore, besideCtrl, mem_CODEC_ENC, mem_CODEC_SECT, mem_CODEC_RAW, hCTRL]

@[simp] theorem held_placePage (s : State) (k d e tier : Nat) (stack : Option Nat) (bs : List Byte) (bad : List Nat) :
    heldSnd (placePage s k d e tier stack bs bad) = held s := by
  unfold placePage
  extract_lets cd form n
  have hq := held_alloc s k tier stack n
  generalize alloc s k tier stack n = q at hq ⊢
  rcases q with ⟨_ | sec, t⟩
  · simpa using hq
  · simpa using hq

@[simp] theorem held_readEntry (k c key : Nat) (s : State) : held (readEntry k c key s) = held s := by
  unfold readEntry
  extract_lets x
  split
  · rfl
  next p count keep _ a b _ =>
    have hcount : ∀ s n copy, held (count s n copy) = held s := fun s n copy => by simp [count, p]
    have hkeep : ∀ e s, held (keep e s) = held s := fun e s => held_setSlot ..
    simp [hcount, hkeep]

@[simp] theorem held_evict (s : State) (l mine : List (Nat × Nat)) : heldFst (evict s l mine) = held s := by
  unfold evict
  extract_lets r
  split
  · simp [r]
  · simp

@[simp] theorem held_tableReads (k n : Nat) (s : State) : held (tableReads k n s) = held s := by
  simp [tableReads, besideCtrl, mem_RD_UNITS, mem_LAT_MAX, hCTRL]

@[simp] theorem held_readTables (k c vpn : Nat) (s : State) : held (readTables k c vpn s) = held s := by simp [readTables]

@[simp] theorem held_walkTables (k c vpn : Nat) (s : State) : held (walkTables k c vpn s) = held s := by
  simp [walkTables, besideCtrl, pgt_TLB_MISS, hCTRL]

@[simp] theorem held_touch (s : State) (k c vpn : Nat) : held (touch s k c vpn) = held s := by simp [touch]

@[simp] theorem held_partRead (s : State) (d e off n va : Nat) : heldFst (partRead s d e off n va) = held s := by
  unfold partRead
  simp

@[simp] theorem held_vaReadOk (s : State) (k d : Nat) (u : UnitNo) (va n : Nat) : heldFst (vaReadOk s k d u va n) = held s :=
  (held_foldl (fun q p => by simp) _ (s, [], [])).trans (heldFst_pair ..)

@[simp] theorem held_uncapture (s : State) (k vpn : Nat) : held (uncapture s k vpn) = held s := by simp [uncapture]

@[simp] theorem held_wholeWrite (s : State) (k d vpn : Nat) (bs : List Byte) (bad : List Nat) :
    held (wholeWrite s k d vpn bs bad) = held s := by
  unfold wholeWrite
  extract_lets e form m stay q q'
  have hq : heldSnd q' = held s := by simp [q', q]
  clear_value q'
  rcases q' with ⟨_ | e', t⟩
  · simp_all
  · simp_all

@[simp] theorem held_mergeWrite (s : State) (k d vpn off : Nat) (bs : List Byte) (bad : List Nat) :
    held (mergeWrite s k d vpn off bs bad) = held s := by simp [mergeWrite]

theorem held_vaWriteBy {f : Nat → Nat → List Byte → List Nat → State → State} (hf : ∀ v o b l s, held (f v o b l s) = held s)
    (s : State) (k d : Nat) (u : UnitNo) (va : Nat) (bs : List Byte) (bad : List Nat) :
    held (vaWriteBy f s k d u va bs bad) = held s := by
  rw [vaWriteBy, held_fst, held_foldl (fun q p => by simp [hf]), heldFst_pair]

/-! ## The commands of the page tables (R204 to R219) -/

theorem guarded_pgt (d : Nat) : guarded (pageBase (.pgt d)) = false := guarded_aside (p := .pgt d) (o := 0) (aside_pgt d) rfl

@[simp] theorem held_pgtHold (s : State) (k d tag : Nat) (w : Nat × List Nat) : held (pgtHold s k d tag w) = held s :=
  (held_setSlot ..).trans (held_of_cmds rfl fun n hn => tfind_tput_ne _ _ fun e => by rw [e, guarded_pgt] at hn; cases hn)

@[simp] theorem held_pgtTake (s : State) (k d : Nat) : heldSnd (pgtTake s k d) = held s :=
  (held_setSlot ..).trans (held_of_cmds rfl fun n hn => tfind_tdel_ne _ fun e => by rw [e, guarded_pgt] at hn; cases hn)

@[simp] theorem held_pgtEnd (s : State) (d tag : Nat) (reason : Option Nat) : held (pgtEnd s d tag reason) = held s := by
  cases reason <;> exact held_endCmd (aside_pgt d) ..

theorem besideCtrl_quota {j : Nat} (hj : j < 64) : besideCtrl (pgt_QUOTA_j + 8 * j) = true :=
  besideCtrl_iff.mpr (by simp only [pgt_QUOTA_j, hCTRL]; omega)

@[simp] theorem held_initDo (k d base pages : Nat) (s : State) : held (initDo k d base pages s) = held s := by
  have hquotas : held (iter 64 (fun j s => wr s (.pgt d) (pgt_QUOTA_j + 8 * j) 0) s) = held s :=
    List.foldlRecOn (motive := fun t => held t = held s) _ _ rfl fun t ht j hj =>
      (held_wr (aside_pgt d) (besideCtrl_quota (List.mem_range.mp hj)) 0).trans ht
  have hctrl : ∀ t v, held (wr t (.pgt d) hCTRL v) = held t := fun t v => held_wr_of (guarded_dieCtrl (d := d) rfl (by decide) (by decide)) v
  simp only [initDo, hctrl]
  rw [held_each (fun e t => by simp [besideCtrl, pgt_ROOT_LO, pgt_ROOT_HI, hCTRL]), held_physWrite, held_physWrite, held_setSlot, hquotas]

@[simp] theorem held_initRun (k d tag : Nat) (a : List Nat) (s : State) : held (initRun k d tag a s) = held s := by
  simp [initRun]

@[simp] theorem held_setRegion (s : State) (k r j : Nat) : held (setRegion s k r j) = held s :=
  (held_setSlot ..).trans (held_bump rfl rfl _)

@[simp] theorem held_makeL1 (s : State) (k i : Nat) : held (makeL1 s k i) = held s := by
  simp [makeL1, held_each]

@[simp] theorem held_regionRun (k d tag : Nat) (a : List Nat) (s : State) : held (regionRun k d tag a s) = held s := by
  unfold regionRun
  extract_lets x r j
  split
  · simp
  · split <;> simp

@[simp] theorem held_walkRun (k d tag : Nat) (a : List Nat) (s : State) : held (walkRun k d tag a s) = held s := by
  simp [walkRun, besideCtrl, pgt_WALK_LO, pgt_WALK_HI, hCTRL]

@[simp] theorem held_poolRun (k d tag : Nat) (a : List Nat) (s : State) : held (poolRun k d tag a s) = held s := by
  unfold poolRun
  extract_lets base n x
  generalize badExtent s k base n = e
  generalize badRemoval s k base n = r
  cases e <;> cases r <;> simp

@[simp] theorem held_quotaRun (k d tag : Nat) (a : List Nat) (s : State) : held (quotaRun k d tag a s) = held s := by
  unfold quotaRun
  extract_lets j n x
  split
  · exact held_pgtEnd ..
  next hj =>
    split
    · exact held_pgtEnd ..
    · exact (held_pgtEnd ..).trans (held_wr (aside_pgt d) (besideCtrl_quota (by omega)) n)

theorem held_mapPages {k d a3 phys : Nat} {l : List Nat} {s t : State} (h : mapPages k d a3 phys l s = some t) : held t = held s := by
  induction l generalizing phys s with
  | nil => cases h; rfl
  | cons v vs ih =>
    unfold mapPages at h
    extract_lets e r at h
    have hr : heldSnd r = held s := by simp [r]
    clear_value r
    rcases r with ⟨_ | e', u⟩
    · cases h
    · exact (ih h).trans (by simpa using hr)

@[simp] theorem held_mapRun (k d tag : Nat) (a : List Nat) (s : State) : held (mapRun k d tag a s) = held s := by
  unfold mapRun
  split
  · simp
  · split
    next h => simp [held_mapPages h]
    · simp

@[simp] theorem held_attrRun (k d tag : Nat) (a : List Nat) (s : State) : held (attrRun k d tag a s) = held s := by
  unfold attrRun
  extract_lets a3 set clr pages
  split
  · simp
  · simp [held_each]

theorem held_startMove {s t : State} {k d vpn tier stack cause : Nat} (h : startMove s k d vpn tier stack cause = some t) :
    held t = held s := by
  unfold startMove at h
  extract_lets e q r at h
  have hr : heldSnd r = held s := by
    have hq := held_alloc q.1 k 0 (some stack) 16
    unfold r
    generalize alloc q.1 k 0 (some stack) 16 = p at hq ⊢
    rcases p with ⟨_ | a, u⟩ <;> simp_all [q]
  clear_value r
  split at h
  · cases h
  · rcases r with ⟨_ | e', u⟩
    · cases h
    · cases h
      simpa using hr

/-- The step is named `f` before the list is taken apart, since the kernel would evaluate `startMove`. -/
theorem startMoves_eq_movesBy (k d tier stack : Nat) (l : List Nat) (s : State) :
    startMoves k d tier stack l s = movesBy startMove k d tier stack l s := by
  delta startMoves startMoves._f
  obtain ⟨f, he⟩ : ∃ f, f = startMove := ⟨_, rfl⟩
  rw [← he]
  clear he
  induction l generalizing s with
  | nil => rfl
  | cons v vs ih =>
    rw [movesBy, ← funext fun u => ih (s := u)]
    cases hq : f s k d v tier stack 0 <;> simp [hq]

theorem held_startMoves {k d tier stack : Nat} {l : List Nat} {s t : State} (h : startMoves k d tier stack l s = some t) :
    held t = held s := by
  rw [startMoves_eq_movesBy] at h
  induction l generalizing s with
  | nil => cases h; rfl
  | cons v vs ih =>
    obtain ⟨u, hu, h⟩ := Option.bind_eq_some_iff.mp h
    exact (ih h).trans (held_startMove hu)

@[simp] theorem held_pgtRelease (s : State) (k d : Nat) (reason : Option Nat) : held (pgtRelease s k d reason) = held s := by
  simp [pgtRelease]

@[simp] theorem held_pgtResume (s : State) (k : Nat) : held (pgtResume s k) = held s := by
  unfold pgtResume
  extract_lets d
  split
  next op a _ =>
    extract_lets pages tier stack
    generalize hr : startMoves k d tier stack pages s = r
    rcases r with _ | u
    · simp [held_each]
    · have hu : held u = held s := held_startMoves hr
      simp [held_each, hu]
  · rfl

@[simp] theorem held_unmapRun (k d tag : Nat) (a : List Nat) (s : State) : held (unmapRun k d tag a s) = held s := by
  unfold unmapRun
  extract_lets pages
  split <;> simp

@[simp] theorem held_migrateRun (k d tag : Nat) (a : List Nat) (s : State) : held (migrateRun k d tag a s) = held s := by
  unfold migrateRun
  extract_lets a3
  split <;> simp

@[simp] theorem held_pgtRun (op k d tag : Nat) (a : List Nat) (s : State) : held (pgtRun op k d tag a s) = held s := by
  unfold pgtRun
  split <;> simp

@[simp] theorem held_pgtRetry (s : State) (k : Nat) : held (pgtRetry s k) = held s := by
  unfold pgtRetry
  split <;> simp

@[simp] theorem held_execPageSwitch (k vpn : Nat) (s : State) : held (execPageSwitch k vpn s) = held s := by
  unfold execPageSwitch
  dsimp only
  split
  · rfl
  · simp only [held_pgtRetry]
    split <;> simp [besideCtrl, pgt_DEMOTE_COUNT, pgt_PROMOTE_COUNT, hCTRL]

end Sys2Proof.Proofs
end

section
/-! Proofs about what a LOAD lays down: the partition's control is as the LOAD sets it, whatever the image (R126, R148, R149). -/
namespace Sys2Proof.Proofs
open Sys2Proof.Machine Sys2Proof.Safety Sys2Proof.Laws

/-! ## What a LOAD lays down -/

@[simp] theorem held_settleTransit (s : State) (k va n : Nat) : held (settleTransit s k va n) = held s :=
  held_each (fun _ _ => held_execPageSwitch ..) ..

@[simp] theorem held_loadWrite (s : State) (k va : Nat) (bs : List Byte) (bad : List Nat) : held (loadWrite s k va bs bad) = held s := by
  simp [loadWrite, held_vaWriteBy]

@[simp] theorem held_readHome (s : State) (k va n : Nat) : heldFst (readHome s k va n) = held s := by simp [readHome]

@[simp] theorem held_semAdd (s : State) (k n cnt : Nat) : held (semAdd s k n cnt) = held s := by
  simp [semAdd, besideCtrl, cor_SEM_SAT, hCTRL]

@[simp] theorem held_coreDiscard (s : State) (k i : Nat) : held (coreDiscard s k i) = held s :=
  (held_each (fun _ _ => held_semAdd ..) ..).trans (held_setCore ..)

@[simp] theorem held_clearCore (k : Nat) (s : State) : held (clearCore k s) = held s :=
  (held_setCore ..).trans (held_each (fun _ _ => held_coreDiscard ..) ..)

@[simp] theorem held_clearSlot (s : State) (k : Nat) : held (clearSlot s k) = held s :=
  (held_each (fun _ _ => held_each (fun c _ => (held_faultBit (aside_corPage c) false).trans (held_clearCore ..)) ..) ..).trans (held_of_regs rfl rfl)

@[simp] theorem held_pinPage (k phys : Nat) (pin : Bool) (e : Nat × Nat) (s : State) : held (pinPage k phys pin e s) = held s := by
  simp [pinPage]

@[simp] theorem held_layPages (k : Nat) (b : BufSec) (s : State) : held (layPages k b s) = held s := by
  simp [layPages, held_each]

@[simp] theorem held_layBuffer (k : Nat) (b : BufSec) (s : State) : held (layBuffer k b s) = held s := by
  unfold layBuffer
  extract_lets r
  have hr : heldFst r = held s := by
    unfold r
    split
    · exact held_readHome ..
    · exact heldFst_pair ..
  split
  · simp [hr]
  · split <;> simp [hr]

@[simp] theorem held_layCore (s : State) (d : Nat) (im : Image) (n core : Nat) : held (layCore s d im n core) = held s := by
  unfold layCore
  split
  · rfl
  · refine (held_setCore ..).trans ?_
    split
    · exact held_store ..
    · rfl

@[simp] theorem held_layTasks (s : State) (k d n : Nat) (im : Image) : held (layTasks s k d n im) = held s :=
  (held_each (fun _ _ => held_loadWrite ..) ..).trans (held_setDie ..)

@[simp] theorem held_endGatherEpoch (d : Nat) (s : State) : held (endGatherEpoch d s) = held s := by
  simp [endGatherEpoch, besideCtrl, gch_RA_EVICT, gch_INVALIDATIONS, hCTRL]

/-- The format classes of an image are 16, as FMT_CLASS (check 0x28 of the load). -/
def ClassesFit (im : Image) : Prop := ∀ c ∈ im.classes, c.index < 16

section
variable (s : State) (d : Nat)

theorem held_layClasses {im : Image} (hc : ClassesFit im) :
    held (each im.classes (fun c s => wr (wr s (.tke d) (tke_FMT_CLASS_n_A + 8 * c.index) c.a.toNat) (.tke d)
      (tke_FMT_CLASS_n_A + 8 * c.index + 4) c.b.toNat) s) = held s :=
  List.foldlRecOn (motive := fun t => held t = held s) _ _ rfl fun t ht c hm => by
    have hlt := hc c hm
    rw [held_wr (aside_tke d) (besideCtrl_iff.mpr (by simp only [tke_FMT_CLASS_n_A, hCTRL]; omega)),
      held_wr (aside_tke d) (besideCtrl_iff.mpr (by simp only [tke_FMT_CLASS_n_A, hCTRL]; omega)), ht]

theorem besideCtrl_counter (c : Nat) {o : Nat} (ho : 0x100 ≤ o ∧ o ≤ 0x10C) : besideCtrl (o + wkcOff c) = true :=
  besideCtrl_iff.mpr (by simp only [wkcOff, hCTRL]; omega)

theorem held_layCounter (c : CntSec) :
    held (wr (wr (wr (wr s (wkcPage d c.counter) (wkc_VALUE_m + wkcOff c.counter) c.value.toNat) (wkcPage d c.counter)
      (wkc_LIMIT_m + wkcOff c.counter) c.limit.toNat) (wkcPage d c.counter) (wkc_BASE_m + wkcOff c.counter) c.base.toNat)
      (wkcPage d c.counter) (wkc_CFG_m + wkcOff c.counter) c.cfg.toNat) = held s := by
  have hw : ∀ (s : State) o v, 0x100 ≤ o ∧ o ≤ 0x10C → held (wr s (wkcPage d c.counter) (o + wkcOff c.counter) v) = held s :=
    fun s o v ho => held_wr (aside_wkcPage ..) (besideCtrl_counter _ ho) v
  rw [hw _ _ _ (by decide), hw _ _ _ (by decide), hw _ _ _ (by decide), hw _ _ _ (by decide)]

theorem held_streamCtrl (v : Nat) : held (wrFld s (.stm d) hCTRL 0 1 v) = held s :=
  held_wr_of (guarded_dieCtrl (d := d) rfl (by decide) (by decide)) _

theorem held_gatherCtrl (v : Nat) : held (wrFld s (.gch d) hCTRL 0 1 v) = held s :=
  held_wr_of (guarded_dieCtrl (d := d) rfl (by decide) (by decide)) _

end

theorem held_layDie {im : Image} (hc : ClassesFit im) (s : State) (k d n seed : Nat) : held (layDie s k d n im seed) = held s := by
  unfold layDie
  extract_lets s1 s2 s3 none desc x s4 s5 s6 s7
  have h2 : held s2 = held s := by
    simp only [s2, s1]
    rw [held_wr (aside_tke d) rfl, held_wr (aside_tke d) rfl, held_layClasses _ d hc]
  have h5 : held s5 = held s2 := by
    simp only [s5, s4, s3]
    rw [held_gatherCtrl, held_streamCtrl, held_setDie, held_layTasks]
  have h6 : held s6 = held s5 := held_each (fun c t => held_layCounter t d c) _ _
  have h7 : held s7 = held s6 := by
    unfold s7
    split
    · simp [besideCtrl, gch_GEN_VA_LO, gch_GEN_VA_HI, gch_GEN_PAGES, gch_GEN_TBL_LO, gch_GEN_TBL_HI, hCTRL]
    · rfl
  rw [held_endGatherEpoch, held_each (fun c t => held_layCore ..), h7, h6, h5, h2]

/-! ## The start of a LOAD and its end (R126) -/

section
variable (s : State) (k : Nat) (x : Load) (seed : Nat)

/-- The machine of a LOAD whose partition has its next epoch and no engine on. -/
def stilled : State := enableDies (setEpoch s k (epochOf s k + 1)) k false

/-- The machine once the image lies in the partition, before its tick generator is set. -/
def laid : State :=
  let s := each x.im.bufs (layPages k) (clearSlot (stilled s k) k)
  let s := each (diesOf s k) (fun d s => layDie s k d (imageDie s d) x.im seed) s
  let s := each x.im.bufs (layBuffer k) s
  let s := each x.im.gens (fun g s => physWrite s g.table ((List.range g.pages).flatMap (fun i => toBytes 2 (g.values.getD i 0))) []) s
  wr (wrFld s (homePgt s k) hCTRL 1 1 (b2n (!(diesPer s ≤ 2 && hdrModules x.h == 1)))) (.ckp k) ckp_SAMPLE_WRAP (modulusOf x.h)

/-- The registers of the tick generator at tick 0 of a window (R126). -/
def clockSet (h : List Byte) : State :=
  let s := wr (wr (wr s (.tckG k) tck_TICK_LEN (hdrTickLen h)) (.tckG k) tck_WINDOW (hdrWindow h)) (.tckG k) tck_DEPTH (hdrDepth h)
  wr (wr (wr (setTickNo s k 0) (.tckG k) tck_WINDOW_COUNT 0) (.tckG k) tck_WINDOW_TICK 0) (.tckG k) tck_PHASE 1

/-- The tick generator and the receivers of the dies at tick 0 of a window. -/
def clocked (h : List Byte) : State :=
  let s := faultBit (setTick (clockSet s k h) k TickSt.reset) (.tckG k) false
  each (diesOf s k) (fun d s => wrFld s (.tckR d) tck_RX_STATE 8 2 0) s

theorem layDown_eq : layDown s k x seed = setSlot (clocked (laid s k x seed) k x.h) k
    { getSlot (clocked (laid s k x seed) k x.h) k with image := some (x.im, x.p), laying := true } := rfl

theorem held_laid (hc : ClassesFit x.im) : held (laid s k x seed) = held (stilled s k) := by
  unfold laid
  extract_lets s1 s2 s3 s4
  have hctrl : ∀ v, held (wrFld s4 (homePgt s4 k) hCTRL 1 1 v) = held s4 := fun v =>
    held_wr_of (guarded_dieCtrl (d := homeDie s4 k) rfl (by decide) (by decide)) _
  rw [held_wr (p := .ckp k) rfl rfl, hctrl]
  simp only [s4, s3, s2, s1, held_each (fun g t => held_physWrite t ..), held_each (fun b t => held_layBuffer k b t),
    held_each (fun d t => held_layDie hc t ..), held_each (fun b t => held_layPages k b t), held_clearSlot]

end

/-! ## The tick generator after a LOAD (R126, R148) -/

theorem guarded_tckG {k o : Nat} (hk : k < 8) (ho : o < 0x1000) : guarded (pageBase (.tckG k) + o) = true :=
  decide_eq_true (.inl (by simp only [pageBase]; omega))

theorem guarded_tmt {k o : Nat} (hk : k < 9) (ho : o < 0x1000) : guarded (pageBase (.tmt k) + o) = true :=
  decide_eq_true (.inl (by simp only [pageBase]; omega))

theorem guarded_tmtPage {k : Nat} (hk : k < 8) : guarded (pageBase (.tmt k)) = true := guarded_tmt (o := 0) (by omega) (by decide)

theorem guarded_tke (d : Nat) : guarded (pageBase (.tke d) + hCTRL) = true :=
  decide_eq_true (.inr (by simp only [pageBase, dieBase, hCTRL]; omega))

/-- A register of a page after a write to that page. -/
theorem rd_wr_page (s : State) (p : Page) (o v a : Nat) : rd (wr s p o v) p a = if a = o then v % 2 ^ 32 else rd s p a := by
  split
  next h => rw [h, rd_wr]
  next h => exact rd_wr_ne _ _ (by omega)

/-- The dies of a partition depend on the layout alone. -/
theorem diesOf_of_layout {s t : State} (h : rd t (.tmt 8) tmt_LAYOUT = rd s (.tmt 8) tmt_LAYOUT) (k : Nat) : diesOf t k = diesOf s k := by
  have hl : layoutN t = layoutN s := by rw [layoutN, layoutN, h]
  rw [diesOf, diesOf, slotUsed, slotUsed, diesPer, diesPer, hl]

theorem diesOf_of_held {s t : State} (h : held t = held s) (k : Nat) : diesOf t k = diesOf s k :=
  diesOf_of_layout (held_reads h (guarded_tmt (by decide) (by decide))) k

theorem epochOf_of_held {s t : State} (h : held t = held s) {k : Nat} (hk : k < 8) : epochOf t k = epochOf s k := by
  rw [epochOf, epochOf, held_reads h (guarded_tckG hk (by decide))]

theorem phase_of_held {s t : State} (h : held t = held s) {k : Nat} (hk : k < 8) : phase t k = phase s k := by
  rw [phase, phase, held_reads h (guarded_tckG hk (by decide))]

section
variable (s : State) (k : Nat) (h : List Byte)

theorem rd_clocked {p : Page} {o : Nat} (hg : guarded (pageBase p + o) = true) (hst : pageBase p + o ≠ pageBase (.tckG k) + hSTATUS) :
    rd (clocked s k h) p o = rd (clockSet s k h) p o := by
  unfold clocked
  extract_lets t
  rw [held_reads (held_each (fun d t => held_wrFld (aside_tckR d) rfl ..) _ t) hg]
  simp only [t, faultBit, setTick]
  rw [rd_wrFld_ne _ _ _ _ hst, rd_setSlot]

/-- A register of the generator's page after a LOAD has set it. -/
theorem rd_clocked_page {o : Nat} (hk : k < 8) (ho : o < 0x1000) (hst : o ≠ hSTATUS) :
    rd (clocked s k h) (.tckG k) o = rd (clockSet s k h) (.tckG k) o :=
  rd_clocked s k h (guarded_tckG hk ho) (by omega)

theorem clocked_reads (hk : k < 8) : phase (clocked s k h) k = 1 ∧ tickNo (clocked s k h) k = 0 ∧
    rd (clocked s k h) (.tckG k) tck_WINDOW_COUNT = 0 ∧ rd (clocked s k h) (.tckG k) tck_WINDOW = hdrWindow h % 2 ^ 32 ∧
    epochOf (clocked s k h) k = epochOf s k := by
  have hread := fun o ho hst => rd_clocked_page s k h (o := o) hk ho hst
  rw [phase, tickNo, epochOf, hread _ (by decide) (by decide), hread _ (by decide) (by decide), hread _ (by decide) (by decide),
    hread _ (by decide) (by decide), hread _ (by decide) (by decide), hread _ (by decide) (by decide)]
  simp [clockSet, setTickNo, rd_wr_page, epochOf, tck_PHASE, tck_TICK_LO, tck_TICK_HI, tck_WINDOW_COUNT, tck_WINDOW_TICK, tck_WINDOW, tck_DEPTH,
    tck_TICK_LEN, tck_EPOCH, fld]

theorem cmds_clocked : (clocked s k h).cmds = s.cmds := by
  unfold clocked
  simp only [each_keep State.cmds _ (fun d t => wrFld_cmds ..), faultBit, setTick, wrFld_cmds, setSlot_cmds, clockSet, setTickNo, wr_cmds]

/-- CTRL of a task engine is not among the registers that a LOAD sets in the generator. -/
theorem rd_clocked_engine (hk : k < 8) (d : Nat) : rd (clocked s k h) (.tke d) hCTRL = rd s (.tke d) hCTRL := by
  have hne : ∀ o < 0x1000, pageBase (.tke d) + hCTRL ≠ pageBase (.tckG k) + o := fun o ho => by
    simp only [pageBase, dieBase]; omega
  rw [rd_clocked s k h (guarded_tke d) (hne _ (by decide))]
  simp only [clockSet, setTickNo]
  iterate 8 rw [rd_wr_ne _ _ (hne _ (by decide))]

/-! ## The start of a LOAD (R126, R148) -/

theorem epochOf_stilled (hk : k < 8) : epochOf (stilled s k) k = (epochOf s k + 1) % 16 := by
  have hpage : ∀ d a, a < 0x1000 → pageBase (.tckG k) + tck_EPOCH ≠ dieBase d + a := fun d a ha => by
    simp only [pageBase, dieBase, tck_EPOCH]; omega
  rw [epochOf, stilled, enableDies, rd_each_ne _ _ _ (fun d t => rd_wrFld_ne _ _ _ _ (hpage d hCTRL (by decide))), setEpoch,
    rd_each_ne _ _ _ (fun d t => rd_wrFld_ne _ _ _ _ (by simp only [pageBase, dieBase, tck_EPOCH, tck_RX_STATE]; omega)), rd_wr]
  omega

theorem cmds_stilled : (stilled s k).cmds = s.cmds := by
  rw [stilled, enableDies, each_keep State.cmds _ (fun d t => wrFld_cmds ..), setEpoch, each_keep State.cmds _ (fun d t => wrFld_cmds ..), wr_cmds]

/-- An engine whose CTRL.ENABLE is written 0 is off. -/
theorem engine_off (t : State) (d : Nat) : (rd (wrFld t (.tke d) hCTRL 0 1 0) (.tke d) hCTRL).testBit 0 = false := by
  have h := rd_wrFld t (.tke d) hCTRL 0 1 0 (by decide)
  rw [fld, Nat.shiftRight_zero] at h
  rw [Nat.testBit_zero, decide_eq_false_iff_not]
  omega

theorem engines_off {d : Nat} (l : List Nat) (t : State) (hd : d ∈ l ∨ (rd t (.tke d) hCTRL).testBit 0 = false) :
    (rd (each l (fun e s => wrFld s (.tke e) hCTRL 0 1 0) t) (.tke d) hCTRL).testBit 0 = false := by
  induction l generalizing t with
  | nil => exact hd.resolve_left List.not_mem_nil
  | cons e l ih =>
    rw [each, List.foldl_cons, ← each]
    refine ih _ ?_
    by_cases he : d = e
    · exact .inr (he ▸ engine_off t d)
    · rw [rd_wrFld_ne _ _ _ _ (by simp only [pageBase, dieBase]; omega)]
      exact hd.imp_left fun hm => (List.mem_cons.mp hm).resolve_left he

/-- A LOAD turns off the engines of the partition's dies. -/
theorem stilled_off {d : Nat} (hk : k < 8) (hd : d ∈ diesOf s k) : (rd (stilled s k) (.tke d) hCTRL).testBit 0 = false := by
  have hlayout : rd (setEpoch s k (epochOf s k + 1)) (.tmt 8) tmt_LAYOUT = rd s (.tmt 8) tmt_LAYOUT := by
    rw [setEpoch, rd_each_ne _ _ _ (fun d t => rd_wrFld_ne _ _ _ _ (by simp only [pageBase, dieBase, tmt_LAYOUT, tck_RX_STATE]; omega)),
      rd_wr_ne _ _ (by simp only [pageBase, tmt_LAYOUT, tck_EPOCH]; omega)]
  have hdies : diesOf (setEpoch s k (epochOf s k + 1)) k = diesOf s k := diesOf_of_layout hlayout k
  exact engines_off _ _ (.inl (hdies ▸ hd))

end

/-! ## Memory (R364) -/

section
variable {β : Type} {g : State → β} (hg : BesideMemory g) (hfree : ∀ s n, g { s with free := n } = g s)
include hg hfree

theorem BesideMemory.stackUnits (s : State) (a n : Nat) (write : Bool) : g (stackUnits s a n write) = g s := by
  have hunits : ∀ p o m, g (drawNat (Machine.bump s p o m)).2 = g s := fun p o m => (hfree ..).trans (hg.bump ..)
  unfold Machine.stackUnits
  split
  · split
    · exact hg.bump ..
    · exact (hg.wr ..).trans (hunits ..)
  · rfl

theorem BesideMemory.physRead (s : State) (a n : Nat) : g (physRead s a n).1 = g s := by
  unfold Machine.physRead
  split
  · exact hg.coreCheck ..
  · exact (hg.checkRead ..).trans (hg.stackUnits hfree ..)

theorem BesideMemory.physWrite (s : State) (a : Nat) (bs : List Byte) (bad : List Nat) : g (physWrite s a bs bad) = g s := by
  unfold Machine.physWrite
  refine (each_keep g _ (fun w t => hg.setSynd t w 3) _ _).trans ?_
  split
  · exact hg.coreStore ..
  · exact (hg.store ..).trans (hg.stackUnits hfree ..)

end

theorem BesideMemory.slots : BesideMemory State.slots := by constructor <;> intros <;> rfl
theorem BesideMemory.dies : BesideMemory State.dies := by constructor <;> intros <;> rfl

theorem rdByte_store (s : State) (a i : Nat) (bs : List Byte) (h : i < bs.length) : rdByte (store s a bs) (a + i) = bs[i] := by
  rw [store, rdByte, refail_mem, ← rdByte]
  exact rdByte_memWrite_in _ _ _ _ h

/-- The bytes that a unit of the hub writes to a stack. -/
theorem rdByte_physWrite (s : State) {a i : Nat} {bs : List Byte} (ha : a / 2 ^ 46 ≠ 0) (h : i < bs.length) :
    rdByte (physWrite s a bs []) (a + i) = bs[i] := by
  rw [physWrite, if_neg ha]
  exact rdByte_store _ _ _ _ h

/-! ## The end of a LOAD (R121) -/

theorem finishLong_slots (s : State) (p : Page) (code reason evt : Nat) : (finishLong s p code reason evt).slots = s.slots := by
  unfold finishLong
  split <;> rfl

theorem tfind_finishLong {s : State} {p : Page} {c : CmdRun} (h : tfind s.cmds (pageBase p) = some c) (code reason evt : Nat) :
    tfind (finishLong s p code reason evt).cmds (pageBase p) = some ⟨resultWord code reason (c.result / 65536), evt, c.long, true⟩ := by
  simp only [finishLong, h, tfind_tput_same]

theorem resultWord_eq {code reason tag : Nat} (hc : code < 256) (hr : reason < 256) (ht : tag < 65536) :
    resultWord code reason tag = code + 256 * reason + 65536 * tag := by
  rw [resultWord, Nat.mod_eq_of_lt hc, Nat.mod_eq_of_lt hr, Nat.mod_eq_of_lt ht]

section
variable (u : State) (k rep sub pl : Nat) (f : Finding)

/-- The machine once the report of a LOAD is written. -/
def reported : State := physWrite u rep (loadReport sub pl (epochOf u k) f) []

theorem loadEnds_eq : loadEnds u k rep sub pl f = finishLong (reported u k rep sub pl f) (.tmt k) (if sub = 0 then 0 else 0x0C) sub 0x20 := by
  rw [loadEnds, reported]

theorem held_reported : held (reported u k rep sub pl f) = held u := held_physWrite ..

theorem rd_loadEnds {p : Page} {o : Nat} (hg : guarded (pageBase p + o) = true) : rd (loadEnds u k rep sub pl f) p o = rd u p o := by
  rw [loadEnds_eq, rd_finishLong, held_reads (held_reported ..) hg]

theorem slots_loadEnds : (loadEnds u k rep sub pl f).slots = u.slots := by
  rw [loadEnds_eq, finishLong_slots]
  exact BesideMemory.slots.physWrite (fun _ _ => rfl) ..

theorem dies_loadEnds : (loadEnds u k rep sub pl f).dies = u.dies := by
  rw [loadEnds_eq, (near_finishLong ..).dies]
  exact BesideMemory.dies.physWrite (fun _ _ => rfl) ..

theorem phase_loadEnds (hk : k < 8) : phase (loadEnds u k rep sub pl f) k = phase u k := by
  rw [phase, phase, rd_loadEnds _ _ _ _ _ _ (guarded_tckG hk (by decide))]

theorem epochOf_loadEnds (hk : k < 8) : epochOf (loadEnds u k rep sub pl f) k = epochOf u k := by
  rw [epochOf, epochOf, rd_loadEnds _ _ _ _ _ _ (guarded_tckG hk (by decide))]

theorem getSlot_loadEnds (j : Nat) : getSlot (loadEnds u k rep sub pl f) j = getSlot u j := by
  rw [getSlot, getSlot, slots_loadEnds]

theorem loadReport_length (epoch : Nat) : (loadReport sub pl epoch f).length = 64 := by
  simp [loadReport, toBytes]

theorem rdByte_loadEnds (hrep : rep / 2 ^ 46 ≠ 0) {i : Nat} (hi : i < 64) :
    rdByte (loadEnds u k rep sub pl f) (rep + i) = (loadReport sub pl (epochOf u k) f).getD i 0 := by
  have hlen := (loadReport_length sub pl f (epochOf u k)).symm ▸ hi
  rw [loadEnds_eq, rdByte, (near_finishLong ..).mem, ← rdByte, reported, rdByte_physWrite _ hrep hlen, List.getD_eq_getElem _ _ hlen]

/-- The result of a LOAD that the page still runs. -/
theorem result_loadEnds {tag : Nat} (hk : k < 8) (ht : tag < 65536) (hs : sub < 256)
    (h : tfind u.cmds (pageBase (.tmt k)) = some ⟨resultWord 0 0 tag, 0, true, false⟩) :
    ∃ c, tfind (loadEnds u k rep sub pl f).cmds (pageBase (.tmt k)) = some c ∧ c.ready = true ∧
      c.result = (if sub = 0 then 0 else 0x0C) + 256 * sub + 65536 * tag := by
  have hr := (held_finds (held_reported u k rep sub pl f) (guarded_tmtPage hk)).trans h
  refine ⟨_, (congrArg (fun t : State => tfind t.cmds _) (loadEnds_eq ..)).trans (tfind_finishLong hr ..), rfl, ?_⟩
  have htag : resultWord 0 0 tag / 65536 = tag := by rw [resultWord_eq (by decide) (by decide) ht]; omega
  have hcode : (if sub = 0 then 0 else 0x0C) < 256 := by split <;> decide
  rw [htag, resultWord_eq hcode hs ht]

end

end Sys2Proof.Proofs
end

section
/-! Proofs about LOAD: the verdict on an image, and what the command leaves (R119 to R126, R148). -/
namespace Sys2Proof.Proofs
open Sys2Proof.Machine Sys2Proof.Safety Sys2Proof.Laws

/-! ## The verdict (R119, R120) -/

theorem leastFinding_cons (f : Finding) (l : List Finding) : leastFinding (f :: l) ≠ none := by
  rw [← Option.isSome_iff_ne_none, leastFinding, List.foldl_cons]
  refine fold_keeps (P := fun b : Option Finding => b.isSome = true) _ (fun b g hb => ?_) l _ rfl
  obtain ⟨a, rfl⟩ := Option.isSome_iff_exists.mp hb
  dsimp only
  split <;> rfl

/-- A list of checks without a failure has no finding. -/
theorem firstFailure_none {l : List (Nat × List Finding)} (h : firstFailure l = none) {c : Nat × List Finding} (hc : c ∈ l) : c.2 = [] := by
  have hn := List.findSome?_eq_none_iff.mp h c hc
  rw [Option.map_eq_none_iff] at hn
  cases hl : c.2 with
  | nil => rfl
  | cons f l => exact absurd (hl ▸ hn) (leastFinding_cons f l)

theorem test_of_bad_nil {α : Type} {order kind limit : Nat} {l : List α} {die found : α → Nat} {test : α → Bool}
    (h : bad order kind limit l die found test = []) {a : α} (ha : a ∈ l) : test a = false := by
  rw [bad, badBy, List.map_eq_nil_iff, List.filter_eq_nil_iff] at h
  obtain ⟨i, hi, rfl⟩ := List.getElem_of_mem ha
  exact Bool.eq_false_iff.mpr (h (l[i], i) (List.mk_mem_zipIdx_iff_getElem?.mpr (List.getElem?_eq_getElem hi)))

theorem judgeImage_ok {s : State} {k len : Nat} {h : List Byte} {masks : Nat → List Nat} {im : Image} {x : Load}
    (hx : judgeImage s k len h masks im = .ok x) : x.h = h ∧ firstFailure (bodyChecks s k x) = none := by
  unfold judgeImage at hx
  generalize choosePlacement s k h masks = p at hx
  dsimp only at hx
  split at hx
  · cases hx
  · cases p with
    | none =>
      dsimp only at hx
      split at hx <;> cases hx
    | some p =>
      dsimp only at hx
      split at hx
      · cases hx
      next hbody => cases hx; exact ⟨rfl, hbody⟩

/-- The format classes of an image that the loader takes have numbers below 16 (check 0x28). -/
theorem classesFit_of_judged {s : State} {k : Nat} {x : Load} (h : firstFailure (bodyChecks s k x) = none) : ClassesFit x.im := by
  intro c hc
  obtain ⟨l, hl⟩ : ∃ l, (0x28, bad (secOrder x.h 9 x.p) 9 0 x.im.classes (fun _ => 255) (fun c => c.a.toNat) (fun c => decide (15 < c.index) ||
      (match ladder (clsStart c.a.toNat), ladder (clsCeiling c.a.toNat) with | some a, some b => decide (b < a) | _, _ => false)) ++ l)
      ∈ bodyChecks s k x := ⟨_, List.mem_of_getElem? (i := 18) rfl⟩
  have ht := test_of_bad_nil (List.append_eq_nil_iff.mp (firstFailure_none h hl)).1 hc
  rw [Bool.or_eq_false_iff, decide_eq_false_iff_not] at ht
  omega

/-! ## The command (R119 to R126) -/

section
variable (s : State) (k : Nat)

/-- Where the image of a LOAD lies, and where its report goes. -/
def imageAt : Nat := arg s (.tmt k) 0 + 2 ^ 32 * (arg s (.tmt k) 1 % 65536)
def reportAt : Nat := arg s (.tmt k) 4 + 2 ^ 32 * (arg s (.tmt k) 5 % 65536)

/-- The header as it is read, with the machine after the read. -/
def headRead : State × List Byte × List Nat := physRead s (imageAt s k) 256

/-- The masks of a placement, by its PLACEMENT section. -/
def masksRead (q : Nat) : List Nat :=
  match secFor (headRead s k).2.1 1 q with
  | some e => (List.range (hdrDies (headRead s k).2.1)).map (fun d => ofBytes (memRead (headRead s k).1 (imageAt s k + e.off + 45 * d) 45))
  | none => List.replicate (hdrDies (headRead s k).2.1) 0

/-- The verdict of the loader on an image. -/
def verdictOn (im : Image) : Except (Nat × Finding × Nat) Load :=
  judgeImage s k (arg s (.tmt k) 2) (headRead s k).2.1 (masksRead s k) im

/-- The machine once the whole image is read (R222). -/
def imageRead : State := stackUnits (headRead s k).1 (imageAt s k + 256) (arg s (.tmt k) 2 - 256) false

/-- When a LOAD is taken: a used slot with a CURRENT job, no partition that runs, no wipe that was broken off, and an image and a report
in its own stacks. -/
structure LoadTaken : Prop where
  used : slotUsed s k = true
  current : (getSlot s k).current.isSome = true
  lives : 2 ≤ rd s .lcs lcs_STATE % 8
  still : phase s k = 0 ∨ phase s k = 1 ∨ phase s k = 5
  wiped : wipeIncomplete s k = false
  image : ownTier1 s k (imageAt s k) (max (arg s (.tmt k) 2) 256) pageSize = true
  report : ownTier1 s k (reportAt s k) 64 64 = true

theorem held_headRead : held (headRead s k).1 = held s := held_physRead ..

theorem held_imageRead : held (imageRead s k) = held s := (held_stackUnits ..).trans (held_headRead s k)

theorem slots_headRead : (headRead s k).1.slots = s.slots := BesideMemory.slots.physRead (fun _ _ => rfl) ..

theorem slots_imageRead : (imageRead s k).slots = s.slots :=
  (BesideMemory.slots.stackUnits (fun _ _ => rfl) ..).trans (slots_headRead s k)

theorem dies_headRead : (headRead s k).1.dies = s.dies := BesideMemory.dies.physRead (fun _ _ => rfl) ..

theorem dies_imageRead : (imageRead s k).dies = s.dies :=
  (BesideMemory.dies.stackUnits (fun _ _ => rfl) ..).trans (dies_headRead s k)

end

theorem arg_of_held {s t : State} (h : held t = held s) {k n : Nat} (hk : k < 8) (hn : n < 8) : arg t (.tmt k) n = arg s (.tmt k) n :=
  held_reads h (guarded_tmt (by omega) (by simp only [hARG]; omega))

theorem report_tier {s : State} {k : Nat} (h : LoadTaken s k) : reportAt s k / 2 ^ 46 ≠ 0 := by
  have h := h.report
  simp only [ownTier1, Bool.and_eq_true, beq_iff_eq] at h
  omega

/-- A LOAD whose pages are not under COW asks nothing of the copier. -/
theorem loadCow_uncovered {s : State} {k : Nat} {l : List Nat} (h : ∀ v ∈ l, pteCow (pteOf s k v) = false) : loadCow s k l = s :=
  List.foldlRecOn (motive := fun t => t = s) l _ rfl fun t ht v hv => by simp [ht, h v hv]

/-- A finding that stands for none. -/
def noFinding : Finding := ⟨0, 0, 255, 0, 0, 0⟩

/-- The seed of stochastic rounding that a LOAD gives the dies: of the command or of the header. -/
def loadSeed (t : State) (k : Nat) (h : List Byte) : Nat :=
  if (bytesAt h 6 1).testBit 0 then arg t (.tmt k) 6 + 2 ^ 32 * arg t (.tmt k) 7 else bytesAt h 24 8

/-- A LOAD of an image without a failure. -/
def soundLoad (s : State) (k tag : Nat) (x : Load) : State :=
  let t := imageRead s k
  if (arg t (.tmt k) 3).testBit 0 then loadEnds (loadBegins t k tag) k (reportAt s k) 0 x.p noFinding
  else
    let t := loadCow t k (loadPages x.im)
    if (loadPages x.im).any (fun v => pteCow (pteOf t k v)) then loadCow s k (loadPages x.im)
    else
      let h := (headRead s k).2.1
      let hold := (arg t (.tmt k) 3).testBit 1 || (bytesAt h 6 1).testBit 1
      let t := keepPrograms (layDown (loadBegins t k tag) k x (loadSeed t k h)) k (imageAt s k) x
      loadEnds (if hold then t else startSlot t k) k (reportAt s k) 0 x.p noFinding

/-- A LOAD that is taken, by the verdict on its image. -/
def judgedLoad (s : State) (k tag : Nat) : Except (Nat × Finding × Nat) Load → State
  | .error (sub, f, pl) =>
    loadEnds (loadBegins (if sub = 1 then (headRead s k).1 else imageRead s k) k tag) k (reportAt s k) sub pl f
  | .ok x => soundLoad s k tag x

theorem execLoad_taken {s : State} {fn k : Nat} (ha : Admitted s fn (.tmt k)) (h : LoadTaken s k) (im : Image) (tag : Nat) :
    execLoad fn k im tag s = judgedLoad s k tag (verdictOn s k im) := by
  have hslot : ¬ (!slotUsed s k || (getSlot s k).current.isNone) = true := by
    obtain ⟨j, hj⟩ := Option.isSome_iff_exists.mp h.current
    simp [h.used, hj]
  have hlife : ¬ decide (rd s .lcs lcs_STATE % 8 < 2) = true := fun hd => absurd h.lives (by have := of_decide_eq_true hd; omega)
  have himage : (!ownTier1 s k (arg s (.tmt k) 0 + 2 ^ 32 * (arg s (.tmt k) 1 % 65536)) (max (arg s (.tmt k) 2) 256) pageSize) = false :=
    congrArg not h.image
  have hreport : (!ownTier1 s k (arg s (.tmt k) 4 + 2 ^ 32 * (arg s (.tmt k) 5 % 65536)) 64 64) = false := congrArg not h.report
  have hrefused : ¬ (phase s k == 2 || phase s k == 3 || phase s k == 4 || phase s k == 6 || wipeIncomplete s k
      || !ownTier1 s k (arg s (.tmt k) 0 + 2 ^ 32 * (arg s (.tmt k) 1 % 65536)) (max (arg s (.tmt k) 2) 256) pageSize
      || !ownTier1 s k (arg s (.tmt k) 4 + 2 ^ 32 * (arg s (.tmt k) 5 % 65536)) 64 64) = true := by
    rw [himage, hreport, h.wiped]
    rcases h.still with hp | hp | hp <;> rw [hp] <;> decide
  rw [execLoad, hostCmd, hostWrite_admitted _ _ _ _ _ ha]
  dsimp only
  rw [if_neg hslot, if_neg hlife, if_neg hrefused]
  rfl

section
variable {s : State} {k tag : Nat} {x : Load} (hk : k < 8)
include hk

theorem soundLoad_checked (hc : (arg s (.tmt k) 3).testBit 0 = true) :
    soundLoad s k tag x = loadEnds (loadBegins (imageRead s k) k tag) k (reportAt s k) 0 x.p noFinding := by
  simp only [soundLoad, arg_of_held (held_imageRead s k) hk (by decide : 3 < 8), hc, if_true]

theorem soundLoad_held (hc : (arg s (.tmt k) 3).testBit 0 = false) (hh : (arg s (.tmt k) 3).testBit 1 = true)
    (hcow : ∀ v ∈ loadPages x.im, pteCow (pteOf (headRead s k).1 k v) = false) :
    soundLoad s k tag x = loadEnds (keepPrograms (layDown (loadBegins (imageRead s k) k tag) k x
      (loadSeed (imageRead s k) k (headRead s k).2.1)) k (imageAt s k) x) k (reportAt s k) 0 x.p noFinding := by
  have hcow' : ∀ v ∈ loadPages x.im, pteCow (pteOf (imageRead s k) k v) = false := fun v hv => by
    rw [pteOf, getSlot, slots_imageRead, ← slots_headRead, ← getSlot, ← pteOf]
    exact hcow v hv
  have hany : (loadPages x.im).any (fun v => pteCow (pteOf (imageRead s k) k v)) = false :=
    List.any_eq_false.mpr fun v hv => Bool.eq_false_iff.mp (hcow' v hv)
  simp only [soundLoad, loadCow_uncovered hcow', hany, arg_of_held (held_imageRead s k) hk (by decide : 3 < 8), hc, hh, Bool.true_or, if_true,
    Bool.false_eq_true, if_false]

end

/-! ## What a LOAD leaves -/

section
variable {s u : State} {k tag : Nat}

/-- A LOAD that lays nothing down leaves the partition as it was. -/
theorem loadEnds_same (hk : k < 8) (hu : held u = held s) (hs : u.slots = s.slots) (hd : u.dies = s.dies) (rep sub pl : Nat) (f : Finding) :
    let t := loadEnds (loadBegins u k tag) k rep sub pl f
    phase t k = phase s k ∧ epochOf t k = epochOf s k ∧ (getSlot t k).image = (getSlot s k).image ∧ t.dies = s.dies := by
  intro t
  have himage : (getSlot t k).image = (getSlot u k).image := by
    simp only [t, getSlot_loadEnds, loadBegins, getSlot_setSlot]
  exact ⟨(phase_loadEnds _ _ _ _ _ _ hk).trans (phase_of_held hu hk), (epochOf_loadEnds _ _ _ _ _ _ hk).trans (epochOf_of_held hu hk),
    himage.trans (by rw [getSlot, hs, ← getSlot]), (dies_loadEnds ..).trans hd⟩

theorem result_loadBegins : tfind (loadBegins u k tag).cmds (pageBase (.tmt k)) = some ⟨resultWord 0 0 tag, 0, true, false⟩ :=
  tfind_tput_same ..

theorem keepPrograms_regs (base : Nat) (x : Load) : (keepPrograms u k base x).regs = u.regs := by
  unfold keepPrograms
  split <;> rfl

theorem keepPrograms_cmds (base : Nat) (x : Load) : (keepPrograms u k base x).cmds = u.cmds := by
  unfold keepPrograms
  split <;> rfl

theorem image_keepPrograms (base : Nat) (x : Load) : (getSlot (keepPrograms u k base x) k).image = (getSlot u k).image := by
  unfold keepPrograms
  split
  · rw [getSlot_setSlot]
  · rfl

/-- A LOAD that lays an image down and holds the partition. -/
theorem loadEnds_laid (hk : k < 8) (hu : held u = held s) {x : Load} (hx : ClassesFit x.im) (base seed rep : Nat) (f : Finding) :
    let t := loadEnds (keepPrograms (layDown (loadBegins u k tag) k x seed) k base x) k rep 0 x.p f
    phase t k = 1 ∧ epochOf t k = (epochOf s k + 1) % 16 ∧ tickNo t k = 0 ∧ rd t (.tckG k) tck_WINDOW_COUNT = 0 ∧
      (getSlot t k).image = some (x.im, x.p) ∧ rd t (.tckG k) tck_WINDOW = hdrWindow x.h % 2 ^ 32 ∧
      ∀ d ∈ diesOf s k, (rd t (.tke d) hCTRL).testBit 0 = false := by
  intro t
  have hlaid := held_laid (loadBegins u k tag) k x seed hx
  obtain ⟨hphase, htick, hcount, hwindow, hepoch⟩ := clocked_reads (laid (loadBegins u k tag) k x seed) k x.h hk
  have hreads : ∀ {p : Page} {o : Nat}, guarded (pageBase p + o) = true →
      rd t p o = rd (clocked (laid (loadBegins u k tag) k x seed) k x.h) p o := fun {p o} hg =>
    (rd_loadEnds _ _ _ _ _ _ hg).trans (by rw [rd, rd, regAt, regAt, keepPrograms_regs, layDown_eq, setSlot_regs])
  have hgen : ∀ o < 0x1000, rd t (.tckG k) o = rd (clocked (laid (loadBegins u k tag) k x seed) k x.h) (.tckG k) o := fun o ho =>
    hreads (guarded_tckG hk ho)
  refine ⟨?_, ?_, ?_, ?_, ?_, ?_, fun d hd => ?_⟩
  · rw [phase, hgen _ (by decide), ← phase, hphase]
  · rw [epochOf, hgen _ (by decide), ← epochOf, hepoch, epochOf_of_held hlaid hk, epochOf_stilled _ _ hk]
    exact congrArg (fun n => (n + 1) % 16) (epochOf_of_held hu hk)
  · rw [tickNo, hgen _ (by decide), hgen _ (by decide), ← tickNo, htick]
  · rw [hgen _ (by decide), hcount]
  · simp only [t, getSlot_loadEnds, image_keepPrograms, layDown_eq, getSlot_setSlot]
  · rw [hgen _ (by decide), hwindow]
  · rw [hreads (guarded_tke d), rd_clocked_engine _ _ _ hk, held_reads hlaid (guarded_tke d)]
    exact stilled_off _ _ hk ((diesOf_of_held hu k).symm ▸ hd)

theorem result_laid (hk : k < 8) {x : Load} (hx : ClassesFit x.im) (base seed : Nat) :
    tfind (keepPrograms (layDown (loadBegins u k tag) k x seed) k base x).cmds (pageBase (.tmt k)) =
      some ⟨resultWord 0 0 tag, 0, true, false⟩ := by
  rw [keepPrograms_cmds, layDown_eq, setSlot_cmds, cmds_clocked,
    held_finds (held_laid _ k x seed hx) (guarded_tmtPage hk), cmds_stilled]
  exact result_loadBegins

end

/-- Settles O34: by the verdict on the image; what is laid down leaves the registers of the partition's control, and the report touches
none of them. -/
theorem loadImage : Obligations.LoadImage := by
  unfold Obligations.LoadImage
  intro s fn k im tag p base rep r h maskOf ends same ha hused hcur hlife hstill hwiped himage hreport
  have hk : k.val < 8 := k.isLt
  have htaken : LoadTaken s k := ⟨hused, hcur, hlife, hstill, hwiped, himage, hreport⟩
  have hanswer : ∀ {v}, verdictOn s k im = v →
      ∃ t, exec (.load fn k im tag) s = .next t ∧ t = { judgedLoad s k tag.toNat v with pending := s.pending } := fun hv =>
    ⟨_, congrArg (answer s) ((execLoad_taken ha htaken im tag.toNat).trans (congrArg (judgedLoad s k tag.toNat) hv)), rfl⟩
  have hends : ∀ {u : State}, tfind u.cmds (pageBase (.tmt k)) = some ⟨resultWord 0 0 tag.toNat, 0, true, false⟩ → ∀ sub < 256, ∀ pl f,
      ends (loadEnds u k rep sub pl f) (if sub = 0 then 0 else 0x0C) sub := fun hu sub hs pl f =>
    result_loadEnds _ _ _ _ _ _ hk tag.isLt hs hu
  refine ⟨fun sub f pl hj h0 hs => ?_, fun x hj => ⟨fun hc => ?_, fun hc hh hcow => ?_⟩⟩
  · obtain ⟨t, ht, rfl⟩ := hanswer (v := .error (sub, f, pl)) hj
    refine ⟨_, ht, ?_⟩
    have hu : ∃ u, u = (if sub = 1 then (headRead s k).1 else imageRead s k) ∧ held u = held s ∧ u.slots = s.slots ∧ u.dies = s.dies := by
      refine ⟨_, rfl, ?_⟩
      split
      · exact ⟨held_headRead s k, slots_headRead s k, dies_headRead s k⟩
      · exact ⟨held_imageRead s k, slots_imageRead s k, dies_imageRead s k⟩
    obtain ⟨u, heq, hheld, hslots, hdies⟩ := hu
    rw [judgedLoad, ← heq]
    have hepoch : epochOf (loadBegins u k tag.toNat) k = epochOf s k := epochOf_of_held hheld hk
    have hres := hends (result_loadBegins (u := u) (k := k) (tag := tag.toNat)) sub hs pl f
    rw [if_neg (by omega)] at hres
    exact ⟨hres, loadEnds_same hk hheld hslots hdies _ _ _ _, fun i hi => by
      rw [← hepoch]; exact rdByte_loadEnds _ _ _ _ _ _ (report_tier htaken) hi⟩
  · obtain ⟨t, ht, rfl⟩ := hanswer (v := .ok x) hj
    refine ⟨_, ht, ?_⟩
    rw [judgedLoad, soundLoad_checked hk hc]
    exact ⟨hends result_loadBegins 0 (by decide) _ _,
      loadEnds_same hk (held_imageRead s k) (slots_imageRead s k) (dies_imageRead s k) _ _ _ _⟩
  · obtain ⟨t, ht, rfl⟩ := hanswer (v := .ok x) hj
    obtain ⟨hheader, hchecks⟩ := judgeImage_ok hj
    have hclasses := classesFit_of_judged hchecks
    refine ⟨_, ht, ?_⟩
    rw [judgedLoad, soundLoad_held hk hc hh hcow]
    have hlaid := loadEnds_laid (tag := tag.toNat) hk (held_imageRead s k) hclasses (imageAt s k) (loadSeed (imageRead s k) k (headRead s k).2.1)
      (reportAt s k) noFinding
    rw [hheader] at hlaid
    obtain ⟨hphase, hepoch, htick, hcount, himg, hwindow, hoff⟩ := hlaid
    exact ⟨hends (result_laid hk hclasses _ _) 0 (by decide) _ _, hphase, hepoch, htick, hcount, himg, hwindow, hoff⟩

end Sys2Proof.Proofs
end
section
/-! Proofs about the tick generator: its marker, its window boundary, and what they leave of its page and of the rest (R130 to R157). -/
namespace Sys2Proof.Proofs
open Sys2Proof.Machine Sys2Proof.Safety Sys2Proof.Laws

/-! ## Answers: a command's effect under the queue that the command was given -/

/-- The machine of `u` with the queue of `s`. -/
def requeue (s u : State) : State := { u with pending := s.pending }

theorem answer_requeue (s u : State) : answer s u = .next (requeue s u) := rfl

section
variable (s u : State)

@[simp] theorem rd_requeue (p : Page) (o : Nat) : rd (requeue s u) p o = rd u p o := rfl
@[simp] theorem net_requeue : (requeue s u).net = u.net := rfl
@[simp] theorem getDie_requeue (d : Nat) : getDie (requeue s u) d = getDie u d := rfl

end

/-! ## The generator's state and what leaves it -/

theorem getTick_of_slots {s t : State} (h : t.slots = s.slots) (k : Nat) : getTick t k = getTick s k := by
  rw [getTick, getTick, getSlot, getSlot, h]

@[simp] theorem getTick_setTick (s : State) (k : Nat) (x : TickSt) : getTick (setTick s k x) k = x := by
  rw [getTick, setTick, getSlot_setSlot]

@[simp] theorem rd_setTick (s : State) (k : Nat) (x : TickSt) (p : Page) (o : Nat) : rd (setTick s k x) p o = rd s p o := rfl

theorem phase_congr {s t : State} {k : Nat} (h : rd t (.tckG k) tck_PHASE = rd s (.tckG k) tck_PHASE) : phase t k = phase s k := by
  rw [phase, phase, h]

theorem tickNo_congr {s t : State} {k : Nat} (hlo : rd t (.tckG k) tck_TICK_LO = rd s (.tckG k) tck_TICK_LO)
    (hhi : rd t (.tckG k) tck_TICK_HI = rd s (.tckG k) tck_TICK_HI) : tickNo t k = tickNo s k := by
  rw [tickNo, tickNo, hlo, hhi]

/-- Sending leaves the pages other than those of the ports and of the partitions (R297, R307). -/
theorem keepsPage_of_sent {s t : State} {p : Page} (h : Sent s t) (hp : ∀ o < 0x1000, Beside (pageBase p + o)) : KeepsPage p s t :=
  ⟨h.cmds, fun o ho => h.regs _ (hp o ho)⟩

theorem beside_tckG {k : Nat} (hk : k < 8) : ∀ o < 0x1000, Beside (pageBase (.tckG k) + o) := fun o ho => by
  simp only [Beside, pageBase]; omega

theorem beside_tke (d : Nat) : ∀ o < 0x1000, Beside (pageBase (.tke d) + o) := fun o ho => by
  simp only [Beside, pageBase, dieBase]; omega

theorem sent_sendMarkers (s : State) {k : Nat} (hk : k < 8) (kn : Nat) (inj : Bool) : Sent s (sendMarkers s k kn inj) :=
  (sent_each _ (fun _ _ => sent_netSend _ _ _ _ hk) _ _).trans (sent_each _ (fun _ _ => sent_netSend _ _ _ _ hk) _ _)

/-! ## The boundary before a tick (R144, R146) -/

/-- The generator's page as it shows the tick that begins. -/
def marked (s : State) (k kn : Nat) (inj : Bool) : State :=
  wrFld (setPhase (wr s (.tckG k) tck_WINDOW_TICK kn) k (if inj then 3 else 4)) (.tckG k) tck_PHASE 4 1 0

section
variable (s : State) (k kn : Nat) (inj : Bool)

theorem rd_marked_tick : rd (marked s k kn inj) (.tckG k) tck_WINDOW_TICK = kn % 2 ^ 32 := by
  rw [marked, rd_wrFld_ne _ _ _ _ (offset_ne (by decide)), setPhase, rd_wrFld_ne _ _ _ _ (offset_ne (by decide)), rd_wr]

theorem phase_marked : phase (marked s k kn inj) k = if inj then 3 else 4 := by
  rw [phase, marked, rd_wrFld_below _ _ _ _ _ _ _ _ (by decide) (by decide), setPhase, rd_wrFld _ _ _ _ _ _ (by decide)]
  cases inj <;> rfl

theorem rd_marked_ne {o : Nat} (ht : o ≠ tck_WINDOW_TICK) (hp : o ≠ tck_PHASE) :
    rd (marked s k kn inj) (.tckG k) o = rd s (.tckG k) o := by
  rw [marked, rd_wrFld_ne _ _ _ _ (offset_ne hp), setPhase, rd_wrFld_ne _ _ _ _ (offset_ne hp), rd_wr_ne _ _ (offset_ne ht)]

end

section
variable {p : Page} {k : Nat} (hc : pageBase (.ckp k) ≠ pageBase p)
include hc

theorem keepsPage_rewindInjection (s : State) : KeepsPage p s (rewindInjection s k) := by
  unfold rewindInjection
  extract_lets t
  split
  · exact .setTick ..
  · split
    · exact .setTick ..
    · exact (KeepsPage.wr hc (by decide) s _).trans (.setTick ..)

theorem keepsPage_inject (s : State) (kn : Nat) : KeepsPage p s (inject s k kn) :=
  (KeepsPage.wr hc (by decide) s _).trans (.setTick ..)

/-- Beside the marks of the tick that begins, a boundary leaves the pages other than the checkpoint engine's. -/
theorem boundaryTo_marks (s : State) (kn : Nat) (inj : Bool) :
    ∃ u, KeepsPage p s u ∧ KeepsPage p (marked u k kn inj) (boundaryTo s k kn inj) := by
  unfold boundaryTo
  extract_lets t s1 s2 s3 s4 s5 s6 s7
  have h1 : KeepsPage p s s1 := .ite (.setTick ..) (.refl ..)
  have h3 : KeepsPage p s s3 := (h1.trans (keepsPage_rewindInjection hc _)).trans (.settleSamples hc _ _)
  have h4 : KeepsPage p s s4 := .ite (h3.trans (keepsPage_inject hc _ kn)) h3
  have h7 : KeepsPage p s6 s7 := .ite (.each (fun _ _ _ => .setDie ..) _) (.refl ..)
  exact ⟨s4, h4, h7.trans (.setTick ..)⟩

end

theorem count_boundaryTo (s : State) (k kn : Nat) (inj : Bool) : (getTick (boundaryTo s k kn inj) k).count = .known 0 := by
  simp only [boundaryTo, getTick_setTick]

/-- The page of the slot's own checkpoint engine is another one than a generator's. -/
theorem ckp_ne_tckG (k : Nat) : pageBase (.ckp k) ≠ pageBase (.tckG k) := by simp only [pageBase]; omega

section
variable (s : State) (k kn : Nat) (inj : Bool)

theorem rd_boundaryTo_tick : rd (boundaryTo s k kn inj) (.tckG k) tck_WINDOW_TICK = kn % 2 ^ 32 := by
  obtain ⟨u, -, h⟩ := boundaryTo_marks (ckp_ne_tckG k) s kn inj
  rw [h.reads _ (by decide), rd_marked_tick]

theorem phase_boundaryTo : phase (boundaryTo s k kn inj) k = if inj then 3 else 4 := by
  obtain ⟨u, -, h⟩ := boundaryTo_marks (ckp_ne_tckG k) s kn inj
  rw [phase_congr (h.reads _ (by decide)), phase_marked]

theorem rd_boundaryTo_ne {o : Nat} (ho : o < 0x1000) (ht : o ≠ tck_WINDOW_TICK) (hp : o ≠ tck_PHASE) :
    rd (boundaryTo s k kn inj) (.tckG k) o = rd s (.tckG k) o := by
  obtain ⟨u, hu, h⟩ := boundaryTo_marks (ckp_ne_tckG k) s kn inj
  rw [h.reads _ ho, rd_marked_ne _ _ _ _ ht hp, hu.reads _ ho]

/-- A boundary leaves the pages other than the generator's and the checkpoint engine's. -/
theorem keepsPage_boundaryTo {p : Page} (ht : pageBase (.tckG k) ≠ pageBase p) (hc : pageBase (.ckp k) ≠ pageBase p) :
    KeepsPage p s (boundaryTo s k kn inj) := by
  obtain ⟨u, hu, h⟩ := boundaryTo_marks hc s kn inj
  exact hu.trans ((((KeepsPage.wr ht (by decide) u _).trans (.wr ht (by decide) _ _)).trans (.wr ht (by decide) _ _)).trans h)

end

/-! ## The marker (R130) -/

/-- The generator at the marker for window tick kn, with the extension of the tick that is over shown. -/
def extended (s : State) (k : Nat) : State :=
  let ext := max (rd s (.tckG k) tck_THERM_EXT % 2 ^ 21) (maxOf ((getTick s k).dones.map (·.therm)))
  let s := wr s (.tckG k) tck_EXT_APPLIED ext
  if ext = 0 then s else bump s (.tckG k) tck_THERM_TICKS 1

/-- The generator's count of ticks goes on by one, but for the first marker. -/
def counted (s : State) (k : Nat) (first : Bool) : State := if first then s else setTickNo s k (tickNo s k + 1)

theorem emitMarker_eq (s : State) (k kn : Nat) (first : Bool) : emitMarker s k kn first =
    let inj := injects (extended s k) k kn
    let u := counted (boundaryTo (extended s k) k kn inj) k first
    sendMarkers (setTick u k { getTick u k with dones := [], overrun := false, noLimit := false }) k kn inj := rfl

section
variable (s : State) (k : Nat)

theorem rd_extended_ne {o : Nat} (he : o ≠ tck_EXT_APPLIED) (ht : o ≠ tck_THERM_TICKS) :
    rd (extended s k) (.tckG k) o = rd s (.tckG k) o := by
  unfold extended
  extract_lets ext t
  have hw : rd t (.tckG k) o = rd s (.tckG k) o := rd_wr_ne _ _ (offset_ne he)
  split
  · exact hw
  · rw [rd_bump_ne _ _ (offset_ne ht), hw]

theorem slots_extended : (extended s k).slots = s.slots := by
  unfold extended
  extract_lets ext t
  split <;> rfl

theorem tickNo_setTickNo (n : Nat) : tickNo (setTickNo s k n) k = n % 2 ^ 64 := by
  have hlo : rd (setTickNo s k n) (.tckG k) tck_TICK_LO = n % 2 ^ 32 := by
    rw [setTickNo, rd_wr_ne _ _ (offset_ne (by decide)), rd_wr]; omega
  have hhi : rd (setTickNo s k n) (.tckG k) tck_TICK_HI = n / 2 ^ 32 % 2 ^ 32 := by
    rw [setTickNo, rd_wr]; omega
  rw [tickNo, hlo, hhi]
  omega

theorem rd_setTickNo_ne (n : Nat) {o : Nat} (hl : o ≠ tck_TICK_LO) (hh : o ≠ tck_TICK_HI) :
    rd (setTickNo s k n) (.tckG k) o = rd s (.tckG k) o := by
  rw [setTickNo, rd_wr_ne _ _ (offset_ne hh), rd_wr_ne _ _ (offset_ne hl)]

theorem rd_counted_ne (first : Bool) {o : Nat} (hl : o ≠ tck_TICK_LO) (hh : o ≠ tck_TICK_HI) :
    rd (counted s k first) (.tckG k) o = rd s (.tckG k) o := by
  cases first
  · exact rd_setTickNo_ne s k _ hl hh
  · rfl

theorem tickNo_counted (first : Bool) : tickNo (counted s k first) k = if first then tickNo s k else (tickNo s k + 1) % 2 ^ 64 := by
  cases first
  · exact tickNo_setTickNo s k _
  · rfl

/-- Whether a sample enters depends on the generator's own state and the window's length. -/
theorem injects_congr {t : State} (ht : getTick t k = getTick s k) (hw : windowLen t k = windowLen s k) (kn : Nat) :
    injects t k kn = injects s k kn := by
  unfold injects
  rw [ht, hw]

theorem injects_zero : injects s k 0 = decide (0 < windowLen s k) := rfl

end

section
variable (s : State) {k : Nat} (kn : Nat) (first : Bool) (hk : k < 8)
include hk

/-- What the marker leaves of its generator's page is what the boundary and the count leave. -/
theorem rd_emitMarker {o : Nat} (ho : o < 0x1000) : rd (emitMarker s k kn first) (.tckG k) o =
    rd (counted (boundaryTo (extended s k) k kn (injects (extended s k) k kn)) k first) (.tckG k) o := by
  rw [emitMarker_eq]
  exact (keepsPage_of_sent (sent_sendMarkers _ hk _ _) (beside_tckG hk)).reads _ ho

theorem rd_emitMarker_ne {o : Nat} (ho : o < 0x1000)
    (h : o ∉ [tck_EXT_APPLIED, tck_THERM_TICKS, tck_WINDOW_TICK, tck_PHASE, tck_TICK_LO, tck_TICK_HI]) :
    rd (emitMarker s k kn first) (.tckG k) o = rd s (.tckG k) o := by
  simp only [List.mem_cons, List.not_mem_nil, or_false, not_or] at h
  obtain ⟨he, hm, ht, hp, hl, hh⟩ := h
  rw [rd_emitMarker s kn first hk ho, rd_counted_ne _ _ _ hl hh, rd_boundaryTo_ne _ _ _ _ ho ht hp, rd_extended_ne _ _ he hm]

theorem rd_emitMarker_tick : rd (emitMarker s k kn first) (.tckG k) tck_WINDOW_TICK = kn % 2 ^ 32 := by
  rw [rd_emitMarker s kn first hk (by decide), rd_counted_ne _ _ _ (by decide) (by decide), rd_boundaryTo_tick]

theorem phase_emitMarker : phase (emitMarker s k kn first) k = if injects s k kn then 3 else 4 := by
  rw [phase_congr ((rd_emitMarker s kn first hk (by decide)).trans (rd_counted_ne _ _ _ (by decide) (by decide))), phase_boundaryTo,
    injects_congr s k (getTick_of_slots (slots_extended s k) k) (rd_extended_ne s k (by decide) (by decide))]

theorem tickNo_emitMarker : tickNo (emitMarker s k kn first) k = if first then tickNo s k else (tickNo s k + 1) % 2 ^ 64 := by
  have hb : tickNo (boundaryTo (extended s k) k kn (injects (extended s k) k kn)) k = tickNo s k :=
    tickNo_congr ((rd_boundaryTo_ne _ _ _ _ (by decide) (by decide) (by decide)).trans (rd_extended_ne _ _ (by decide) (by decide)))
      ((rd_boundaryTo_ne _ _ _ _ (by decide) (by decide) (by decide)).trans (rd_extended_ne _ _ (by decide) (by decide)))
  rw [tickNo_congr (rd_emitMarker s kn first hk (by decide)) (rd_emitMarker s kn first hk (by decide)), tickNo_counted, hb]

theorem dones_emitMarker : (getTick (emitMarker s k kn first) k).dones = [] := by
  rw [emitMarker_eq, getTick_of_slots (sent_sendMarkers _ hk _ _).slots, getTick_setTick]

end

end Sys2Proof.Proofs
end
section
/-! Proofs about the window boundary and the markers of leader and follower (R130, R134, R144). -/
namespace Sys2Proof.Proofs
open Sys2Proof.Machine Sys2Proof.Safety Sys2Proof.Laws

/-! ## The window boundary (R144) -/

/-- The generator once it has counted its window. -/
def windowCounted (s : State) (k : Nat) : State :=
  raise (bump (setTick s k { getTick s k with bounded := true }) (.tckG k) tck_WINDOW_COUNT 1) (.tckG k) 4

/-- A boundary that has not been taken counts the window, settles samples, and ends what the window has of its dies. -/
theorem windowBoundary_open {s : State} {k : Nat} (h : (getTick s k).bounded = false) : ∃ l l' l'', windowBoundary s k =
    each l'' endGatherEpoch (each l' (reloadCounters 1) (settleSamples (windowCounted s k) k l)) := by
  unfold windowBoundary
  rw [if_neg (by simp [h])]
  exact ⟨_, _, _, rfl⟩

section
variable {s : State} {k : Nat}

theorem windowCounted_keeps {p : Page} (hc : pageBase (.ckp k) ≠ pageBase p) (hw : ∀ d, ∀ i < 4, pageBase (.wkc d i) ≠ pageBase p)
    (hg : ∀ d, pageBase (.gch d) ≠ pageBase p) (h : (getTick s k).bounded = false) :
    KeepsPage p (windowCounted s k) (windowBoundary s k) := by
  obtain ⟨l, l', l'', e⟩ := windowBoundary_open h
  rw [e]
  exact ((KeepsPage.settleSamples hc _ _).trans (.each (fun d _ t => .reloadCounters (hw d) 1 t) _)).trans
    (.each (fun d _ t => .endGatherEpoch (hg d) t) _)

theorem windowCounted_keeps_tckG (hk : k < 8) (h : (getTick s k).bounded = false) :
    KeepsPage (.tckG k) (windowCounted s k) (windowBoundary s k) := by
  apply windowCounted_keeps _ _ _ h <;> simp only [pageBase, dieBase] <;> omega

theorem rd_windowCounted_count : rd (windowCounted s k) (.tckG k) tck_WINDOW_COUNT = min (rd s (.tckG k) tck_WINDOW_COUNT + 1) 0xFFFFFFFF := by
  rw [windowCounted, rd_raise_ne _ _ (offset_ne (by decide)), rd_bump, rd_setTick]

theorem rd_windowBoundary_count (hk : k < 8) (h : (getTick s k).bounded = false) :
    rd (windowBoundary s k) (.tckG k) tck_WINDOW_COUNT = min (rd s (.tckG k) tck_WINDOW_COUNT + 1) 0xFFFFFFFF := by
  rw [(windowCounted_keeps_tckG hk h).reads _ (by decide), rd_windowCounted_count]

/-- Of its generator's page a boundary writes the count of windows and the event. -/
theorem rd_windowBoundary_ne (hk : k < 8) {o : Nat} (ho : o < 0x1000) (hn : o ≠ tck_WINDOW_COUNT) (he : o ≠ hEVT) :
    rd (windowBoundary s k) (.tckG k) o = rd s (.tckG k) o := by
  cases h : (getTick s k).bounded
  · rw [(windowCounted_keeps_tckG hk h).reads _ ho, windowCounted, rd_raise_ne _ _ (offset_ne he), rd_bump_ne _ _ (offset_ne hn), rd_setTick]
  · rw [windowBoundary, h]
    rfl

theorem rd_settleSamples_ne (l : List Nat) {o : Nat} (h : o ≠ ckp_SETTLED) :
    rd (settleSamples s k l) (.ckp k) o = rd s (.ckp k) o := by
  unfold settleSamples
  split
  · rfl
  · dsimp only
    rw [rd_each_ne _ _ _ (fun _ _ => rd_setDie ..), rd_setTick, rd_wr_ne _ _ (offset_ne h)]

/-- Of the checkpoint engine's page a boundary writes SETTLED alone. -/
theorem ckPhase_windowBoundary (hk : k < 8) (s : State) : ckPhase (windowBoundary s k) k = ckPhase s k := by
  have hr : rd (windowBoundary s k) (.ckp k) ckp_STATE = rd s (.ckp k) ckp_STATE := by
    cases h : (getTick s k).bounded
    · obtain ⟨l, l', l'', e⟩ := windowBoundary_open h
      have hgather : ∀ t, KeepsPage (.ckp k) t (each l'' endGatherEpoch (each l' (reloadCounters 1) t)) := fun t =>
        KeepsPage.trans (.each (fun d _ t => .reloadCounters (fun i _ => by simp only [pageBase, dieBase]; omega) 1 t) _)
          (.each (fun d _ t => .endGatherEpoch (by simp only [pageBase, dieBase]; omega) t) _)
      have hne : ∀ o < 0x1000, pageBase (.ckp k) + ckp_STATE ≠ pageBase (.tckG k) + o := fun o ho => by
        simp only [pageBase, ckp_STATE]; omega
      rw [e, (hgather _).reads _ (by decide), rd_settleSamples_ne _ (by decide), windowCounted,
        rd_raise_ne _ _ (hne _ (by decide)), rd_bump_ne _ _ (hne _ (by decide)), rd_setTick]
    · rw [windowBoundary, h]
      rfl
  rw [ckPhase, ckPhase, hr]

/-- A boundary leaves the layout, and the operations in progress, a waiting swap's among them. -/
theorem windowBoundary_keeps_layout (hk : k < 8) (s : State) : KeepsPage (.tmt 8) s (windowBoundary s k) := by
  apply KeepsPage.windowBoundary <;> simp only [pageBase, dieBase] <;> omega

theorem swapWaits_windowBoundary (hk : k < 8) (s : State) : swapWaits (windowBoundary s k) k = swapWaits s k := by
  have h := windowBoundary_keeps_layout hk s
  unfold swapWaits busy
  rw [diesOf_of_layout (h.reads _ (by decide)), h.cmds]

end

/-! ## The leader's marker (R130) -/

/-- The generator with the extra cycles of a stretched tick counted (R135). -/
def stretched (s : State) (k extra : Nat) : State :=
  if (getTick s k).overrun then wrMax (bump s (.tckG k) tck_STRETCH_TOTAL extra) (.tckG k) tck_STRETCH_MAX (min extra 0xFFFFFFFF) else s

section
variable (s : State) (k extra : Nat)

theorem rd_stretched_ne {p : Page} {o : Nat} (ht : pageBase p + o ≠ pageBase (.tckG k) + tck_STRETCH_TOTAL)
    (hm : pageBase p + o ≠ pageBase (.tckG k) + tck_STRETCH_MAX) : rd (stretched s k extra) p o = rd s p o := by
  unfold stretched
  split
  · rw [wrMax, rd_wr_ne _ _ hm, rd_bump_ne _ _ ht]
  · rfl

theorem slots_stretched : (stretched s k extra).slots = s.slots := by
  unfold stretched
  split <;> rfl

theorem rd_stretched_page {o : Nat} (ht : o ≠ tck_STRETCH_TOTAL) (hm : o ≠ tck_STRETCH_MAX) :
    rd (stretched s k extra) (.tckG k) o = rd s (.tckG k) o := rd_stretched_ne _ _ _ (offset_ne ht) (offset_ne hm)

end

/-- Two machines between which no die of the segment, and no DONE, differs. -/
structure SameSegment (k : Nat) (s t : State) : Prop where
  tick : getTick t k = getTick s k
  ctrl : rd t (.tckG k) hCTRL = rd s (.tckG k) hCTRL
  peers : rd t (.tckG k) tck_PEERS = rd s (.tckG k) tck_PEERS
  layout : rd t (.tmt 8) tmt_LAYOUT = rd s (.tmt 8) tmt_LAYOUT
  number : rd t (.fld 16) fld_MODULE = rd s (.fld 16) fld_MODULE

theorem SameSegment.missing {k : Nat} {s t : State} (h : SameSegment k s t) : missing t k = missing s k := by
  unfold Machine.missing segmentDies followers peerModules roleNo moduleNo
  rw [h.tick, h.ctrl, h.peers, h.number, diesOf_of_layout h.layout]

theorem SameSegment.windowOver {k : Nat} {s t : State} (h : SameSegment k s t) : windowOver t k = windowOver s k := by
  unfold Machine.windowOver
  rw [h.missing, h.tick]

theorem sameSegment_stretched (s : State) (k extra : Nat) : SameSegment k s (stretched s k extra) where
  tick := getTick_of_slots (slots_stretched ..) k
  ctrl := rd_stretched_page _ _ _ (by decide) (by decide)
  peers := rd_stretched_page _ _ _ (by decide) (by decide)
  layout := by apply rd_stretched_ne <;> simp only [pageBase, tmt_LAYOUT, tck_STRETCH_TOTAL, tck_STRETCH_MAX] <;> omega
  number := by apply rd_stretched_ne <;> simp only [pageBase, fld_MODULE, tck_STRETCH_TOTAL, tck_STRETCH_MAX] <;> omega

/-- A tick of the timetable's entry writes no page but the timetable's. -/
theorem keepsPage_entryTick {p : Page} {k : Nat} (h : pageBase (.tmt k) ≠ pageBase p) (s : State) : KeepsPage p s (entryTick s k) := by
  unfold entryTick
  extract_lets x
  exact .ite (.refl ..) (.ite (.setSlot ..) (.wr h (by decide) _ _))

theorem tmt_ne_tckG (k : Nat) : pageBase (.tmt k) ≠ pageBase (.tckG k) := by simp only [pageBase]; omega

section
variable {s : State} {k : Nat} (hk : k < 8) (hused : slotUsed s k = true) (hticks : ticking s k = true) (hrole : roleNo s k ≠ 2)
  (hall : missing s k = []) (hentry : entryOver s k = false) (hopen : (getTick s k).bounded = false) (extra : Nat)
include hk hused hticks hrole hall hentry hopen

theorem execTickMarkerEmit_cases : execTickMarkerEmit k extra s =
    if windowOver s k = true then
      if stopPending s k = true then s
      else if ckPhase s k = 1 ∨ ckPhase s k = 2 ∨ swapWaits s k = true then windowBoundary (stretched s k extra) k
      else emitMarker (entryTick (windowBoundary (stretched s k extra) k) k) k 0 false
    else emitMarker (entryTick (stretched s k extra) k) k (rd s (.tckG k) tck_WINDOW_TICK + 1) false := by
  have hsame := sameSegment_stretched s k extra
  have hstop : stopPending (stretched s k extra) k = stopPending s k := by
    rw [stopPending, stopPending, rd_stretched_page _ _ _ (by decide) (by decide)]
  have hck : ckPhase (stretched s k extra) k = ckPhase s k := by
    rw [ckPhase, ckPhase, rd_stretched_ne _ _ _ (by simp only [pageBase, ckp_STATE, tck_STRETCH_TOTAL]; omega)
      (by simp only [pageBase, ckp_STATE, tck_STRETCH_MAX]; omega)]
  have hswap : swapWaits (stretched s k extra) k = swapWaits s k := by
    have hcmds : (stretched s k extra).cmds = s.cmds := by unfold stretched; split <;> rfl
    unfold swapWaits busy
    rw [diesOf_of_layout hsame.layout, hcmds]
  have hguard : (!slotUsed s k || !ticking s k || roleNo s k == 2 || !(missing s k).isEmpty || entryOver s k) = false := by
    simp [hused, hticks, hrole, hall, hentry]
  unfold execTickMarkerEmit
  rw [hguard, if_neg Bool.false_ne_true]
  show (if (windowOver (stretched s k extra) k || (getTick (stretched s k extra) k).bounded) = true then
      if stopPending (stretched s k extra) k = true then s
      else if (ckPhase (windowBoundary (stretched s k extra) k) k == 1 || ckPhase (windowBoundary (stretched s k extra) k) k == 2 ||
          swapWaits (windowBoundary (stretched s k extra) k) k) = true then windowBoundary (stretched s k extra) k
        else emitMarker (entryTick (windowBoundary (stretched s k extra) k) k) k 0 false
    else emitMarker (entryTick (stretched s k extra) k) k (rd (stretched s k extra) (.tckG k) tck_WINDOW_TICK + 1) false) = _
  rw [ckPhase_windowBoundary hk, swapWaits_windowBoundary hk, hck, hswap, hstop, hsame.windowOver, hsame.tick, hopen, Bool.or_false,
    rd_stretched_page _ _ _ (by decide) (by decide)]
  simp only [Bool.or_eq_true, beq_iff_eq, or_assoc]

/-- Within a window (R130). -/
theorem tickMarkerEmit_within (hover : windowOver s k = false) : let t := execTickMarkerEmit k extra s
    tickNo t k = (tickNo s k + 1) % 2 ^ 64 ∧ rd t (.tckG k) tck_WINDOW_TICK = (rd s (.tckG k) tck_WINDOW_TICK + 1) % 2 ^ 32 ∧
      (getTick t k).dones = [] ∧ (phase t k = 3 ∨ phase t k = 4) ∧ rd t (.tckG k) tck_WINDOW_COUNT = rd s (.tckG k) tck_WINDOW_COUNT := by
  intro t
  have ht : t = emitMarker (entryTick (stretched s k extra) k) k (rd s (.tckG k) tck_WINDOW_TICK + 1) false :=
    (execTickMarkerEmit_cases hk hused hticks hrole hall hentry hopen extra).trans (if_neg (by simp [hover]))
  have hreads : ∀ o < 0x1000, o ≠ tck_STRETCH_TOTAL → o ≠ tck_STRETCH_MAX →
      rd (entryTick (stretched s k extra) k) (.tckG k) o = rd s (.tckG k) o := fun o ho h1 h2 =>
    ((keepsPage_entryTick (tmt_ne_tckG k) _).reads o ho).trans (rd_stretched_page _ _ _ h1 h2)
  rw [ht]
  refine ⟨?_, rd_emitMarker_tick _ _ _ hk, dones_emitMarker _ _ _ hk, ?_, ?_⟩
  · rw [tickNo_emitMarker _ _ _ hk, if_neg Bool.false_ne_true,
      tickNo_congr (hreads _ (by decide) (by decide) (by decide)) (hreads _ (by decide) (by decide) (by decide))]
  · rw [phase_emitMarker _ _ _ hk]
    split
    · exact .inl rfl
    · exact .inr rfl
  · rw [rd_emitMarker_ne _ _ _ hk (by decide) (by decide), hreads _ (by decide) (by decide) (by decide)]

/-- At a window boundary that nothing holds (R144). -/
theorem tickMarkerEmit_boundary (hover : windowOver s k = true) (hstop : stopPending s k = false) (h1 : ckPhase s k ≠ 1)
    (h2 : ckPhase s k ≠ 2) (hswap : swapWaits s k = false) : let t := execTickMarkerEmit k extra s
    tickNo t k = (tickNo s k + 1) % 2 ^ 64 ∧ rd t (.tckG k) tck_WINDOW_TICK = 0 ∧ (getTick t k).dones = [] ∧
      rd t (.tckG k) tck_WINDOW_COUNT = min (rd s (.tckG k) tck_WINDOW_COUNT + 1) 0xFFFFFFFF := by
  intro t
  have ht : t = emitMarker (entryTick (windowBoundary (stretched s k extra) k) k) k 0 false := by
    refine (execTickMarkerEmit_cases hk hused hticks hrole hall hentry hopen extra).trans ?_
    rw [if_pos hover, if_neg (by simp [hstop]), if_neg (by simp [h1, h2, hswap])]
  have hopen' : (getTick (stretched s k extra) k).bounded = false := by
    rw [getTick_of_slots (slots_stretched ..), hopen]
  have hentries : ∀ o < 0x1000, rd (entryTick (windowBoundary (stretched s k extra) k) k) (.tckG k) o =
      rd (windowBoundary (stretched s k extra) k) (.tckG k) o := (keepsPage_entryTick (tmt_ne_tckG k) _).reads
  have hreads : ∀ o < 0x1000, o ≠ tck_WINDOW_COUNT → o ≠ hEVT → o ≠ tck_STRETCH_TOTAL → o ≠ tck_STRETCH_MAX →
      rd (entryTick (windowBoundary (stretched s k extra) k) k) (.tckG k) o = rd s (.tckG k) o := fun o ho hn he h1 h2 =>
    (hentries o ho).trans ((rd_windowBoundary_ne hk ho hn he).trans (rd_stretched_page _ _ _ h1 h2))
  rw [ht]
  refine ⟨?_, rd_emitMarker_tick _ _ _ hk, dones_emitMarker _ _ _ hk, ?_⟩
  · rw [tickNo_emitMarker _ _ _ hk, if_neg Bool.false_ne_true,
      tickNo_congr (hreads _ (by decide) (by decide) (by decide) (by decide) (by decide))
        (hreads _ (by decide) (by decide) (by decide) (by decide) (by decide))]
  · rw [rd_emitMarker_ne _ _ _ hk (by decide) (by decide), hentries _ (by decide), rd_windowBoundary_count hk hopen',
      rd_stretched_page _ _ _ (by decide) (by decide)]

/-- With a STOP pending the boundary belongs to STOP_COMPLETE (R147). -/
theorem tickMarkerEmit_stops (hover : windowOver s k = true) (hstop : stopPending s k = true) : execTickMarkerEmit k extra s = s := by
  refine (execTickMarkerEmit_cases hk hused hticks hrole hall hentry hopen extra).trans ?_
  rw [if_pos hover, if_pos hstop]

end

/-! ## A follower's marker (R134) -/

/-- The window tick that a marker names to a follower; an ARMED one begins its window. -/
def relayTick (s : State) (k value : Nat) : Nat := if phase s k = 2 then 0 else markerTick s k value

/-- A follower that has taken a marker of a sample, before it passes it on. -/
def relayed (s : State) (k kn sample : Nat) (inj : Bool) : State :=
  let s := boundaryTo s k kn inj
  wr (wr s (.tckG k) tck_TICK_LO sample) (.tckG k) tck_TICK_HI
    ((rd s (.tckG k) tck_TICK_HI + b2n (decide (sample < tickLo s k))) % 2 ^ 32)

theorem relayed_reads (s : State) (k kn sample : Nat) (inj : Bool) : let t := relayed s k kn sample inj
    rd t (.tckG k) tck_WINDOW_TICK = kn % 2 ^ 32 ∧ rd t (.tckG k) tck_TICK_LO = sample % 2 ^ 32 ∧
      phase t k = (if inj then 3 else 4) ∧ (getTick t k).count = .known 0 := by
  have hreads : ∀ o, o ≠ tck_TICK_LO → o ≠ tck_TICK_HI →
      rd (relayed s k kn sample inj) (.tckG k) o = rd (boundaryTo s k kn inj) (.tckG k) o := fun o hl hh => by
    rw [relayed, rd_wr_ne _ _ (offset_ne hh), rd_wr_ne _ _ (offset_ne hl)]
  refine ⟨?_, ?_, ?_, count_boundaryTo s k kn inj⟩
  · rw [hreads _ (by decide) (by decide), rd_boundaryTo_tick]
  · rw [relayed, rd_wr_ne _ _ (offset_ne (by decide)), rd_wr]
  · rw [phase_congr (hreads _ (by decide) (by decide)), phase_boundaryTo]

section
variable {s : State} {n k : Nat} {x : Flight} (h : ForGenerator s n 0 k x) (hrole : roleNo s k = 2)
  (hphase : phase s k = 2 ∨ phase s k = 3 ∨ phase s k = 4)
include h hrole hphase

/-- What a follower does with a marker of its epoch. -/
theorem execMarkerRelay_eq : execMarkerRelay n s =
    let kn := relayTick s k x.tok.value
    let u := if kn = 0 ∧ phase s k ≠ 2 then windowBoundary (netTake s n) k else netTake s n
    let t := relayed u k kn x.tok.sample (x.tok.value.testBit 20)
    if kn = 0 ∧ (ckPhase s k = 1 ∨ ckPhase s k = 2) then s
    else each (diesOf t k) (fun d v => netSend v
      (tickToken v k 0 (genEnd k (moduleNo t)) (here v d 0x16B) x.tok.sample x.tok.value) .nobody k) t := by
  have hslot := h.slot
  have hcore : x.tok.dest.core - 0x168 = k := by rw [h.core]; omega
  have hplace : ¬ (x.tok.dest.die ≠ 8 ∨ x.tok.dest.core < 0x168 ∨ 0x170 ≤ x.tok.dest.core) := by
    rw [h.hub, h.core]; omega
  have hdie : ¬ (x.tok.dest.die < 8 ∧ x.tok.dest.core ≠ 0x16B) := by rw [h.hub]; omega
  have hkind : ¬ (x.tok.kind ≠ 4 ∨ x.tok.tag ≠ 0) := by rw [h.kind, h.tag]; omega
  have hepoch : ¬ x.tok.epoch ≠ epochOf (netTake s n) k := not_not_intro h.epoch
  have hrun : ¬ (decide (roleNo (netTake s n) k ≠ 2) || !(phase (netTake s n) k == 2 || phase (netTake s n) k == 3 ||
      phase (netTake s n) k == 4)) = true := by
    have hr : roleNo (netTake s n) k = 2 := hrole
    have hp : phase (netTake s n) k = phase s k := rfl
    rcases hphase with e | e | e <;> simp [hr, hp, e]
  have hkn : (if (phase s k == 2) = true then 0 else markerTick s k x.tok.value) = relayTick s k x.tok.value := by
    simp [relayTick]
  have hck : ckPhase (netTake s n) k = ckPhase s k := rfl
  have hnew : (decide (relayTick s k x.tok.value = 0) && !phase s k == 2) = decide (relayTick s k x.tok.value = 0 ∧ phase s k ≠ 2) := by
    rw [Bool.eq_iff_iff]; simp
  have hwaits : (decide (relayTick s k x.tok.value = 0) && (ckPhase s k == 1 || ckPhase s k == 2)) =
      decide (relayTick s k x.tok.value = 0 ∧ (ckPhase s k = 1 ∨ ckPhase s k = 2)) := by
    rw [Bool.eq_iff_iff]; simp
  unfold execMarkerRelay
  simp only [h.next, if_neg hkind, if_neg hdie, if_neg hplace, hcore, if_neg hepoch, if_neg hrun, hkn, hck, hnew, hwaits,
    decide_eq_true_eq, relayed]

/-- A marker of a new window waits while the follower's own checkpoint holds it (R341). -/
theorem execMarkerRelay_waits (hkn : relayTick s k x.tok.value = 0) (hck : ckPhase s k = 1 ∨ ckPhase s k = 2) :
    execMarkerRelay n s = s := by
  rw [execMarkerRelay_eq h hrole hphase, if_pos ⟨hkn, hck⟩]

/-- Any other marker is taken, and sent on to the receivers. -/
theorem execMarkerRelay_takes (hgo : relayTick s k x.tok.value ≠ 0 ∨ ckPhase s k ≠ 1 ∧ ckPhase s k ≠ 2) :
    ∃ u, Sent (relayed u k (relayTick s k x.tok.value) x.tok.sample (x.tok.value.testBit 20)) (execMarkerRelay n s) := by
  rw [execMarkerRelay_eq h hrole hphase, if_neg (by omega)]
  exact ⟨_, sent_each _ (fun _ _ => sent_netSend _ _ _ _ h.slot) _ _⟩

theorem markerRelay_reads (hgo : relayTick s k x.tok.value ≠ 0 ∨ ckPhase s k ≠ 1 ∧ ckPhase s k ≠ 2) :
    let t := execMarkerRelay n s
    rd t (.tckG k) tck_WINDOW_TICK = relayTick s k x.tok.value % 2 ^ 32 ∧ rd t (.tckG k) tck_TICK_LO = x.tok.sample % 2 ^ 32 ∧
      phase t k = (if x.tok.value.testBit 20 then 3 else 4) ∧ (getTick t k).count = .known 0 := by
  intro t
  obtain ⟨u, hsent⟩ := execMarkerRelay_takes h hrole hphase hgo
  have hreads := (keepsPage_of_sent hsent (beside_tckG h.slot)).reads
  obtain ⟨htick, hlo, hphase, hcount⟩ := relayed_reads u k (relayTick s k x.tok.value) x.tok.sample (x.tok.value.testBit 20)
  exact ⟨(hreads _ (by decide)).trans htick, (hreads _ (by decide)).trans hlo,
    (phase_congr (hreads _ (by decide))).trans hphase, (congrArg TickSt.count (getTick_of_slots hsent.slots k)).trans hcount⟩

end

/-- Settles O24: the leader's marker within a window and at its boundary, the follower's by the marks of the tick it names. -/
theorem markers : Obligations.Markers := by
  unfold Obligations.Markers
  refine ⟨fun s k extra hused hticks hrole hall hentry hopen => ⟨fun hover => ?_, fun hover hstop h1 h2 hswap => ?_, fun hover hstop => ?_⟩,
    fun s n k x h hrole hphase => ⟨fun hgo => ?_, fun hkn hck => ?_⟩⟩
  · exact ⟨_, answer_requeue .., tickMarkerEmit_within k.isLt hused hticks hrole hall hentry hopen extra hover⟩
  · exact ⟨_, answer_requeue .., tickMarkerEmit_boundary k.isLt hused hticks hrole hall hentry hopen extra hover hstop h1 h2 hswap⟩
  · exact congrArg (answer s) (tickMarkerEmit_stops k.isLt hused hticks hrole hall hentry hopen extra hover hstop)
  · exact ⟨_, answer_requeue .., markerRelay_reads h hrole hphase hgo⟩
  · exact congrArg (answer s) (execMarkerRelay_waits h hrole hphase hkn hck)

end Sys2Proof.Proofs
end
section
/-! Proofs about halts of a partition that its tick generator brings about: late ticks and lost markers (R135, R136, R139, R258). -/
namespace Sys2Proof.Proofs
open Sys2Proof.Machine Sys2Proof.Safety Sys2Proof.Laws

/-! ## What a halt shows and leaves (R138, R258) -/

theorem getTick_stopCount (s : State) (k : Nat) (n : Option Nat) : ∃ c, getTick (stopCount s k n) k = { getTick s k with count := c } := by
  unfold stopCount
  rw [getTick, getSlot_setSlot]
  exact ⟨_, rfl⟩

theorem getTick_stopCount_known (s : State) (k n : Nat) :
    getTick (stopCount s k (some n)) k = { getTick s k with count := .known n } := by
  unfold stopCount getTick
  rw [getSlot_setSlot]

theorem rd_stopCount (s : State) (k : Nat) (n : Option Nat) (p : Page) (o : Nat) : rd (stopCount s k n) p o = rd s p o := by
  cases n <;> rfl

theorem phase_stopCount (s : State) (k j : Nat) (n : Option Nat) : phase (stopCount s k n) j = phase s j :=
  phase_congr (rd_stopCount ..)

theorem getTick_ckpArmedEnds (s : State) (k reason : Nat) : getTick (ckpArmedEnds s k reason) k = getTick s k := by
  unfold ckpArmedEnds
  split
  · rw [getTick, getSlot, finishLong_slots, wrFld_slots, wrFld_slots, ← getSlot, getSlot_setSlot, getTick]
  · rfl

theorem getTick_showHalt (s : State) (k cause src : Nat) (res : Bool) (die : Nat) :
    getTick (showHalt s k cause src res die) k = getTick s k := by
  unfold showHalt
  extract_lets s1 s2 s3
  have h2 : getTick s2 k = getTick s k := getTick_of_slots (each_keep State.slots _ (fun _ _ => wrFld_slots ..) _ _) k
  rw [getTick_of_slots (raise_slots ..)]
  split
  · exact (getTick_of_slots (last_slots ..) k).trans ((getTick_ckpArmedEnds ..).trans h2)
  · exact (getTick_ckpArmedEnds ..).trans h2

/-- Of the generator's state a halt stops the count. -/
theorem getTick_haltSlot (s : State) (k cause src : Nat) (res : Bool) (die : Nat) :
    ∃ c, getTick (haltSlot s k cause src res die) k = { getTick s k with count := c } := by
  unfold haltSlot
  split
  · exact ⟨_, rfl⟩
  · rw [getTick_showHalt]
    split
    · exact getTick_stopCount s k none
    · exact ⟨_, rfl⟩

/-- Of the generator's page a halt writes PHASE alone. -/
theorem rd_haltSlot_page (s : State) {k : Nat} (hk : k < 8) (cause src : Nat) (res : Bool) (die : Nat) {o : Nat} (ho : o < 0x1000)
    (hp : o ≠ tck_PHASE) :
    rd (haltSlot s k cause src res die) (.tckG k) o = rd s (.tckG k) o := by
  have hshow : ∀ u, rd (showHalt u k cause src res die) (.tckG k) o = rd u (.tckG k) o := by
    intro u
    have htmt : ∀ a < 0x1000, pageBase (.tckG k) + o ≠ pageBase (.tmt k) + a := fun a ha => by
      simp only [pageBase]; omega
    have hended : rd (ckpArmedEnds (pauseDies (setPhase (wr u (.tmt k) tmt_HALT_INFO (cause + 256 * src + 1024 * b2n res + 4096 * die)) k 5)
        k true) k 4) (.tckG k) o = rd u (.tckG k) o := by
      rw [rd_ckpArmedEnds_ne _ _ _ _ _ (fun j => by simp only [pageBase, ckp_SLOT_n_STATE]; omega)
          (by simp only [pageBase, ckp_STATE]; omega),
        rd_pauseDies_ne _ _ _ _ _ (fun d => by simp only [pageBase, dieBase, tck_RX_STATE]; omega), setPhase,
        rd_wrFld_ne _ _ _ _ (offset_ne hp), rd_wr_ne _ _ (htmt _ (by decide))]
    rw [showHalt, rd_raise_ne _ _ (htmt _ (by decide))]
    split
    · rw [last, rd_wrFld_ne _ _ _ _ (htmt _ (by decide)), hended]
    · exact hended
  unfold haltSlot
  split
  · rfl
  · rw [hshow]
    split
    · exact rd_stopCount ..
    · rfl

/-- HALT_INFO names the cause of a resumable halt too. -/
theorem rd_haltSlot_cause (s : State) {k cause die : Nat} (res : Bool) (hc : cause < 256) (h5 : phase s k ≠ 5) :
    rd (haltSlot s k cause 0 res die) (.tmt k) tmt_HALT_INFO % 256 = cause := by
  have hshow : ∀ u, rd (showHalt u k cause 0 res die) (.tmt k) tmt_HALT_INFO % 256 = cause := by
    intro u
    rw [showHalt, rd_raise_ne _ _ (offset_ne (by decide)), if_pos rfl, last, rd_wrFld_ne _ _ _ _ (offset_ne (by decide)),
      rd_ckpArmedEnds_ne _ _ _ _ _ (fun j => by simp only [pageBase, tmt_HALT_INFO, ckp_SLOT_n_STATE]; omega)
        (by simp only [pageBase, tmt_HALT_INFO, ckp_STATE]; omega),
      rd_pauseDies_ne _ _ _ _ _ (fun d => by simp only [pageBase, dieBase, tmt_HALT_INFO, tck_RX_STATE]; omega), setPhase,
      rd_wrFld_ne _ _ _ _ (by simp only [pageBase, tmt_HALT_INFO, tck_PHASE]; omega), rd_wr]
    omega
  rw [haltSlot, if_neg h5]
  exact hshow _

theorem rd_faultBit_set (s : State) (p : Page) : (rd (faultBit s p true) p hSTATUS).testBit 1 = true :=
  testBit_of_fld (rd_wrFld s p hSTATUS 1 1 1 (by decide))

theorem rd_faultBit_ne (s : State) (b : Bool) {p q : Page} {o : Nat} (h : pageBase q + o ≠ pageBase p + hSTATUS) :
    rd (faultBit s p b) q o = rd s q o := rd_wrFld_ne _ _ _ _ h

theorem rd_condition_ne (s : State) (code bits : Nat) {p q : Page} {o : Nat} (hs : pageBase q + o ≠ pageBase p + hSTATUS)
    (he : pageBase q + o ≠ pageBase p + hEVT) : rd (condition s p code bits) q o = rd s q o := by
  rw [condition, rd_raise_ne _ _ he, last, rd_wrFld_ne _ _ _ _ hs]

theorem rd_condition_evt (s : State) (p : Page) (code bits : Nat) :
    rd (condition s p code bits) p hEVT = (rd s p hEVT ||| (bits &&& evtOf p)) := by
  rw [condition, rd_raise_evt, last, rd_wrFld_ne _ _ _ _ (offset_ne (by decide))]

theorem phase_of_ticking {s : State} {k : Nat} (h : ticking s k = true) : phase s k = 3 ∨ phase s k = 4 := by
  simp only [ticking, Bool.and_eq_true, Bool.or_eq_true, beq_iff_eq] at h
  exact h.1.1

/-! ## The halt of an overrun (R136) -/

theorem overrunHalt_eq (s : State) (k die extra : Nat) : overrunHalt s k die extra =
    stopCount (faultBit (raise (haltSlot (last s (.tckG k) 1) k 1 0 true die) (.tckG k) 2) (.tckG k) true) k
      (some (rd s (.tckG k) tck_TICK_LEN + rd s (.tckG k) tck_EXT_APPLIED + extra)) := rfl

section
variable (s : State) {k : Nat} (hk : k < 8) (die extra : Nat)

include hk in
theorem rd_overrunHalt_page {o : Nat} (ho : o < 0x1000) (hs : o ≠ hSTATUS) (he : o ≠ hEVT) (hp : o ≠ tck_PHASE) :
    rd (overrunHalt s k die extra) (.tckG k) o = rd s (.tckG k) o := by
  rw [overrunHalt_eq, rd_stopCount, rd_faultBit_ne _ _ (offset_ne hs), rd_raise_ne _ _ (offset_ne he), rd_haltSlot_page _ hk _ _ _ _ ho hp,
    last, rd_wrFld_ne _ _ _ _ (offset_ne hs)]

include hk in
theorem rd_overrunHalt_evt : rd (overrunHalt s k die extra) (.tckG k) hEVT = (rd s (.tckG k) hEVT ||| (2 &&& evtOf (.tckG k))) := by
  rw [overrunHalt_eq, rd_stopCount, rd_faultBit_ne _ _ (offset_ne (by decide)), rd_raise_evt,
    rd_haltSlot_page _ hk _ _ _ _ (by decide) (by decide), last, rd_wrFld_ne _ _ _ _ (offset_ne (by decide))]

theorem rd_overrunHalt_fault : (rd (overrunHalt s k die extra) (.tckG k) hSTATUS).testBit 1 = true := by
  rw [overrunHalt_eq, rd_stopCount]
  exact rd_faultBit_set ..

theorem phase_overrunHalt : phase (overrunHalt s k die extra) k = 5 := by
  rw [overrunHalt_eq, phase_stopCount, phase_congr ((rd_faultBit_ne _ _ (offset_ne (by decide))).trans (rd_raise_ne _ _ (offset_ne (by decide)))),
    phase_haltSlot]

theorem rd_overrunHalt_cause (h5 : phase s k ≠ 5) : rd (overrunHalt s k die extra) (.tmt k) tmt_HALT_INFO % 256 = 1 := by
  have hpage : ∀ a < 0x1000, pageBase (.tmt k) + tmt_HALT_INFO ≠ pageBase (.tckG k) + a := fun a ha => by
    simp only [pageBase, tmt_HALT_INFO]; omega
  rw [overrunHalt_eq, rd_stopCount, rd_faultBit_ne _ _ (hpage _ (by decide)), rd_raise_ne _ _ (hpage _ (by decide))]
  refine rd_haltSlot_cause _ true (by decide) ?_
  rwa [last, phase_congr (rd_wrFld_ne _ _ _ _ (offset_ne (by decide)))]

/-- The count keeps where it stopped. -/
theorem count_overrunHalt : (getTick (overrunHalt s k die extra) k).count =
    .known (rd s (.tckG k) tck_TICK_LEN + rd s (.tckG k) tck_EXT_APPLIED + extra) := by
  rw [overrunHalt_eq, getTick_stopCount_known]

theorem overrun_overrunHalt : (getTick (overrunHalt s k die extra) k).overrun = (getTick s k).overrun := by
  obtain ⟨c, h⟩ := getTick_haltSlot (last s (.tckG k) 1) k 1 0 true die
  rw [overrunHalt_eq, getTick_stopCount_known, faultBit, getTick_of_slots (wrFld_slots ..), getTick_of_slots (raise_slots ..), h,
    getTick_of_slots (last_slots ..)]

end

/-! ## A late tick (R135) -/

/-- LATE_DIES: the late dies of this module, and the late ones of the other modules by node position. -/
def lateWord (s : State) (k : Nat) : Nat :=
  sumOf (((missing s k).filter (·.1 == moduleNo s)).map (fun e => 2 ^ e.2)) +
    256 * sumOf ((((missing s k).filter (·.1 != moduleNo s)).map (·.1 % 8)).eraseDups.map (2 ^ ·))

/-- The generator once it has counted a late tick, before its policy. -/
def lateNoted (s : State) (k : Nat) : State :=
  condition (wr (bump (setTick s k { getTick s k with overrun := true }) (.tckG k) tck_OVERRUN_COUNT 1) (.tckG k) tck_LATE_DIES (lateWord s k))
    (.tckG k) 1 1

/-- The receivers of the late dies of this module have counted it too. -/
def lateCounted (s : State) (k : Nat) : State :=
  each ((missing s k).filter (·.1 == moduleNo s)) (fun e s => bump s (.tckR e.2) tck_RX_LATE_COUNT 1) (lateNoted s k)

section
variable (s : State) {k : Nat} (hk : k < 8)
include hk

theorem rd_lateCounted {o : Nat} (ho : o < 0x1000) : rd (lateCounted s k) (.tckG k) o = rd (lateNoted s k) (.tckG k) o :=
  rd_each_ne _ _ _ (fun e t => rd_bump_ne _ _ (by simp only [pageBase, dieBase, tck_RX_LATE_COUNT]; omega)) _ _

theorem rd_lateCounted_ne {o : Nat} (ho : o < 0x1000) (hn : o ≠ tck_OVERRUN_COUNT) (hl : o ≠ tck_LATE_DIES) (hs : o ≠ hSTATUS)
    (he : o ≠ hEVT) : rd (lateCounted s k) (.tckG k) o = rd s (.tckG k) o := by
  rw [rd_lateCounted s hk ho, lateNoted, rd_condition_ne _ _ _ (offset_ne hs) (offset_ne he), rd_wr_ne _ _ (offset_ne hl),
    rd_bump_ne _ _ (offset_ne hn), rd_setTick]

theorem rd_lateCounted_count : rd (lateCounted s k) (.tckG k) tck_OVERRUN_COUNT = min (rd s (.tckG k) tck_OVERRUN_COUNT + 1) 0xFFFFFFFF := by
  rw [rd_lateCounted s hk (by decide), lateNoted, rd_condition_ne _ _ _ (offset_ne (by decide)) (offset_ne (by decide)),
    rd_wr_ne _ _ (offset_ne (by decide)), rd_bump, rd_setTick]

theorem rd_lateCounted_dies (hlt : lateWord s k < 2 ^ 32) : rd (lateCounted s k) (.tckG k) tck_LATE_DIES = lateWord s k := by
  rw [rd_lateCounted s hk (by decide), lateNoted, rd_condition_ne _ _ _ (offset_ne (by decide)) (offset_ne (by decide)), rd_wr,
    Nat.mod_eq_of_lt hlt]

theorem rd_lateCounted_evt : (rd (lateCounted s k) (.tckG k) hEVT).testBit 0 = true := by
  rw [rd_lateCounted s hk (by decide), lateNoted, rd_condition_evt, Nat.testBit_or]
  simp [evtOf]

omit hk in
theorem getTick_lateCounted : getTick (lateCounted s k) k = { getTick s k with overrun := true } := by
  have hslots : (lateCounted s k).slots = (lateNoted s k).slots := each_keep State.slots _ (fun _ _ => bump_slots ..) _ _
  rw [getTick_of_slots hslots, lateNoted, getTick_of_slots (condition_slots ..), getTick_of_slots (wr_slots ..),
    getTick_of_slots (bump_slots ..), getTick_setTick]

end

/-! ### LATE_DIES holds its word: at most 9 modules, of at most 8 dies each -/

theorem sumOf_le {l : List Nat} {n : Nat} (h : ∀ x ∈ l, x ≤ n) : sumOf l ≤ l.length * n := by
  rw [sumOf, ← List.sum_eq_foldl]
  exact List.sum_le_card_nsmul l n h

theorem length_eraseDups_le (l : List Nat) : l.eraseDups.length ≤ l.length := by
  induction hn : l.length using Nat.strong_induction_on generalizing l with
  | _ n ih =>
    cases l with
    | nil => simp
    | cons a l =>
      have hf := List.length_filter_le (fun b => !b == a) l
      rw [List.length_cons] at hn
      have := ih _ (by omega) (l.filter fun b => !b == a) rfl
      rw [List.eraseDups_cons, List.length_cons]
      omega

theorem mem_diesOf_lt {s : State} {k d : Nat} (h : d ∈ diesOf s k) : d < 8 := by
  unfold diesOf at h
  split at h
  next hused =>
    obtain ⟨i, hi, rfl⟩ := List.mem_map.mp h
    have hi := List.mem_range.mp hi
    have hk : k < layoutN s := of_decide_eq_true hused
    have hle : (k + 1) * diesPer s ≤ 8 := (Nat.mul_le_mul_right _ hk).trans (Nat.mul_div_le 8 (layoutN s))
    rw [Nat.add_mul] at hle
    omega
  next => cases h

theorem length_diesOf_le (s : State) (k : Nat) : (diesOf s k).length ≤ 8 := by
  unfold diesOf
  split
  · rw [List.length_map, List.length_range]
    exact Nat.div_le_self ..
  · exact Nat.zero_le _

theorem length_followers_le (s : State) (k : Nat) : (followers s k).length ≤ 8 := by
  unfold followers peerModules
  split
  · exact Nat.zero_le _
  · rw [List.length_map]
    exact List.length_filter_le ..

theorem length_missing_le (s : State) (k : Nat) : (missing s k).length ≤ 72 := by
  have hlen : (segmentDies s k).length = ((followers s k).length + 1) * (diesOf s k).length := by
    simp [segmentDies, List.length_flatMap, Nat.add_mul, Nat.add_comm]
  have := Nat.mul_le_mul (Nat.add_le_add_right (length_followers_le s k) 1) (length_diesOf_le s k)
  have := List.length_filter_le (fun e => !(getTick s k).dones.any (fun x => x.mod == e.1 && x.die == e.2)) (segmentDies s k)
  unfold missing
  omega

theorem missing_die_lt {s : State} {k : Nat} {e : Nat × Nat} (h : e ∈ missing s k) : e.2 < 8 := by
  obtain ⟨m, -, hm⟩ := List.mem_flatMap.mp (List.mem_filter.mp h).1
  obtain ⟨d, hd, rfl⟩ := List.mem_map.mp hm
  exact mem_diesOf_lt hd

theorem lateWord_lt (s : State) (k : Nat) : lateWord s k < 2 ^ 32 := by
  have hpow : ∀ {i : Nat}, i < 8 → 2 ^ i ≤ 128 := fun hi => Nat.pow_le_pow_right (n := 2) (by decide) (Nat.le_of_lt_succ hi)
  have hown : sumOf (((missing s k).filter (·.1 == moduleNo s)).map (fun e => 2 ^ e.2)) ≤ 72 * 128 := by
    refine (sumOf_le fun x hx => ?_).trans (Nat.mul_le_mul_right 128 ?_)
    · obtain ⟨e, he, rfl⟩ := List.mem_map.mp hx
      exact hpow (missing_die_lt (List.mem_filter.mp he).1)
    · rw [List.length_map]
      exact (List.length_filter_le ..).trans (length_missing_le s k)
  have hmods : sumOf ((((missing s k).filter (·.1 != moduleNo s)).map (·.1 % 8)).eraseDups.map (2 ^ ·)) ≤ 72 * 128 := by
    refine (sumOf_le fun x hx => ?_).trans (Nat.mul_le_mul_right 128 ?_)
    · obtain ⟨m, hm, rfl⟩ := List.mem_map.mp hx
      obtain ⟨e, -, rfl⟩ := List.mem_map.mp (List.mem_eraseDups.mp hm)
      exact hpow (Nat.mod_lt _ (by decide))
    · rw [List.length_map]
      refine (length_eraseDups_le _).trans ?_
      rw [List.length_map]
      exact (List.length_filter_le ..).trans (length_missing_le s k)
  unfold lateWord
  omega

/-! ### The commands -/

section
variable {s : State} {k : Nat} (hk : k < 8) (hused : slotUsed s k = true) (hticks : ticking s k = true) (hrole : roleNo s k ≠ 2)
  (hlate : missing s k ≠ [])

/-- A tick that is late already is counted once. -/
theorem execTickOverrun_again (h : (getTick s k).overrun = true) : execTickOverrun k s = s := by
  unfold execTickOverrun
  simp [h]

include hk hused hticks hrole hlate

theorem execTickOverrun_eq (h : (getTick s k).overrun = false) : execTickOverrun k s =
    if policyFault s k = true ∨ rd s (.tckG k) tck_STRETCH_LIMIT = 0
    then overrunHalt (lateCounted s k) k (lateDie (lateCounted s k) k) 0 else lateCounted s k := by
  have hguard : (!slotUsed s k || !ticking s k || roleNo s k == 2 || (missing s k).isEmpty || (getTick s k).overrun) = false := by
    simp [hused, hticks, hrole, hlate, h]
  have hmod : moduleNo (bump (setTick s k { getTick s k with overrun := true }) (.tckG k) tck_OVERRUN_COUNT 1) = moduleNo s := by
    rw [moduleNo, rd_bump_ne _ _ (by simp only [pageBase, fld_MODULE, tck_OVERRUN_COUNT]; omega), rd_setTick, moduleNo]
  have hpolicy : policyFault (lateCounted s k) k = policyFault s k := by
    rw [policyFault, policyFault, rd_lateCounted_ne s hk (by decide) (by decide) (by decide) (by decide) (by decide)]
  have hlimit : rd (lateCounted s k) (.tckG k) tck_STRETCH_LIMIT = rd s (.tckG k) tck_STRETCH_LIMIT :=
    rd_lateCounted_ne s hk (by decide) (by decide) (by decide) (by decide) (by decide)
  have hcounted : execTickOverrun k s = if (policyFault (lateCounted s k) k || rd (lateCounted s k) (.tckG k) tck_STRETCH_LIMIT == 0) = true
      then overrunHalt (lateCounted s k) k (lateDie (lateCounted s k) k) 0 else lateCounted s k := by
    unfold execTickOverrun
    simp only [hguard, if_neg Bool.false_ne_true, hmod]
    rfl
  rw [hcounted, hpolicy, hlimit]
  simp only [Bool.or_eq_true, beq_iff_eq]

/-- TICK_OVERRUN by its policy (R136). -/
theorem tickOverrun_counts (h : (getTick s k).overrun = false) : let t := execTickOverrun k s
    (getTick t k).overrun = true ∧ rd t (.tckG k) tck_OVERRUN_COUNT = min (rd s (.tckG k) tck_OVERRUN_COUNT + 1) 0xFFFFFFFF ∧
      (rd t (.tckG k) hEVT).testBit 0 = true ∧ rd t (.tckG k) tck_LATE_DIES = lateWord s k ∧
      if policyFault s k = true ∨ rd s (.tckG k) tck_STRETCH_LIMIT = 0
      then phase t k = 5 ∧ rd t (.tmt k) tmt_HALT_INFO % 256 = 1 ∧ (rd t (.tckG k) hSTATUS).testBit 1 = true ∧
        (getTick t k).count = .known (rd s (.tckG k) tck_TICK_LEN + rd s (.tckG k) tck_EXT_APPLIED)
      else phase t k = phase s k ∧ (getTick t k).count = (getTick s k).count := by
  intro t
  have ht : t = _ := execTickOverrun_eq hk hused hticks hrole hlate h
  have hphase : phase (lateCounted s k) k = phase s k :=
    phase_congr (rd_lateCounted_ne s hk (by decide) (by decide) (by decide) (by decide) (by decide))
  have h5 : phase (lateCounted s k) k ≠ 5 := by rcases phase_of_ticking hticks with e | e <;> omega
  by_cases hpolicy : policyFault s k = true ∨ rd s (.tckG k) tck_STRETCH_LIMIT = 0
  · rw [if_pos hpolicy] at ht ⊢
    rw [ht]
    refine ⟨?_, ?_, ?_, ?_, phase_overrunHalt .., rd_overrunHalt_cause _ _ _ h5, rd_overrunHalt_fault .., ?_⟩
    · rw [overrun_overrunHalt, getTick_lateCounted]
    · rw [rd_overrunHalt_page _ hk _ _ (by decide) (by decide) (by decide) (by decide), rd_lateCounted_count s hk]
    · rw [rd_overrunHalt_evt _ hk, Nat.testBit_or, rd_lateCounted_evt s hk, Bool.true_or]
    · rw [rd_overrunHalt_page _ hk _ _ (by decide) (by decide) (by decide) (by decide), rd_lateCounted_dies s hk (lateWord_lt s k)]
    · rw [count_overrunHalt, rd_lateCounted_ne s hk (by decide) (by decide) (by decide) (by decide) (by decide),
        rd_lateCounted_ne s hk (by decide) (by decide) (by decide) (by decide) (by decide), Nat.add_zero]
  · rw [if_neg hpolicy] at ht ⊢
    rw [ht, getTick_lateCounted]
    exact ⟨rfl, rd_lateCounted_count s hk, rd_lateCounted_evt s hk, rd_lateCounted_dies s hk (lateWord_lt s k), hphase, rfl⟩

/-- STRETCH_LIMIT_EXPIRY ends the extra wait of a stretched tick (R136). -/
theorem stretchLimitExpiry_halts (hover : (getTick s k).overrun = true) (hlimit : (getTick s k).noLimit = false) :
    let t := execStretchLimitExpiry k s
    phase t k = 5 ∧ rd t (.tmt k) tmt_HALT_INFO % 256 = 1 ∧ (rd t (.tckG k) hSTATUS).testBit 1 = true ∧
      (getTick t k).count = .known (rd s (.tckG k) tck_TICK_LEN + rd s (.tckG k) tck_EXT_APPLIED + rd s (.tckG k) tck_STRETCH_LIMIT) ∧
      rd t (.tckG k) tck_STRETCH_TOTAL = min (rd s (.tckG k) tck_STRETCH_TOTAL + rd s (.tckG k) tck_STRETCH_LIMIT) 0xFFFFFFFF := by
  intro t
  let u := wrMax (bump s (.tckG k) tck_STRETCH_TOTAL (rd s (.tckG k) tck_STRETCH_LIMIT)) (.tckG k) tck_STRETCH_MAX
    (rd s (.tckG k) tck_STRETCH_LIMIT)
  have ht : t = overrunHalt u k (lateDie u k) (rd s (.tckG k) tck_STRETCH_LIMIT) :=
    if_pos (by simp [hused, hticks, hrole, hlate, hover, hlimit])
  have hread : ∀ o, o ≠ tck_STRETCH_TOTAL → o ≠ tck_STRETCH_MAX → rd u (.tckG k) o = rd s (.tckG k) o := fun o h1 h2 =>
    (rd_wr_ne _ _ (offset_ne h2)).trans (rd_bump_ne _ _ (offset_ne h1))
  have h5 : phase u k ≠ 5 := by
    rw [phase_congr (hread _ (by decide) (by decide))]
    rcases phase_of_ticking hticks with e | e <;> omega
  rw [ht]
  refine ⟨phase_overrunHalt .., rd_overrunHalt_cause _ _ _ h5, rd_overrunHalt_fault .., ?_, ?_⟩
  · rw [count_overrunHalt, hread _ (by decide) (by decide), hread _ (by decide) (by decide)]
  · rw [rd_overrunHalt_page _ hk _ _ (by decide) (by decide) (by decide) (by decide)]
    exact (rd_wr_ne _ _ (offset_ne (by decide))).trans (rd_bump ..)

end

/-- Settles O26: a late tick is counted before its policy, which halts the partition or waits on. -/
theorem overrunPolicies : Obligations.OverrunPolicies := by
  unfold Obligations.OverrunPolicies
  refine fun s k hused hticks hrole hlate => ⟨fun h => ?_, fun hover hlimit =>
    ⟨_, answer_requeue .., stretchLimitExpiry_halts k.isLt hused hticks hrole hlate hover hlimit⟩⟩
  obtain ⟨hover, hcount, hevt, hdies, hpolicy⟩ := tickOverrun_counts k.isLt hused hticks hrole hlate h
  have hagain : execTickOverrun k (requeue s (execTickOverrun k s)) = requeue s (execTickOverrun k s) := execTickOverrun_again hover
  exact ⟨requeue s (execTickOverrun k s), answer_requeue .., hover, hcount, hevt, hdies, hpolicy,
    (congrArg (answer _) hagain).trans (answer_self _)⟩

end Sys2Proof.Proofs
end
section
/-! Proofs about lost markers, and about the tokens of the members at the leader (R138, R139, R150, R319). -/
namespace Sys2Proof.Proofs
open Sys2Proof.Machine Sys2Proof.Safety Sys2Proof.Laws

/-! ## What the loss of a peer leaves (R319): the partition's control stays as its halt has left it -/

theorem guarded_clv {k o : Nat} (hk : k < 8) (ho : o < 0x1000) : guarded (pageBase (.clv k) + o) = false :=
  decide_eq_false (by simp only [pageBase]; omega)

@[simp] theorem held_expand (s : State) (k d vpn : Nat) : heldFst (expand s k d vpn) = held s := by
  unfold expand
  extract_lets e own r
  have hr : heldSnd r = held s := by
    unfold r
    split
    next a t h =>
      have ht : held t = held s := by simpa using (congrArg heldSnd h).symm
      simpa using ht
    next t h =>
      have ht : held t = held s := by simpa using (congrArg heldSnd h).symm
      split
      · simpa using ht
      · simpa using ht
  clear_value r
  rcases r with ⟨_ | a, t⟩
  · simpa using hr
  · simpa [besideCtrl, pgt_EXPAND_COUNT, hCTRL] using hr

@[simp] theorem held_partWrite (s : State) (k d vpn off : Nat) (bs : List Byte) (bad : List Nat) :
    held (partWrite s k d vpn off bs bad) = held s := by
  unfold partWrite
  extract_lets r t e
  have hr : heldFst r = held s := by
    unfold r
    split
    · exact held_expand ..
    · exact heldFst_pair ..
  simp [t, hr]

@[simp] theorem held_opRead (s : State) (k va : Nat) : heldFst (opRead s k va) = held s := by simp [opRead]

@[simp] theorem held_opWrite (s : State) (k va posts run state : Nat) (pending : Bool) :
    held (opWrite s k va posts run state pending) = held s := held_vaWriteBy (fun v o b l s => by simp) ..

section
variable {k : Nat} (hk : k < 8)
include hk

theorem held_wr_clv (s : State) {o : Nat} (ho : o < 0x1000) (v : Nat) : held (wr s (.clv k) o v) = held s :=
  held_wr_of (guarded_clv hk ho) v

theorem held_condition_clv (s : State) (code bits : Nat) : held (condition s (.clv k) code bits) = held s := by
  obtain ⟨ms, fs, e⟩ := raise_eq (last s (.clv k) code) (.clv k) bits
  rw [condition, e]
  exact (held_of_regs rfl rfl).trans ((held_wr_clv hk _ (by decide) _).trans (held_wr_clv hk _ (by decide) _))

theorem held_abortRun (m : Nat) (r : CollRun) (s : State) : held (abortRun k m r s) = held s := by
  unfold abortRun
  extract_lets s1 s2
  have h1 : held s1 = held s := (held_wr_clv hk _ (by decide) _).trans (held_setSlot ..)
  have h2 : held s2 = held s1 := by
    unfold s2
    split
    · exact (held_opWrite ..).trans ((held_fst _).trans (held_opRead ..))
    · rfl
  rw [held_condition_clv hk, held_wr_clv hk _ (by decide), h2, h1]

theorem held_breakGroup (m : Nat) (e : Nat × List Byte) (s : State) : held (breakGroup k m e s) = held s := by
  unfold breakGroup
  extract_lets b0 t
  split
  · exact (held_each (fun r t => held_abortRun hk m r t) _ _).trans (held_setSlot ..)
  · rfl

/-- On a partition that is halted already the loss of a peer leaves its control as it is. -/
theorem held_collPeerLost {s : State} (h5 : phase s k = 5) (m : Nat) : held (collPeerLost s k m) = held s := by
  unfold collPeerLost
  extract_lets hit t
  have ht : held t = held s := held_each (fun e t => held_breakGroup hk m e t) _ _
  have hhalt : haltSlot t k 0x0F 0 false 0 = t := if_pos ((phase_of_held ht hk).trans h5)
  rw [hhalt, ite_self, ht]

end

/-! ## MARKER_MISSED (R139) -/

/-- A follower that lost its leader: halted for PEER_LOST, with STATUS.FAULT. -/
def orphaned (s : State) (k : Nat) : State :=
  faultBit (haltSlot (condition s (.tckG k) 0x0F 0x12) k 0x0F 0 false 0) (.tckG k) true

theorem orphaned_reads {s : State} {k : Nat} (h5 : phase s k ≠ 5) : phase (orphaned s k) k = 5 ∧
    rd (orphaned s k) (.tmt k) tmt_HALT_INFO % 256 = 0x0F ∧ (rd (orphaned s k) (.tckG k) hSTATUS).testBit 1 = true := by
  refine ⟨?_, ?_, rd_faultBit_set ..⟩
  · rw [orphaned, phase_congr (rd_faultBit_ne _ _ (offset_ne (by decide))), phase_haltSlot]
  · rw [orphaned, rd_faultBit_ne _ _ (by simp only [pageBase, tmt_HALT_INFO, hSTATUS]; omega)]
    refine rd_haltSlot_info _ (by decide) ?_
    rwa [phase_congr (rd_condition_ne _ _ _ (offset_ne (by decide)) (offset_ne (by decide)))]

theorem markerMissed_halts {s : State} {k : Nat} (hk : k < 8) (hused : slotUsed s k = true) (hrole : roleNo s k = 2)
    (hticks : ticking s k = true) : let t := execMarkerMissed k s
    phase t k = 5 ∧ rd t (.tmt k) tmt_HALT_INFO % 256 = 0x0F ∧ (rd t (.tckG k) hSTATUS).testBit 1 = true := by
  intro t
  have ht : t = collPeerLost (orphaned s k) k (leaderModule s k) := if_pos (by simp [hused, hrole, hticks])
  obtain ⟨hphase, hinfo, hfault⟩ := orphaned_reads (s := s) (k := k) (by rcases phase_of_ticking hticks with e | e <;> omega)
  have hheld := held_collPeerLost hk hphase (leaderModule s k)
  rw [ht, phase_of_held hheld hk, held_reads hheld (guarded_tmt (by omega) (by decide)), held_reads hheld (guarded_tckG hk (by decide))]
  exact ⟨hphase, hinfo, hfault⟩

/-! ## Tokens at the leader (R134, R138, R150) -/

/-- A token for the generator of a slot is taken, and does what its tag says. -/
theorem tickAtGen_takes {s : State} {n tag k : Nat} {x : Flight} (h : ForGenerator s n tag k x) (f : Nat → Token → State → State) :
    tickAtGen tag f n s = f k x.tok (netTake s n) := by
  have hslot := h.slot
  have hcore : x.tok.dest.core - 0x168 = k := by rw [h.core]; omega
  have hplace : ¬ (x.tok.dest.die ≠ 8 ∨ x.tok.dest.core < 0x168 ∨ 0x170 ≤ x.tok.dest.core) := by
    rw [h.hub, h.core]; omega
  have hdie : ¬ (x.tok.dest.die < 8 ∧ x.tok.dest.core ≠ 0x16B) := by rw [h.hub]; omega
  have hkind : ¬ (x.tok.kind ≠ 4 ∨ x.tok.tag ≠ tag) := by rw [h.kind, h.tag]; omega
  have hepoch : ¬ x.tok.epoch ≠ epochOf s k := not_not_intro h.epoch
  simp only [tickAtGen, h.next, if_neg hkind, if_neg hdie, if_neg hplace, hcore, if_neg hepoch]

/-! ### The modules that are ARMED stay noted (R150) -/

/-- The follower modules that a generator has noted as ARMED. -/
def armedOf (s : State) (k : Nat) : List Nat := (getTick s k).armed

theorem armedOf_of_slots {s t : State} (h : t.slots = s.slots) (k : Nat) : armedOf t k = armedOf s k := by
  rw [armedOf, getTick_of_slots h, armedOf]

theorem armedOf_setTick (s : State) (k : Nat) (x : TickSt) : armedOf (setTick s k x) k = x.armed := by
  rw [armedOf, getTick_setTick]

theorem armedOf_rewindInjection (s : State) (k : Nat) : armedOf (rewindInjection s k) k = armedOf s k := by
  unfold rewindInjection
  extract_lets t
  split
  · exact armedOf_setTick ..
  · split
    · exact armedOf_setTick ..
    · exact armedOf_setTick ..

theorem armedOf_settleSamples (s : State) (k : Nat) (l : List Nat) : armedOf (settleSamples s k l) k = armedOf s k := by
  unfold settleSamples
  split
  · rfl
  · exact (armedOf_of_slots (each_keep State.slots _ (fun _ _ => setDie_slots ..) _ _) k).trans (armedOf_setTick ..)

theorem armedOf_boundaryTo (s : State) (k kn : Nat) (inj : Bool) : armedOf (boundaryTo s k kn inj) k = armedOf s k := by
  unfold boundaryTo
  extract_lets t s1 s2 s3 s4 s5 s6 s7
  have h1 : armedOf s1 k = armedOf s k := by
    unfold s1
    split
    · exact armedOf_setTick ..
    · rfl
  have h3 : armedOf s3 k = armedOf s k := (armedOf_settleSamples ..).trans ((armedOf_rewindInjection ..).trans h1)
  have h4 : armedOf s4 k = armedOf s3 k := by
    unfold s4
    split
    · exact armedOf_setTick ..
    · rfl
  have h7 : s7.slots = s4.slots := by
    unfold s7
    split
    · exact each_keep State.slots _ (fun _ _ => setDie_slots ..) _ _
    · rfl
  rw [armedOf_setTick, ← armedOf, armedOf_of_slots h7, h4, h3]

theorem armedOf_emitMarker (s : State) {k : Nat} (hk : k < 8) (kn : Nat) (first : Bool) :
    armedOf (emitMarker s k kn first) k = armedOf s k := by
  have hcounted : ∀ u : State, (counted u k first).slots = u.slots := fun u => by cases first <;> rfl
  rw [emitMarker_eq]
  exact (armedOf_of_slots (sent_sendMarkers _ hk _ _).slots k).trans ((armedOf_setTick ..).trans
    ((armedOf_of_slots (hcounted _) k).trans ((armedOf_boundaryTo ..).trans (armedOf_of_slots (slots_extended ..) k))))

theorem armedOf_entryTick (s : State) (k : Nat) : armedOf (entryTick s k) k = armedOf s k := by
  unfold entryTick
  extract_lets x
  split
  · rfl
  · split
    · rw [armedOf, getTick, getSlot_setSlot, armedOf, getTick]
    · exact armedOf_of_slots (wr_slots ..) k

/-! ### The first marker (R150, R341) -/

/-- Whether a generator that is ARMED has none to wait for. -/
def startsNow (s : State) (k : Nat) : Prop := (roleNo s k = 0 ∨ (roleNo s k = 1 ∧ allArmed s k = true)) ∧ ckPhase s k ≠ 2

theorem firstMarker_waits {s : State} {k : Nat} (h : ¬ startsNow s k) : firstMarker s k = s := if_neg h

theorem firstMarker_starts {s : State} {k : Nat} (h : startsNow s k) : firstMarker s k = emitMarker (entryTick s k) k 0 true := if_pos h

/-- The window begins at the tick number that the generator holds. -/
theorem firstMarker_reads {s : State} {k : Nat} (hk : k < 8) (h : startsNow s k) : let t := firstMarker s k
    phase t k = (if 0 < windowLen s k then 3 else 4) ∧ rd t (.tckG k) tck_WINDOW_TICK = 0 ∧ tickNo t k = tickNo s k := by
  intro t
  have hentry := (keepsPage_entryTick (tmt_ne_tckG k) s).reads
  have hlen : windowLen (entryTick s k) k = windowLen s k := hentry _ (by decide)
  have ht : t = _ := firstMarker_starts h
  rw [ht]
  refine ⟨?_, rd_emitMarker_tick _ _ _ hk, ?_⟩
  · rw [phase_emitMarker _ _ _ hk, injects_zero, hlen]
    simp only [decide_eq_true_eq]
  · rw [tickNo_emitMarker _ _ _ hk, if_pos rfl, tickNo_congr (hentry _ (by decide)) (hentry _ (by decide))]

section
variable {s : State} {n k : Nat} {x : Flight}

/-- The leader with a module noted as ARMED. -/
def noteArmed (s : State) (k m : Nat) : State :=
  setTick s k { getTick s k with armed := if (getTick s k).armed.contains m then (getTick s k).armed else (getTick s k).armed ++ [m] }

theorem mem_armedOf_noteArmed (s : State) (k m j : Nat) : j ∈ armedOf (noteArmed s k m) k ↔ j = m ∨ j ∈ (getTick s k).armed := by
  rw [noteArmed, armedOf_setTick]
  split
  next h =>
    rw [List.contains_iff_mem] at h
    exact ⟨.inr, fun hj => hj.elim (fun e => e ▸ h) id⟩
  next => rw [List.mem_append, List.mem_singleton, or_comm]

theorem execArmed_eq (h : ForGenerator s n 2 k x) : execArmed n s =
    if phase s k = 2 ∧ roleNo s k = 1 then firstMarker (noteArmed (netTake s n) k x.tok.src.mod) k
    else noteArmed (netTake s n) k x.tok.src.mod := by
  have hp : phase (noteArmed (netTake s n) k x.tok.src.mod) k = phase s k := rfl
  have hr : roleNo (noteArmed (netTake s n) k x.tok.src.mod) k = roleNo s k := rfl
  refine (tickAtGen_takes h _).trans ?_
  show (if (phase (noteArmed (netTake s n) k x.tok.src.mod) k == 2 && roleNo (noteArmed (netTake s n) k x.tok.src.mod) k == 1) = true
    then _ else _) = _
  rw [hp, hr]
  simp only [Bool.and_eq_true, beq_iff_eq]
  rfl

/-- Every follower is ARMED once the sender is, if it was the last one. -/
theorem allArmed_noteArmed (m : Nat) : allArmed (noteArmed (netTake s n) k m) k = true ↔
    ∀ j ∈ followers s k, j = m ∨ j ∈ (getTick s k).armed := by
  have hf : followers (noteArmed (netTake s n) k m) k = followers s k := rfl
  simp only [allArmed, hf, List.all_eq_true, List.contains_iff_mem]
  exact forall₂_congr fun j _ => mem_armedOf_noteArmed (netTake s n) k m j

theorem execArmed_notes (h : ForGenerator s n 2 k x) : x.tok.src.mod ∈ (getTick (execArmed n s) k).armed := by
  have hnoted : x.tok.src.mod ∈ armedOf (noteArmed (netTake s n) k x.tok.src.mod) k := (mem_armedOf_noteArmed ..).mpr (.inl rfl)
  have hfirst : armedOf (firstMarker (noteArmed (netTake s n) k x.tok.src.mod) k) k = armedOf (noteArmed (netTake s n) k x.tok.src.mod) k := by
    unfold firstMarker
    split
    · rw [armedOf_emitMarker _ h.slot, armedOf_entryTick]
    · rfl
  rw [execArmed_eq h, ← armedOf]
  split
  · rwa [hfirst]
  · exact hnoted

theorem execArmed_starts (h : ForGenerator s n 2 k x) (hphase : phase s k = 2) (hrole : roleNo s k = 1)
    (hall : ∀ m ∈ followers s k, m = x.tok.src.mod ∨ m ∈ (getTick s k).armed) (hck : ckPhase s k ≠ 2) : let t := execArmed n s
    phase t k = (if 0 < windowLen s k then 3 else 4) ∧ rd t (.tckG k) tck_WINDOW_TICK = 0 ∧ tickNo t k = tickNo s k := by
  intro t
  have ht : t = _ := (execArmed_eq h).trans (if_pos ⟨hphase, hrole⟩)
  rw [ht]
  exact firstMarker_reads (s := noteArmed (netTake s n) k x.tok.src.mod) h.slot ⟨.inr ⟨hrole, (allArmed_noteArmed _).mpr hall⟩, hck⟩

theorem execArmed_waits (h : ForGenerator s n 2 k x) (hno : phase s k ≠ 2 ∨ roleNo s k ≠ 1 ∨
    ¬ (∀ m ∈ followers s k, m = x.tok.src.mod ∨ m ∈ (getTick s k).armed) ∨ ckPhase s k = 2) :
    execArmed n s = noteArmed (netTake s n) k x.tok.src.mod := by
  rw [execArmed_eq h]
  split
  next hgo =>
    obtain ⟨hphase, hrole⟩ := hgo
    refine firstMarker_waits fun ⟨harmed, hck⟩ => ?_
    have hr : roleNo (noteArmed (netTake s n) k x.tok.src.mod) k = 1 := hrole
    have hall := (allArmed_noteArmed (s := s) (n := n) x.tok.src.mod).mp (harmed.resolve_left (by omega)).2
    have hck' : ckPhase s k ≠ 2 := hck
    rcases hno with h | h | h | h
    · exact h hphase
    · exact h hrole
    · exact h hall
    · exact hck' h
  next => rfl

end

/-! ### PAUSE and RESUME (R138) -/

/-- The leader with a die noted as paused. -/
def notePaused (s : State) (k : Nat) (e : Nat × Nat) : State :=
  setTick s k { getTick s k with paused := if (getTick s k).paused.contains e then (getTick s k).paused else (getTick s k).paused ++ [e] }

theorem notePaused_spec (s : State) (k : Nat) (e : Nat × Nat) :
    e ∈ (getTick (notePaused s k e) k).paused ∧ ticking (notePaused s k e) k = false := by
  have hmem : e ∈ (getTick (notePaused s k e) k).paused := by
    rw [notePaused, getTick_setTick]
    split
    next h => rwa [List.contains_iff_mem] at h
    next => exact List.mem_append_right _ (List.mem_singleton.mpr rfl)
  refine ⟨hmem, ?_⟩
  have hne : (getTick (notePaused s k e) k).paused.isEmpty = false := by
    rw [List.isEmpty_eq_false_iff]
    exact List.ne_nil_of_mem hmem
  rw [ticking, hne, Bool.and_false, Bool.false_and]

theorem execPause_notes {s : State} {n k : Nat} {x : Flight} (h : ForGenerator s n 3 k x) :
    ∃ u, execPause n s = notePaused u k (x.tok.src.mod, x.tok.src.die) ∧ u.net = ldel s.net n := by
  refine ⟨_, tickAtGen_takes h _, ?_⟩
  split
  · rfl
  · rfl

/-- The leader without a die among the paused ones. -/
def endPause (s : State) (k : Nat) (e : Nat × Nat) : State :=
  setTick s k { getTick s k with paused := (getTick s k).paused.filter (· != e) }

theorem not_mem_endPause (s : State) (k : Nat) (e : Nat × Nat) : e ∉ (getTick (endPause s k e) k).paused := by
  rw [endPause, getTick_setTick]
  simp

theorem execTickResume_eq {s : State} {n k : Nat} {x : Flight} (h : ForGenerator s n 4 k x) :
    execTickResume n s = endPause (netTake s n) k (x.tok.src.mod, x.tok.src.die) := tickAtGen_takes h _

/-- Settles O27: a lost marker by the halt, which the loss of a peer leaves; a token by what it notes at the leader. -/
theorem leaderTokensAndLostMarkers : Obligations.LeaderTokensAndLostMarkers := by
  unfold Obligations.LeaderTokensAndLostMarkers
  refine ⟨fun s k hused hrole hticks => ⟨_, answer_requeue .., markerMissed_halts k.isLt hused hrole hticks⟩, fun s n k x h => ?_,
    fun s n k x h => ?_, fun s n k x h => ?_⟩
  · refine ⟨_, answer_requeue .., execArmed_notes h, execArmed_starts h, fun hno => ?_⟩
    rw [execArmed_waits h hno]
    exact ⟨rfl, rfl, rfl⟩
  · obtain ⟨u, e, hnet⟩ := execPause_notes h
    obtain ⟨hmem, hticks⟩ := notePaused_spec u k (x.tok.src.mod, x.tok.src.die)
    exact ⟨_, congrArg (answer s) e, hmem, hticks, hnet⟩
  · exact ⟨_, congrArg (answer s) (execTickResume_eq h),
      not_mem_endPause (netTake s n) k (x.tok.src.mod, x.tok.src.die), rfl⟩

end Sys2Proof.Proofs
end
section
/-! Proofs about the commands of the tick generator and the completion of a stop (R147, R148, R150, R154). -/
namespace Sys2Proof.Proofs
open Sys2Proof.Machine Sys2Proof.Safety Sys2Proof.Laws

/-! ## The end of a command, and fields of a page of every die -/

section
variable {s : State} {p : Page}

/-- CMD_RESULT of a generator's command without a reason. -/
theorem rd_endCmd_code {code : Nat} (hc : code < 256) (tag : BitVec 16) (b : Nat) :
    rd (endCmd s p code 0 tag.toNat b) p hRESULT = code + 65536 * tag.toNat := by
  have htag := tag.isLt
  rw [rd_endCmd_result, resultWord_eq hc (by decide) tag.isLt]
  omega

theorem rd_endCmd_page (code reason tag b : Nat) {o : Nat} (hr : o ≠ hRESULT) (he : o ≠ hEVT) :
    rd (endCmd s p code reason tag b) p o = rd s p o := rd_endCmd_ne _ _ _ _ _ (offset_ne hr) (offset_ne he)

theorem keepsPage_endCmd {q : Page} (h : pageBase p ≠ pageBase q) (code reason tag b : Nat) :
    KeepsPage q s (endCmd s p code reason tag b) := (KeepsPage.wr h (by decide) s _).trans (.raise h _ _)

end

/-- A field written on the page of every die of a list reads so on the page of each. -/
theorem fld_each_wrFld {page : Nat → Page} {o lo len v d : Nat} (hne : ∀ e, d ≠ e → pageBase (page d) + o ≠ pageBase (page e) + o)
    (hw : lo + len ≤ 32) (l : List Nat) (t : State) (hd : d ∈ l ∨ fld (rd t (page d) o) lo len = v % 2 ^ len) :
    fld (rd (each l (fun e s => wrFld s (page e) o lo len v) t) (page d) o) lo len = v % 2 ^ len := by
  induction l generalizing t with
  | nil => exact hd.resolve_left List.not_mem_nil
  | cons e l ih =>
    rw [each, List.foldl_cons, ← each]
    refine ih _ ?_
    by_cases he : d = e
    · exact .inr (he ▸ rd_wrFld t (page d) o lo len v hw)
    · rw [rd_wrFld_ne _ _ _ _ (hne e he)]
      exact hd.imp_left fun hm => (List.mem_cons.mp hm).resolve_left he

theorem engines_on {s : State} {k d : Nat} (hd : d ∈ diesOf s k) : (rd (enableDies s k true) (.tke d) hCTRL).testBit 0 = true :=
  testBit_of_fld (fld_each_wrFld (page := .tke) (fun e he => by simp only [pageBase, dieBase]; omega) (by decide) _ _ (.inl hd))

theorem keepsPage_enableDies {p : Page} (h : ∀ d, pageBase (.tke d) ≠ pageBase p) (s : State) (k : Nat) (b : Bool) :
    KeepsPage p s (enableDies s k b) := .each (fun d _ t => .wr (h d) (by decide) t _) s

section
variable {k : Nat} (hk : k < 8) (d : Nat)
include hk

theorem tke_ne_tckG : pageBase (.tke d) ≠ pageBase (.tckG k) := by simp only [pageBase, dieBase]; omega

theorem tckR_ne_tckG : pageBase (.tckR d) ≠ pageBase (.tckG k) := by simp only [pageBase, dieBase]; omega

theorem ckp_ne_tke : pageBase (.ckp k) ≠ pageBase (.tke d) := by simp only [pageBase, dieBase]; omega

theorem tmt_ne_tke : pageBase (.tmt k) ≠ pageBase (.tke d) := by simp only [pageBase, dieBase]; omega

end

/-! ## STOP (R147, R154) -/

section
variable {s : State} {fn : Func} {k : Slot} (h : Admitted s fn (.tckG k)) (tag : BitVec 16)
include h

theorem stop_marks (hphase : phase s k = 3 ∨ phase s k = 4) : ∃ t, exec (.stop fn k tag) s = .next t ∧ stopPending t k = true ∧
    phase t k = phase s k ∧ rd t (.tckG k) hRESULT = 65536 * tag.toNat := by
  have hgo : (phase s k == 3 || phase s k == 4) = true := by simpa using hphase
  have e : execStop fn k tag.toNat s = endCmd (wrFld s (.tckG k) tck_PHASE 3 1 1) (.tckG k) 0 0 tag.toNat 0 :=
    by rw [execStop, hostCmd, hostWrite_admitted _ _ _ _ _ h, if_pos hgo]
  have hread : rd (endCmd (wrFld s (.tckG k) tck_PHASE 3 1 1) (.tckG k) 0 0 tag.toNat 0) (.tckG k) tck_PHASE =
      rd (wrFld s (.tckG k) tck_PHASE 3 1 1) (.tckG k) tck_PHASE := rd_endCmd_page _ _ _ _ (by decide) (by decide)
  refine ⟨_, congrArg (answer s) e, ?_, ?_, (rd_endCmd_code (by decide) tag 0).trans (Nat.zero_add _)⟩
  · exact testBit_of_fld ((congrArg (fld · 3 1) hread).trans (rd_wrFld _ _ _ _ _ _ (by decide)))
  · exact (congrArg (fld · 0 3) hread).trans (rd_wrFld_below _ _ _ _ _ _ _ _ (by decide) (by decide))

theorem stop_refused (h3 : phase s k ≠ 3) (h4 : phase s k ≠ 4) :
    ∃ t, exec (.stop fn k tag) s = .next t ∧ rd t (.tckG k) hRESULT = 0x14 + 65536 * tag.toNat := by
  have e : execStop fn k tag.toNat s = endCmd s (.tckG k) 0x14 0 tag.toNat 0 :=
    by rw [execStop, hostCmd, hostWrite_admitted _ _ _ _ _ h, if_neg (by simp [h3, h4])]
  exact ⟨_, congrArg (answer s) e, rd_endCmd_code (by decide) tag 0⟩

end

/-- The generator at the end of the window that a STOP ends. -/
def stoppedPhase (s : State) (k : Nat) : State :=
  wrFld (wrFld (setPhase (stopCount (windowBoundary s k) k none) k 0) (.tckG k) tck_PHASE 3 1 0) (.tckG k) tck_PHASE 4 1 1

/-- The receivers of a stopped generator's dies are in no tick. -/
def receiversIdle (s : State) (l : List Nat) : State := each l (fun d s => wrFld s (.tckR d) tck_RX_STATE 8 1 0) s

theorem stoppedPhase_reads (s : State) (k : Nat) :
    phase (stoppedPhase s k) k = 0 ∧ stopPending (stoppedPhase s k) k = false := by
  have hpending : fld (rd (stoppedPhase s k) (.tckG k) tck_PHASE) 3 1 = 0 := by
    rw [stoppedPhase, rd_wrFld_below _ _ _ _ _ _ _ _ (by decide) (by decide), rd_wrFld _ _ _ _ _ _ (by decide), Nat.zero_mod]
  refine ⟨?_, ?_⟩
  · rw [phase, stoppedPhase, rd_wrFld_below _ _ _ _ _ _ _ _ (by decide) (by decide),
      rd_wrFld_below _ _ _ _ _ _ _ _ (by decide) (by decide), setPhase, rd_wrFld _ _ _ _ _ _ (by decide), Nat.zero_mod]
  · rw [stopPending, Nat.testBit_eq_decide_div_mod_eq, ← Nat.shiftRight_eq_div_pow, decide_eq_false_iff_not]
    exact fun h => absurd (hpending.symm.trans h) (by decide)

theorem layout_stoppedPhase {k : Nat} (hk : k < 8) (s : State) :
    rd (stoppedPhase s k) (.tmt 8) tmt_LAYOUT = rd s (.tmt 8) tmt_LAYOUT := by
  have hne : pageBase (.tckG k) ≠ pageBase (.tmt 8) := by simp only [pageBase]; omega
  have hphase : KeepsPage (.tmt 8) (stopCount (windowBoundary s k) k none) (stoppedPhase s k) :=
    ((KeepsPage.wr hne (by decide) _ _).trans (.wr hne (by decide) _ _)).trans (.wr hne (by decide) _ _)
  rw [hphase.reads _ (by decide), rd_stopCount, (windowBoundary_keeps_layout hk s).reads _ (by decide)]

theorem stopComplete_stops {s : State} {k : Nat} (hk : k < 8) (hused : slotUsed s k = true) (hticks : ticking s k = true)
    (hstop : stopPending s k = true) (hrole : roleNo s k ≠ 2) (hover : windowOver s k = true) (h1 : ckPhase s k ≠ 1) (h2 : ckPhase s k ≠ 2) :
    let t := execStopComplete k s
    phase t k = 0 ∧ stopPending t k = false ∧ (rd t (.tckG k) hEVT).testBit 3 = true ∧
      ∀ d ∈ diesOf s k, (rd t (.tke d) hCTRL).testBit 0 = false := by
  intro t
  let u := enableDies (stoppedPhase s k) k false
  let v := receiversIdle u (diesOf (stoppedPhase s k) k)
  have ht : t = raise v (.tckG k) 8 := by
    have hgo : (slotUsed s k && ticking s k && stopPending s k && (if roleNo s k = 2 then followerEmpty s k else
        windowOver s k || (getTick s k).bounded) && ckPhase s k != 1 && ckPhase s k != 2) = true := by
      simp [hused, hticks, hstop, hrole, hover, h1, h2]
    unfold t execStopComplete
    rw [if_pos hgo]
    rfl
  have hv : KeepsPage (.tckG k) (stoppedPhase s k) v :=
    (keepsPage_enableDies (tke_ne_tckG hk) _ _ _).trans
      (.each (fun d _ t => .wr (tckR_ne_tckG hk d) (by decide) t _) _)
  have hread : rd t (.tckG k) tck_PHASE = rd (stoppedPhase s k) (.tckG k) tck_PHASE := by
    rw [ht, rd_raise_ne _ _ (offset_ne (by decide)), hv.reads _ (by decide)]
  obtain ⟨hphase, hpending⟩ := stoppedPhase_reads s k
  refine ⟨(phase_congr hread).trans hphase, (congrArg (·.testBit 3) hread).trans hpending, ?_, fun d hd => ?_⟩
  · rw [ht, rd_raise_evt, evtOf, Nat.testBit_or, Bool.or_eq_true]
    exact .inr (by decide)
  · have hoff : (rd u (.tke d) hCTRL).testBit 0 = false :=
      engines_off (diesOf (stoppedPhase s k) k) (stoppedPhase s k) (.inl (by rwa [diesOf_of_layout (layout_stoppedPhase hk s)]))
    have hrx : rd v (.tke d) hCTRL = rd u (.tke d) hCTRL :=
      rd_each_ne _ _ _ (fun e t => rd_wrFld_ne _ _ _ _ (by simp only [pageBase, dieBase, hCTRL, tck_RX_STATE]; omega)) _ _
    rw [ht, rd_raise_ne _ _ (by simp only [pageBase, dieBase, hCTRL, hEVT]; omega), hrx, hoff]

/-! ## START (R150, R341) -/

/-- The generator that a START leaves ARMED, with the engines of its dies on. -/
def startArmed (s : State) (k : Nat) : State := setPhase (catchUpCurrent (enableDies s k true) k) k 2

theorem keepsPage_catchUpCurrent (p : Page) (s : State) (k : Nat) : KeepsPage p s (catchUpCurrent s k) := by
  unfold catchUpCurrent
  split
  · unfold catchUp
    extract_lets x l
    clear_value l
    cases l with
    | nil => exact .refl ..
    | cons a l => exact .setSlot ..
  · exact .refl ..

theorem getTick_catchUpCurrent (s : State) (k : Nat) : getTick (catchUpCurrent s k) k = getTick s k := by
  unfold catchUpCurrent
  split
  · unfold catchUp
    extract_lets x l
    clear_value l
    cases l with
    | nil => rfl
    | cons a l =>
      dsimp only
      rw [getTick, getSlot_setSlot, getTick]
  · rfl

section
variable {k : Nat} (hk : k < 8) (s : State)
include hk

omit hk in
theorem rd_startArmed_ne {p : Page} {o : Nat} (hp : ∀ d, pageBase (.tke d) ≠ pageBase p) (ho : o < 0x1000)
    (h : pageBase p + o ≠ pageBase (.tckG k) + tck_PHASE) : rd (startArmed s k) p o = rd s p o := by
  rw [startArmed, setPhase, rd_wrFld_ne _ _ _ _ h, (keepsPage_catchUpCurrent ..).reads _ ho, (keepsPage_enableDies hp ..).reads _ ho]

theorem rd_startArmed_page {o : Nat} (ho : o < 0x1000) (h : o ≠ tck_PHASE) : rd (startArmed s k) (.tckG k) o = rd s (.tckG k) o :=
  rd_startArmed_ne s (tke_ne_tckG hk) ho (offset_ne h)

omit hk in
theorem phase_startArmed : phase (startArmed s k) k = 2 := by
  rw [phase, startArmed, setPhase, rd_wrFld _ _ _ _ _ _ (by decide), Nat.mod_eq_of_lt (by decide)]

omit hk in
theorem engines_startArmed {d : Nat} (hd : d ∈ diesOf s k) : (rd (startArmed s k) (.tke d) hCTRL).testBit 0 = true := by
  rw [startArmed, setPhase, rd_wrFld_ne _ _ _ _ (by simp only [pageBase, dieBase, hCTRL, tck_PHASE]; omega),
    (keepsPage_catchUpCurrent ..).reads _ (by decide), engines_on hd]

theorem sameSegment_startArmed : SameSegment k s (startArmed s k) where
  tick := by
    rw [startArmed, setPhase, getTick_of_slots (wrFld_slots ..), getTick_catchUpCurrent, enableDies,
      getTick_of_slots (each_keep State.slots _ (fun _ _ => wrFld_slots ..) _ _)]
  ctrl := rd_startArmed_page hk s (by decide) (by decide)
  peers := rd_startArmed_page hk s (by decide) (by decide)
  layout := rd_startArmed_ne s (fun d => by simp only [pageBase, dieBase]; omega) (by decide)
    (by simp only [pageBase, tmt_LAYOUT, tck_PHASE]; omega)
  number := rd_startArmed_ne s (fun d => by simp only [pageBase, dieBase]; omega) (by decide)
    (by simp only [pageBase, fld_MODULE, tck_PHASE]; omega)

omit hk in
theorem SameSegment.allArmed {t : State} (h : SameSegment k s t) : allArmed t k = allArmed s k := by
  unfold Machine.allArmed followers peerModules roleNo moduleNo
  rw [h.tick, h.ctrl, h.peers, h.number]

/-- What START waits for is as it was. -/
theorem startsNow_startArmed : startsNow (startArmed s k) k ↔ startsNow s k := by
  have hck : ckPhase (startArmed s k) k = ckPhase s k := by
    rw [ckPhase, ckPhase, rd_startArmed_ne s (fun d => (ckp_ne_tke hk d).symm) (by decide)
      (by simp only [pageBase, ckp_STATE, tck_PHASE]; omega)]
  have hsame := sameSegment_startArmed hk s
  rw [startsNow, startsNow, roleNo, hsame.ctrl, hsame.allArmed, hck, roleNo]

/-- A marker leaves CTRL of the engines. -/
theorem keepsPage_emitMarker (d kn : Nat) (first : Bool) : KeepsPage (.tke d) s (emitMarker s k kn first) := by
  have ht := (tke_ne_tckG hk d).symm
  have hext : KeepsPage (.tke d) s (extended s k) := by
    unfold extended
    extract_lets ext t
    have hw : KeepsPage (.tke d) s t := .wr ht (by decide) _ _
    exact .ite hw (hw.trans (.bump ht (by decide) _ _))
  have hcount : ∀ u, KeepsPage (.tke d) u (counted u k first) := fun u => by
    cases first
    · exact (KeepsPage.wr ht (by decide) _ _).trans (.wr ht (by decide) _ _)
    · exact .refl ..
  rw [emitMarker_eq]
  exact ((((hext.trans (keepsPage_boundaryTo _ _ _ _ ht (ckp_ne_tke hk d))).trans (hcount _)).trans (.setTick ..))).trans
    (keepsPage_of_sent (sent_sendMarkers _ hk _ _) (beside_tke d))

theorem keepsPage_firstMarker (d : Nat) : KeepsPage (.tke d) s (firstMarker s k) :=
  .ite ((keepsPage_entryTick (tmt_ne_tke hk d) s).trans (keepsPage_emitMarker hk _ d 0 true)) (.refl ..)

/-- A START leaves the engines on, whether the window begins or not. -/
theorem startSlot_engines {d : Nat} (hd : d ∈ diesOf s k) : (rd (startSlot s k) (.tke d) hCTRL).testBit 0 = true := by
  have h : KeepsPage (.tke d) (startArmed s k) (startSlot s k) := by
    refine .ite ?_ (keepsPage_firstMarker hk _ d)
    exact keepsPage_of_sent (sent_netSend _ _ _ _ hk) (beside_tke d)
  rw [h.reads _ (by decide), engines_startArmed s hd]

omit hk in
theorem roleNo_started : roleNo (catchUpCurrent (enableDies s k true) k) k = roleNo (startArmed s k) k := by
  rw [roleNo, roleNo, startArmed, setPhase, rd_wrFld_ne _ _ _ _ (offset_ne (by decide))]

theorem startSlot_leads (h : roleNo s k ≠ 2) : startSlot s k = firstMarker (startArmed s k) k :=
  if_neg (by rwa [roleNo_started, roleNo, (sameSegment_startArmed hk s).ctrl])

theorem startSlot_follows (h : roleNo s k = 2) : Sent (startArmed s k) (startSlot s k) := by
  have e : roleNo (catchUpCurrent (enableDies s k true) k) k = 2 := by rwa [roleNo_started, roleNo, (sameSegment_startArmed hk s).ctrl]
  have hs : startSlot s k = netSend (startArmed s k) _ .nobody k := if_pos e
  rw [hs]
  exact sent_netSend _ _ _ _ hk

theorem startSlot_starts (h2 : roleNo s k ≠ 2) (h : startsNow s k) : let t := startSlot s k
    phase t k = (if 0 < windowLen s k then 3 else 4) ∧ rd t (.tckG k) tck_WINDOW_TICK = 0 ∧ tickNo t k = tickNo s k := by
  intro t
  have ht : t = _ := startSlot_leads hk s h2
  obtain ⟨hphase, htick, hno⟩ := firstMarker_reads hk ((startsNow_startArmed hk s).mpr h)
  have hread := fun o ho h => rd_startArmed_page hk s (o := o) ho h
  rw [windowLen, hread _ (by decide) (by decide), ← windowLen] at hphase
  rw [ht]
  exact ⟨hphase, htick, hno.trans (tickNo_congr (hread _ (by decide) (by decide)) (hread _ (by decide) (by decide)))⟩

theorem startSlot_waits (h : roleNo s k = 2 ∨ ¬ startsNow s k) : phase (startSlot s k) k = 2 := by
  by_cases h2 : roleNo s k = 2
  · rw [phase_congr ((keepsPage_of_sent (startSlot_follows hk s h2) (beside_tckG hk)).reads _ (by decide)), phase_startArmed]
  · rw [startSlot_leads hk s h2, firstMarker_waits (mt (startsNow_startArmed hk s).mp (h.resolve_left h2)), phase_startArmed]

end

section
variable {s : State} {fn : Func} {k : Slot} (h : Admitted s fn (.tckG k)) (hphase : phase s k = 1) (tag : BitVec 16)
include h hphase

theorem execStart_eq (h3 : roleNo s k ≠ 3) (hwipe : wipeIncomplete s k = false) :
    execStart fn k tag.toNat s = endCmd (startSlot s k) (.tckG k) 0 0 tag.toNat 0 := by
  rw [execStart, hostCmd, hostWrite_admitted _ _ _ _ _ h, if_neg (by simp [hphase, h3, hwipe])]

/-- A START that is taken turns the engines on and reports no error, whatever becomes of the generator. -/
theorem start_takes (h3 : roleNo s k ≠ 3) (hwipe : wipeIncomplete s k = false) : ∃ t, exec (.start fn k tag) s = .next t ∧
    phase t k = phase (startSlot s k) k ∧ rd t (.tckG k) tck_WINDOW_TICK = rd (startSlot s k) (.tckG k) tck_WINDOW_TICK ∧
    tickNo t k = tickNo (startSlot s k) k ∧ (∀ d ∈ diesOf s k, (rd t (.tke d) hCTRL).testBit 0 = true) ∧
    rd t (.tckG k) hRESULT = 65536 * tag.toNat := by
  have hread := fun o hr he => rd_endCmd_page (s := startSlot s k) (p := .tckG k) 0 0 tag.toNat 0 (o := o) hr he
  refine ⟨_, congrArg (answer s) (execStart_eq h hphase tag h3 hwipe), phase_congr (hread _ (by decide) (by decide)),
    hread _ (by decide) (by decide), tickNo_congr (hread _ (by decide) (by decide)) (hread _ (by decide) (by decide)), fun d hd => ?_,
    (rd_endCmd_code (by decide) tag 0).trans (Nat.zero_add _)⟩
  exact (congrArg (·.testBit 0) ((keepsPage_endCmd ((tke_ne_tckG k.isLt d).symm) ..).reads _ (by decide))).trans (startSlot_engines k.isLt s hd)

theorem start_alone (hrole : roleNo s k = 0) (hwipe : wipeIncomplete s k = false) (hck : ckPhase s k ≠ 2) :
    ∃ t, exec (.start fn k tag) s = .next t ∧ phase t k = (if 0 < windowLen s k then 3 else 4) ∧ rd t (.tckG k) tck_WINDOW_TICK = 0 ∧
      tickNo t k = tickNo s k ∧ (∀ d ∈ diesOf s k, (rd t (.tke d) hCTRL).testBit 0 = true) ∧
      rd t (.tckG k) hRESULT = 65536 * tag.toNat := by
  obtain ⟨t, ht, hp, hw, hn, hon, hres⟩ := start_takes h hphase tag (by omega) hwipe
  obtain ⟨hp', hw', hn'⟩ := startSlot_starts k.isLt s (by omega) ⟨.inl hrole, hck⟩
  exact ⟨t, ht, hp.trans hp', hw.trans hw', hn.trans hn', hon, hres⟩

theorem start_arms (hrole : roleNo s k = 2 ∨ (roleNo s k = 1 ∧ allArmed s k = false) ∨ (roleNo s k ≠ 3 ∧ ckPhase s k = 2))
    (hwipe : wipeIncomplete s k = false) : ∃ t, exec (.start fn k tag) s = .next t ∧ phase t k = 2 ∧
      (∀ d ∈ diesOf s k, (rd t (.tke d) hCTRL).testBit 0 = true) ∧ rd t (.tckG k) hRESULT = 65536 * tag.toNat := by
  obtain ⟨t, ht, hp, -, -, hon, hres⟩ := start_takes h hphase tag (by omega) hwipe
  refine ⟨t, ht, hp.trans (startSlot_waits k.isLt s ?_), hon, hres⟩
  refine hrole.imp_right fun hw ⟨hready, hck⟩ => ?_
  rcases hw with ⟨h1, hno⟩ | ⟨-, hheld⟩
  · rcases hready with h0 | ⟨-, hall⟩
    · omega
    · rw [hno] at hall
      cases hall
  · exact hck hheld

/-! ## EPOCH_SET (R148) -/

theorem epochSet_sets : ∃ t, exec (.epochSet fn k tag) s = .next t ∧ epochOf t k = arg s (.tckG k) 0 % 16 ∧
    ∀ d ∈ diesOf s k, fld (rd t (.tckR d) tck_RX_STATE) 0 4 = arg s (.tckG k) 0 % 16 := by
  have e : execEpochSet fn k tag.toNat s = endCmd (setEpoch s k (arg s (.tckG k) 0)) (.tckG k) 0 0 tag.toNat 0 :=
    by rw [execEpochSet, hostCmd, hostWrite_admitted _ _ _ _ _ h, if_pos hphase]
  have hne : ∀ d, pageBase (.tckR d) ≠ pageBase (.tckG k) := tckR_ne_tckG k.isLt
  refine ⟨_, congrArg (answer s) e, ?_, fun d hd => ?_⟩
  · have hepoch : rd (endCmd (setEpoch s k (arg s (.tckG k) 0)) (.tckG k) 0 0 tag.toNat 0) (.tckG k) tck_EPOCH =
        arg s (.tckG k) 0 % 16 % 2 ^ 32 := by
      rw [rd_endCmd_page _ _ _ _ (by decide) (by decide), setEpoch]
      exact ((KeepsPage.each (fun d _ t => KeepsPage.wr (hne d) (by decide) t _) _).reads _ (by decide)).trans (rd_wr ..)
    show rd (endCmd (setEpoch s k (arg s (.tckG k) 0)) (.tckG k) 0 0 tag.toNat 0) (.tckG k) tck_EPOCH % 16 = _
    rw [hepoch]
    omega
  · have hset := fld_each_wrFld (page := .tckR) (o := tck_RX_STATE) (lo := 0) (len := 4) (v := arg s (.tckG k) 0) (d := d)
      (fun e he => by simp only [pageBase, dieBase]; omega) (by decide) (diesOf s k) (wr s (.tckG k) tck_EPOCH (arg s (.tckG k) 0 % 16))
      (.inl hd)
    exact (congrArg (fld · 0 4) ((keepsPage_endCmd (hne d).symm ..).reads _ (by decide))).trans hset

/-! ## TCK_CALIBRATE (R134, R184) -/

end

theorem maxOf_le_iff {l : List Nat} {b : Nat} : maxOf l ≤ b ↔ ∀ x ∈ l, x ≤ b := by
  have key : ∀ a, l.foldl max a ≤ b ↔ a ≤ b ∧ ∀ x ∈ l, x ≤ b := by
    induction l with
    | nil => simp
    | cons x l ih => intro a; simp [ih, and_assoc]
  unfold maxOf
  simpa using key 0

/-- The latency that a calibration takes from the receivers of a generator's dies. -/
def latency (s : State) (k : Nat) : Nat := maxOf ((diesOf s k).map (fun d => rd s (.tckR d) tck_RX_MARKER_LAT))

/-- The machine with every receiver of the dies measured. -/
def measured (s : State) (k tag : Nat) : State := each (diesOf s k) measure (startLong s (.tckG k) tag)

/-- ALIGN and GUARD of a generator from open numbers, above a latency. -/
def aligned (s : State) (k lat : Nat) : State :=
  let a := drawNat s
  let g := drawNat a.2
  let al := max (a.1 % 2 ^ 12) (max 16 lat)
  wr (wr g.2 (.tckG k) tck_ALIGN al) (.tckG k) tck_GUARD ((al + g.1) % 2 ^ 13)

theorem rd_aligned_align (s : State) (k : Nat) {lat : Nat} (h : lat < 2 ^ 32) :
    16 ≤ rd (aligned s k lat) (.tckG k) tck_ALIGN ∧ lat ≤ rd (aligned s k lat) (.tckG k) tck_ALIGN := by
  unfold aligned
  extract_lets a g al
  rw [rd_wr_ne _ _ (offset_ne (by decide)), rd_wr, Nat.mod_eq_of_lt (by omega)]
  omega

theorem rd_aligned_rx (s : State) {k : Nat} (hk : k < 8) (lat d : Nat) :
    rd (aligned s k lat) (.tckR d) tck_RX_MARKER_LAT = rd s (.tckR d) tck_RX_MARKER_LAT := by
  have hne : ∀ o < 0x1000, pageBase (.tckR d) + tck_RX_MARKER_LAT ≠ pageBase (.tckG k) + o := fun o ho => by
    simp only [pageBase, dieBase, tck_RX_MARKER_LAT]; omega
  unfold aligned
  extract_lets a g al
  rw [rd_wr_ne _ _ (hne _ (by decide)), rd_wr_ne _ _ (hne _ (by decide))]
  rfl

theorem keepsPage_measure {p : Page} {d : Nat} (h : pageBase (.tckR d) ≠ pageBase p) (s : State) : KeepsPage p s (measure d s) :=
  KeepsPage.trans (t := (drawNat s).2) (.of_regs rfl rfl) (.wr h (by decide) _ _)

theorem diesOf_measured (s : State) (k tag : Nat) : diesOf (measured s k tag) k = diesOf s k := by
  have h : KeepsPage (.tmt 8) (startLong s (.tckG k) tag) (measured s k tag) :=
    .each (fun d _ t => keepsPage_measure (by simp only [pageBase, dieBase]; omega) t) _
  exact diesOf_of_layout (h.reads _ (by decide)) k

theorem execTckCalibrate_eq {s : State} {fn : Func} {k : Slot} (h : Admitted s fn (.tckG k)) (hphase : phase s k = 1) (tag : Nat) :
    execTckCalibrate fn k tag s =
      finishLong (aligned (measured s k tag) k (latency (measured s k tag) k)) (.tckG k) 0 0 0 := by
  rw [execTckCalibrate, hostCmd, hostWrite_admitted _ _ _ _ _ h, if_neg (not_not_intro hphase)]
  rfl

theorem cmds_aligned (s : State) (k lat : Nat) : (aligned s k lat).cmds = s.cmds := by
  unfold aligned
  extract_lets a g al
  rw [wr_cmds, wr_cmds]
  rfl

theorem cmds_measured (s : State) (k tag : Nat) : (measured s k tag).cmds = (startLong s (.tckG k) tag).cmds :=
  each_keep State.cmds measure (fun d t => wr_cmds (drawNat t).2 (.tckR d) _ _) _ _

theorem busy_calibrated (s : State) (k tag lat : Nat) :
    busy (finishLong (aligned (measured s k tag) k lat) (.tckG k) 0 0 0) (.tckG k) = true := by
  have hrun : tfind (aligned (measured s k tag) k lat).cmds (pageBase (.tckG k)) = some ⟨resultWord 0 0 tag, 0, true, false⟩ := by
    rw [cmds_aligned, cmds_measured]
    exact tfind_tput_same ..
  simp only [busy, tfind_finishLong hrun]

theorem tckCalibrate_covers {s : State} {fn : Func} {k : Slot} (h : Admitted s fn (.tckG k)) (hphase : phase s k = 1) (tag : BitVec 16) :
    ∃ t, exec (.tckCalibrate fn k tag) s = .next t ∧ 16 ≤ rd t (.tckG k) tck_ALIGN ∧
      (∀ d ∈ diesOf s k, rd t (.tckR d) tck_RX_MARKER_LAT ≤ rd t (.tckG k) tck_ALIGN) ∧ busy t (.tckG k) = true := by
  let m := measured s k tag.toNat
  have hlat : latency m k < 2 ^ 32 := by
    refine Nat.lt_of_le_of_lt (m := 2 ^ 32 - 1) (maxOf_le_iff.mpr fun x hx => ?_) (by decide)
    obtain ⟨d, -, rfl⟩ := List.mem_map.mp hx
    exact Nat.le_of_lt_succ (rd_lt ..)
  have hcover : ∀ d ∈ diesOf s k, rd m (.tckR d) tck_RX_MARKER_LAT ≤ latency m k := fun d hd =>
    maxOf_le_iff.mp (le_refl (latency m k)) _ (List.mem_map_of_mem (diesOf_measured s k tag.toNat ▸ hd))
  obtain ⟨h16, hle⟩ := rd_aligned_align m k hlat
  refine ⟨requeue s _, congrArg (answer s) (execTckCalibrate_eq h hphase tag.toNat), ?_, fun d hd => ?_, busy_calibrated ..⟩
  · rwa [rd_requeue, rd_finishLong]
  · rw [rd_requeue, rd_requeue, rd_finishLong, rd_finishLong, rd_aligned_rx _ k.isLt]
    exact (hcover d hd).trans hle

/-- Settles O28: a STOP by its mark and by what its completion writes, the other commands by the state in which they leave the
generator. -/
theorem generatorCommands : Obligations.GeneratorCommands := by
  unfold Obligations.GeneratorCommands
  refine ⟨⟨fun s fn k tag h => ⟨stop_marks h tag, stop_refused h tag⟩, fun s k hused hticks hstop hrole hover h1 h2 =>
    ⟨_, answer_requeue .., stopComplete_stops k.isLt hused hticks hstop hrole hover h1 h2⟩⟩,
    fun s fn k tag h hphase => ⟨start_alone h hphase tag, start_arms h hphase tag, epochSet_sets h hphase tag,
      tckCalibrate_covers h hphase tag⟩⟩

end Sys2Proof.Proofs
end
section
/-! Proofs about DONE: the report of a die, and what the leader keeps of it (R130, R134). -/
namespace Sys2Proof.Proofs
open Sys2Proof.Machine Sys2Proof.Safety Sys2Proof.Laws

/-! ## The report of a die (R130) -/

/-- A die that owes no DISCARD pays none: what it holds reads as before. -/
theorem payOwed_none {s : State} {d : Nat} (h : (getDie s d).owed = []) : payOwed s d = setDie s d (getDie s d) := by
  have hsame : { getDie s d with owed := [] } = getDie s d := by rw [← h]
  unfold payOwed
  extract_lets y
  rw [show y.owed = [] from h, hsame]
  rfl

/-- A settled die owes no DISCARD. -/
theorem owed_of_settled {s : State} {d : Nat} (h : dieSettled s d = true) : (getDie s d).owed = [] := by
  simp only [dieSettled, Bool.and_eq_true, List.isEmpty_iff] at h
  exact h.1.1.1.2

/-- The die with its report made, and shown on its receiver's page. -/
def reportShown (s : State) (d n th : Nat) : State :=
  wr (wrMax (wr (setDie s d { getDie s d with doneSent := true }) (.tckR d) tck_RX_DONE_LAST n) (.tckR d) tck_RX_DONE_MAX n)
    (.tckR d) tck_RX_THERM_REQ th

section
variable (s : State) (d n th : Nat)

theorem keepsPage_reportShown {p : Page} (h : pageBase (.tckR d) ≠ pageBase p) : KeepsPage p s (reportShown s d n th) :=
  (KeepsPage.setDie s d { getDie s d with doneSent := true }).trans
    (((KeepsPage.wr h (by decide) _ _).trans (.wr h (by decide) _ _)).trans (.wr h (by decide) _ _))

theorem rd_reportShown_last : rd (reportShown s d n th) (.tckR d) tck_RX_DONE_LAST = n % 2 ^ 32 := by
  rw [reportShown, rd_wr_ne _ _ (offset_ne (by decide)), wrMax, rd_wr_ne _ _ (offset_ne (by decide)), rd_wr]

theorem rd_reportShown_max : rd (reportShown s d n th) (.tckR d) tck_RX_DONE_MAX = max (rd s (.tckR d) tck_RX_DONE_MAX) n % 2 ^ 32 := by
  rw [reportShown, rd_wr_ne _ _ (offset_ne (by decide)), wrMax, rd_wr, rd_wr_ne _ _ (offset_ne (by decide)), rd_setDie]

theorem getDie_reportShown : getDie (reportShown s d n th) d = { getDie s d with doneSent := true } := by
  rw [reportShown, getDie_wr, wrMax, getDie_wr, getDie_wr, getDie_setDie]

end

/-- The machine with a die's report shown, which counts `cycles` and the extension that the generator asks for. -/
def doneReported (s : State) (d cycles : Nat) : State :=
  reportShown (setDie s d (getDie s d)) d (cycles % 2 ^ 22) (rd s (.tckG (slotOf s d)) tck_THERM_EXT % 2 ^ 21)

theorem keepsPage_doneReported {p : Page} {d : Nat} (h : pageBase (.tckR d) ≠ pageBase p) (s : State) (cycles : Nat) :
    KeepsPage p s (doneReported s d cycles) := (KeepsPage.setDie s d (getDie s d)).trans (keepsPage_reportShown _ _ _ _ h)

theorem doneSent_doneReported (s : State) (d cycles : Nat) : (getDie (doneReported s d cycles) d).doneSent = true := by
  rw [doneReported, getDie_reportShown]

theorem net_doneReported (s : State) (d cycles : Nat) : (doneReported s d cycles).net = s.net := by
  rw [doneReported, reportShown, wrMax, wr_net, wr_net, wr_net, setDie_net, setDie_net]

theorem rd_doneReported_last (s : State) (d : Nat) {cycles : Nat} (h : cycles < 2 ^ 22) :
    rd (doneReported s d cycles) (.tckR d) tck_RX_DONE_LAST = cycles := by
  rw [doneReported, rd_reportShown_last]
  omega

theorem rd_doneReported_max (s : State) (d : Nat) {cycles : Nat} (h : cycles < 2 ^ 22) :
    rd (doneReported s d cycles) (.tckR d) tck_RX_DONE_MAX = max (rd s (.tckR d) tck_RX_DONE_MAX) cycles := by
  have hmax := rd_lt s (.tckR d) tck_RX_DONE_MAX
  rw [doneReported, rd_reportShown_max, rd_setDie]
  omega

/-- The DONE token of a die. -/
def doneToken (s : State) (k d v : Nat) : Token :=
  tickToken s k 1 (here s d 0x16B) (genEnd k (leaderModule s k)) (tickLo s k) v

/-- VALUE of a DONE: the extension below its two flags. -/
def doneValue (th : Nat) (complete empty : Bool) : Nat := th + 2 ^ 21 * b2n complete + 2 ^ 22 * b2n empty

theorem fld_doneValue (x : Nat) (complete empty : Bool) : fld (doneValue (x % 2 ^ 21) complete empty) 0 21 = x % 2 ^ 21 := by
  rw [fld, Nat.shiftRight_zero, doneValue]
  omega

section
variable {s : State} {d : Nat} (hd : d < 8) (hused : slotUsed s (slotOf s d) = true) (hstarted : (getDie s d).started = true)
  (hnew : (getDie s d).doneSent = false) (hphase : phase s (slotOf s d) = 3 ∨ phase s (slotOf s d) = 4)
  (hrun : (rd s (.tckR d) tck_RX_STATE).testBit 9 = false) (hsettled : dieSettled s d = true)
include hd hused hstarted hnew hphase hrun hsettled

/-- A die that has settled shows its report and sends it. -/
theorem execDieDone_eq (cycles : Nat) : ∃ complete empty, execDieDone d cycles s = netSend (doneReported s d cycles)
    (doneToken (doneReported s d cycles) (slotOf s d) d
      (doneValue (rd s (.tckG (slotOf s d)) tck_THERM_EXT % 2 ^ 21) complete empty)) .nobody (slotOf s d) := by
  have hk : slotOf s d < 8 := slotOf_lt s hd
  let v := setDie s d (getDie s d)
  have hdie : getDie v d = getDie s d := getDie_setDie ..
  have hsettled' : dieSettled v d = true := by
    unfold dieSettled at hsettled ⊢
    rw [hdie]
    exact hsettled
  have hth : rd (wrMax (wr (setDie v d { getDie v d with doneSent := true }) (.tckR d) tck_RX_DONE_LAST (cycles % 2 ^ 22)) (.tckR d)
      tck_RX_DONE_MAX (cycles % 2 ^ 22)) (.tckG (slotOf s d)) tck_THERM_EXT = rd s (.tckG (slotOf s d)) tck_THERM_EXT := by
    have hne := (tckR_ne_tckG hk d)
    exact ((KeepsPage.wr hne (by decide) _ _).reads _ (by decide)).trans ((KeepsPage.wr hne (by decide) _ _).reads _ (by decide))
  have hguard : (!slotUsed v (slotOf s d) || !(getDie v d).started || (getDie v d).doneSent ||
      !(phase v (slotOf s d) == 3 || phase v (slotOf s d) == 4) || (rd v (.tckR d) tck_RX_STATE).testBit 9 || !dieSettled v d) = false := by
    have hu : slotUsed v (slotOf s d) = true := hused
    have hp : phase v (slotOf s d) = 3 ∨ phase v (slotOf s d) = 4 := hphase
    have hr : (rd v (.tckR d) tck_RX_STATE).testBit 9 = false := hrun
    rcases hp with hp | hp <;> simp [hu, hp, hr, hdie, hstarted, hnew, hsettled']
  unfold execDieDone
  rw [payOwed_none (owed_of_settled hsettled)]
  extract_lets k x s1 n s2 th s3 value
  rw [if_neg (by rw [show _ = false from hguard]; exact Bool.false_ne_true)]
  have hth' : th = rd s (.tckG (slotOf s d)) tck_THERM_EXT % 2 ^ 21 := congrArg (· % 2 ^ 21) hth
  have hu : s3 = doneReported s d cycles := congrArg (wr s2 (.tckR d) tck_RX_THERM_REQ) hth'
  have hvalue : value = doneValue (rd s (.tckG (slotOf s d)) tck_THERM_EXT % 2 ^ 21) (windowComplete s3 (slotOf s d) d) (dieEmpty s3 d) :=
    congrArg (doneValue · _ _) hth'
  refine ⟨windowComplete s3 (slotOf s d) d, dieEmpty s3 d, ?_⟩
  rw [← hvalue, ← hu]
  rfl

end

/-- The machine with one more token under way. -/
def underWay (s : State) (x : Flight) : State := { s with net := s.net ++ [x] }

section
variable (s : State) (x : Flight)

theorem rd_underWay (p : Page) (o : Nat) : rd (underWay s x) p o = rd s p o := rfl
theorem getDie_underWay (d : Nat) : getDie (underWay s x) d = getDie s d := rfl
theorem net_underWay : (underWay s x).net = s.net ++ [x] := rfl

end

/-- A report goes to the leader's generator on this module, where nothing stands in its way. -/
theorem netSend_done {u : State} {k d v : Nat} (hk : k < 8) (hlead : leaderModule u k = moduleNo u) :
    netSend u (doneToken u k d v) .nobody k = underWay u ⟨doneToken u k d v, .nobody, k⟩ := by
  refine netSend_near _ _ _ _ hlead (fun h => ?_) fun _ => ⟨rfl, decide_eq_true ?_⟩
  · exact absurd (show (8 : Nat) < 8 from h) (by decide)
  · show 0x168 ≤ 0x168 + k ∧ 0x168 + k < 0x193
    omega

theorem tickLo_doneReported (s : State) {d : Nat} (hd : d < 8) (cycles : Nat) :
    tickLo (doneReported s d cycles) (slotOf s d) = tickLo s (slotOf s d) :=
  (keepsPage_doneReported (tckR_ne_tckG (slotOf_lt s hd) d) s cycles).reads _ (by decide)

theorem leaderModule_doneReported {s : State} {d : Nat} (hd : d < 8) (cycles : Nat)
    (hlead : leaderModule s (slotOf s d) = moduleNo s) :
    leaderModule (doneReported s d cycles) (slotOf s d) = moduleNo (doneReported s d cycles) := by
  have hpage := keepsPage_doneReported (tckR_ne_tckG (slotOf_lt s hd) d) s cycles
  have hnumber := keepsPage_doneReported (p := .fld 16) (d := d) (by simp only [pageBase, dieBase]; omega) s cycles
  unfold leaderModule roleNo moduleNo at hlead ⊢
  rw [hpage.reads _ (by decide), hpage.reads _ (by decide), hnumber.reads _ (by decide)]
  exact hlead

theorem dieDone_reports {s : State} {d : Die} (cycles : BitVec 22) (hused : slotUsed s (slotOf s d) = true)
    (hstarted : (getDie s d).started = true) (hnew : (getDie s d).doneSent = false)
    (hphase : phase s (slotOf s d) = 3 ∨ phase s (slotOf s d) = 4) (hrun : (rd s (.tckR d) tck_RX_STATE).testBit 9 = false)
    (hsettled : dieSettled s d = true) (hlead : leaderModule s (slotOf s d) = moduleNo s) :
    ∃ t f, exec (.dieDone d cycles) s = .next t ∧ (getDie t d).doneSent = true ∧ rd t (.tckR d) tck_RX_DONE_LAST = cycles.toNat ∧
      rd t (.tckR d) tck_RX_DONE_MAX = max (rd s (.tckR d) tck_RX_DONE_MAX) cycles.toNat ∧ t.net = s.net ++ [f] ∧
      f.tok.kind = 4 ∧ f.tok.tag = 1 ∧ f.tok.sample = tickLo s (slotOf s d) ∧ f.tok.src.die = d.val ∧
      fld f.tok.value 0 21 = rd s (.tckG (slotOf s d)) tck_THERM_EXT % 2 ^ 21 := by
  have hk : slotOf s d < 8 := slotOf_lt s d.isLt
  obtain ⟨complete, empty, e⟩ := execDieDone_eq d.isLt hused hstarted hnew hphase hrun hsettled cycles.toNat
  have hlead' := leaderModule_doneReported d.isLt cycles.toNat hlead
  have hdone := doneSent_doneReported s d cycles.toNat
  have hlast := rd_doneReported_last s d (cycles := cycles.toNat) cycles.isLt
  have hmax := rd_doneReported_max s d (cycles := cycles.toNat) cycles.isLt
  have hnet := net_doneReported s d cycles.toNat
  have hlo := tickLo_doneReported s d.isLt cycles.toNat
  have hvalue := fld_doneValue (rd s (.tckG (slotOf s d)) tck_THERM_EXT) complete empty
  generalize doneReported s d cycles.toNat = u at *
  generalize doneValue (rd s (.tckG (slotOf s d)) tck_THERM_EXT % 2 ^ 21) complete empty = v at *
  refine ⟨requeue s (execDieDone d cycles.toNat s), ⟨doneToken u (slotOf s d) d v, .nobody, slotOf s d⟩, answer_requeue .., ?_⟩
  rw [getDie_requeue, rd_requeue, rd_requeue, net_requeue, e, netSend_done hk hlead', getDie_underWay, rd_underWay, rd_underWay,
    net_underWay, hdone, hlast, hmax, hnet]
  exact ⟨rfl, rfl, rfl, rfl, rfl, rfl, hlo, rfl, hvalue⟩

/-! ## The receipt at the leader (R134) -/

/-- What a DONE token says. -/
def doneOf (t : Token) : Done := ⟨t.src.mod, t.src.die, fld t.value 0 21, t.value.testBit 21, t.value.testBit 22⟩

theorem execTickDoneReceive_eq {s : State} {n k : Nat} {x : Flight} (h : ForGenerator s n 1 k x) (hnow : x.tok.sample = tickLo s k) :
    execTickDoneReceive n s = setTick (netTake s n) k { getTick s k with
      dones := (getTick s k).dones.filter (fun y => !(y.mod == x.tok.src.mod && y.die == x.tok.src.die)) ++ [doneOf x.tok] } :=
  (tickAtGen_takes h _).trans (if_neg (not_not_intro hnow))

theorem tickDoneReceive_keeps {s : State} {n k : Nat} {x : Flight} (h : ForGenerator s n 1 k x) (hnow : x.tok.sample = tickLo s k) :
    let t := execTickDoneReceive n s
    t.net = ldel s.net n ∧ t.regs = s.regs ∧ doneOf x.tok ∈ (getTick t k).dones ∧
      ∀ e ∈ (getTick s k).dones, e.mod ≠ x.tok.src.mod ∨ e.die ≠ x.tok.src.die → e ∈ (getTick t k).dones := by
  intro t
  have ht : t = _ := execTickDoneReceive_eq h hnow
  rw [ht, getTick_setTick]
  refine ⟨rfl, rfl, List.mem_append_right _ (List.mem_singleton.mpr rfl), fun e he hne => ?_⟩
  refine List.mem_append_left _ (List.mem_filter.mpr ⟨he, ?_⟩)
  rcases hne with hne | hne <;> simp [hne]

/-- Settles O23: the report by the token that the settled die sends, the receipt by the list of the leader. -/
theorem dieDoneAndReceipt : Obligations.DieDoneAndReceipt := by
  unfold Obligations.DieDoneAndReceipt
  exact ⟨fun s d cycles hused hstarted hnew hphase hrun hsettled hlead =>
      dieDone_reports cycles hused hstarted hnew hphase hrun hsettled hlead,
    fun s n k x h hnow => ⟨_, answer_requeue .., tickDoneReceive_keeps h hnow⟩⟩

end Sys2Proof.Proofs
end
section
/-! Proofs about the start of a tick on a die: what the check of its cores leaves of the die, and the release of its tasks (R102, R133,
R160). -/
namespace Sys2Proof.Proofs
open Sys2Proof.Machine Sys2Proof.Safety Sys2Proof.Laws

/-! ## What the unmatched check leaves (R102) -/

/-- u has the dies of s, the tick number of slot n and the enable of die d's engine. -/
structure TickKept (n d : Nat) (s u : State) : Prop where
  dies : u.dies = s.dies
  number : rd u (.tckG n) tck_TICK_LO = rd s (.tckG n) tck_TICK_LO
  enable : rd u (.tke d) hCTRL = rd s (.tke d) hCTRL

/-- No sample can be discarded on die d: what is still released there is halted. -/
def Rested (d : Nat) (s : State) : Prop := ∀ i, (getCtx s d i).released = true → (getCtx s d i).state = .halted

namespace TickKept
variable {n d : Nat}

theorem refl (s : State) : TickKept n d s s := ⟨rfl, rfl, rfl⟩

theorem trans {s t u : State} (h : TickKept n d s t) (g : TickKept n d t u) : TickKept n d s u :=
  ⟨g.dies.trans h.dies, g.number.trans h.number, g.enable.trans h.enable⟩

theorem rested {s u : State} (h : TickKept n d s u) (hs : Rested d s) : Rested d u := fun i => by
  rw [getCtx_of_dies h.dies]
  exact hs i

theorem each {α : Type} {f : α → State → State} (hf : ∀ a s, TickKept n d s (f a s)) (l : List α) (s : State) :
    TickKept n d s (each l f s) := fold_keeps (P := TickKept n d s) _ (fun t a ht => ht.trans (hf a t)) l s (refl s)

variable (hn : n < 8)
include hn

theorem of_held {s u : State} (hd : u.dies = s.dies) (h : held u = held s) : TickKept n d s u :=
  ⟨hd, held_reads h (guarded_tckG hn (by decide)), held_reads h (guarded_tke d)⟩

theorem of_sent {s u : State} (h : Sent s u) : TickKept n d s u :=
  ⟨h.dies, (keepsPage_of_sent h (beside_tckG hn)).reads _ (by decide), (keepsPage_of_sent h (beside_tke d)).reads _ (by decide)⟩

theorem setCore (s : State) (k : Nat) (c : Core) : TickKept n d s (setCore s k c) := of_held hn (setCore_dies ..) (held_setCore ..)

theorem wr {p : Page} {o : Nat} (hp : aside p = true) (ho : besideCtrl o = true) (s : State) (v : Nat) : TickKept n d s (wr s p o v) :=
  of_held hn (near_wr ..).dies (held_wr hp ho _)

theorem bump {p : Page} {o : Nat} (hp : aside p = true) (ho : besideCtrl o = true) (s : State) (v : Nat) :
    TickKept n d s (bump s p o v) := of_held hn (near_bump ..).dies (held_bump hp ho _)

theorem raise {p : Page} (hp : aside p = true) (s : State) (b : Nat) : TickKept n d s (raise s p b) :=
  of_held hn (near_raise ..).dies (held_raise hp _)

theorem last {p : Page} (hp : aside p = true) (s : State) (c : Nat) : TickKept n d s (last s p c) :=
  of_held hn (near_last ..).dies (held_wrFld hp rfl ..)

theorem condition {p : Page} (hp : aside p = true) (s : State) (c b : Nat) : TickKept n d s (condition s p c b) :=
  (last hn hp s c).trans (raise hn hp _ b)

theorem send (s : State) (t : Token) (o : Owner) {k : Nat} (hk : k < 8) : TickKept n d s (netSend s t o k) :=
  of_sent hn (sent_netSend s t o k hk)

omit hn in
theorem haltSlot (s : State) (k cause src : Nat) (res : Bool) (die : Nat) :
    TickKept n d s (haltSlot s k cause src res die) := by
  refine ⟨(near_haltSlot ..).dies, rd_haltSlot_ne _ _ _ _ _ _ (by decide) ?_ ?_ ?_, rd_haltSlot_ne _ _ _ _ _ _ (by decide) ?_ ?_ ?_⟩
  all_goals simp only [pageBase, dieBase, tck_TICK_LO, hCTRL, tmt_HALT_INFO, hSTATUS, tck_PHASE]; omega

theorem windowFault (s : State) (k cause die : Nat) : TickKept n d s (windowFault s k cause die) :=
  ((bump hn rfl rfl s 1).trans (haltSlot ..)).trans (raise hn rfl _ 4)

theorem sampleFault (s : State) (k sample code core die : Nat) :
    TickKept n d s (sampleFault s k sample code core die) := by
  unfold Machine.sampleFault
  extract_lets x t m first s1 s2 s3 s4
  have h : TickKept n d s s4 := (((of_held hn (near_setSlot ..).dies (held_setSlot ..)).trans (wr hn rfl rfl _ _)).trans
    (wr hn rfl rfl _ _)).trans (bump hn rfl rfl _ 1)
  split
  · exact h.trans (windowFault hn ..)
  · exact h

variable {c : Nat} (hc : c < 8)
include hc

theorem faultPeers (s : State) (info sample : Nat) : TickKept n d s (faultPeers s c info sample) :=
  each (fun _ t => (send hn t _ _ (slotOf_lt s hc)).trans (bump hn (aside_tke c) rfl _ 1)) _ s

theorem reportSample (s : State) (sample code core : Nat) : TickKept n d s (reportSample s c sample code core) :=
  (faultPeers hn hc s 1 sample).trans (sampleFault hn ..)

theorem sendDep (s : State) (e tag sample task : Nat) : TickKept n d s (sendDep s c e tag sample task) :=
  (send hn s _ _ (slotOf_lt s hc)).trans (bump hn (aside_tke c) rfl _ 1)

end TickKept

/-- A die whose tasks have come to rest discards none. -/
theorem discardSample_rested {d : Nat} {s : State} (h : Rested d s) (sample : Nat) : discardSample s d sample = s := by
  refine fold_keeps (P := (· = s)) _ (fun t i ht => ?_) _ s rfl
  subst ht
  unfold discardFor
  refine if_neg fun hgo => ?_
  simp only [relFor, Bool.and_eq_true, Bool.or_eq_true, beq_iff_eq, decide_eq_true_eq] at hgo
  obtain ⟨⟨⟨hreleased, -⟩, -⟩, hstate⟩ := hgo
  rw [h i hreleased] at hstate
  simp at hstate

namespace TickKept
variable {n c : Nat} (hn : n < 8) (hc : c < 8)
include hn hc

theorem failSample {s : State} (h : Rested c s) (sample code core : Nat) : TickKept n c s (failSample s c sample code core) := by
  unfold Machine.failSample
  extract_lets k s1 s2 s3
  have h1 : TickKept n c s s1 := (bump hn (aside_tke c) rfl s 1).trans (condition hn (aside_tke c) _ code 4)
  have h2 : s2 = s1 := discardSample_rested (h1.rested h) sample
  have h3 : TickKept n c s s3 := h1.trans (h2 ▸ each (fun e t => sendDep hn hc t e 4 sample 0) _ s2)
  exact (h3.trans (faultPeers hn hc _ 0 sample)).trans (sampleFault hn ..)

variable {k : Nat} (hk : k / 384 = c)
include hk

theorem releaseLost {s : State} (h : Rested c s) (i : Nat) : TickKept n c s (releaseLost s k i) := by
  unfold Machine.releaseLost
  rw [hk]
  extract_lets s1 x s1
  have h1 : TickKept n c s s1 := (wr hn (aside_corPage k) rfl s _).trans (last hn (aside_corPage k) _ 8)
  split
  · exact h1.trans (failSample hn hc (h1.rested h) ..)
  · exact (h1.trans (condition hn (aside_tke c) s1 8 0)).trans (windowFault hn ..)

theorem snapshot {s : State} (h : Rested c s) (i a m : Nat) : TickKept n c s (snapshot s k i a m).1 := by
  have hread : TickKept n c s (ringRead s k a m).1 :=
    of_held hn (BesideMemory.dies.ringRead ..)
      (List.foldlRecOn (motive := fun r : State × Bool => held r.1 = held s) _ _ rfl fun _ h _ _ => (held_checkRead ..).trans h)
  unfold Machine.snapshot
  dsimp only
  split
  · exact hread.trans (releaseLost hn hc hk (hread.rested h) i)
  · exact hread

omit hc in
/-- Whatever AMAX slot a core names, it lies above the engine's page of its die. -/
theorem wrAmax (s : State) (m v : Nat) : TickKept n c s (Machine.wr s (corPage k) (cor_AMAX_n + 4 * m) v) := by
  refine ⟨(near_wr ..).dies, rd_wr_ne _ _ ?_, rd_wr_ne _ _ ?_⟩
  all_goals simp only [corPage, pageBase, dieBase, tck_TICK_LO, hCTRL, cor_AMAX_n]; omega

theorem pumpAll {s : State} (h : Rested c s) : TickKept n c s (pumpAll s k) := by
  refine pump_keeps (P := TickKept n c s) (fun u e _ hu => hu.trans (setCore hn ..))
    (fun u i a m hu => hu.trans (snapshot hn hc hk (hu.rested h) i a m))
    (fun u m v hu => hu.trans (wrAmax hn hk u m v)) _ s (refl s)

theorem unmatch {s : State} (h : Rested c s) (rule slot sample : Nat) (mark : Bool) :
    TickKept n c s (unmatch s k rule slot sample mark) := by
  unfold Machine.unmatch
  extract_lets e r h' e' s1
  have h1 : TickKept n c s s1 := ((setCore hn s k e').trans (bump hn (aside_corPage k) rfl _ 1)).trans (last hn (aside_corPage k) _ 3)
  rw [hk]
  exact (h1.trans (pumpAll hn hc hk (h1.rested h))).trans (reportSample hn hc ..)

/-- The check of a core leaves its die, the tick number and the engine's enable. -/
theorem checkRules {s : State} (h : Rested c s) : TickKept n c s (checkRules k s) := by
  refine .trans ?_ (setCore hn _ k _)
  refine fold_keeps (P := TickKept n c s) _ (fun t e ht => ?_) _ s (refl s)
  dsimp only
  split
  · exact ht.trans (unmatch hn hc hk (ht.rested h) ..)
  · exact ht.trans (unmatch hn hc hk (ht.rested h) ..)
  · exact ht

end TickKept

/-! ## The end of the old tick, and the state before the release (R160) -/

/-- A context whose tick is over. -/
def tickOver (x : Ctx) : Ctx := if x.state = .halted then x else { x with state := .idle, released := false }

theorem tickOver_task (x : Ctx) : (tickOver x).cls = x.cls ∧ (tickOver x).deps = x.deps := by
  unfold tickOver
  split
  · exact ⟨rfl, rfl⟩
  · exact ⟨rfl, rfl⟩

theorem tickOver_rests {x : Ctx} (h : (tickOver x).released = true) : (tickOver x).state = .halted := by
  unfold tickOver at h ⊢
  split at h
  · rwa [if_pos ‹_›]
  · exact absurd h Bool.false_ne_true

theorem tickEnd_eq (s : State) (d : Nat) :
    tickEnd d s = setDie s d { getDie s d with ctxs := (getDie s d).ctxs.map fun e => (e.1, tickOver e.2) } := rfl

/-- What a table reads is an entry of it, or its default. -/
theorem tget_cases {α : Type} (x : α) (t : Tab α) (i : Nat) : (i, tget x t i) ∈ t ∨ i ∉ t.map (·.1) ∧ tget x t i = x := by
  induction t with
  | nil => exact .inr ⟨List.not_mem_nil, rfl⟩
  | cons e t ih =>
    obtain ⟨j, y⟩ := e
    by_cases h : i = j
    · subst h
      refine .inl (List.mem_cons.mpr (.inl ?_))
      rw [tget, tfind, if_pos rfl, Option.getD_some]
    · have hget : tget x ((j, y) :: t) i = tget x t i := by rw [tget, tfind, if_neg h, ← tget]
      rw [hget]
      rcases ih with ih | ⟨hno, ih⟩
      · exact .inl (List.mem_cons_of_mem _ ih)
      · exact .inr ⟨fun hmem => (List.mem_cons.mp hmem).elim h hno, ih⟩

theorem getCtx_tickEnd (s : State) (d i : Nat) :
    (∃ x, (i, x) ∈ (getDie s d).ctxs ∧ getCtx (tickEnd d s) d i = tickOver x) ∨
    i ∉ (getDie s d).ctxs.map (·.1) ∧ getCtx (tickEnd d s) d i = Ctx.none := by
  rw [tickEnd_eq, getCtx, getDie_setDie]
  rcases tget_cases Ctx.none ((getDie s d).ctxs.map fun e => (e.1, tickOver e.2)) i with h | ⟨hno, h⟩
  · obtain ⟨e, he, hx⟩ := List.mem_map.mp h
    obtain ⟨hi, hx⟩ := Prod.mk.injEq .. ▸ hx
    exact .inl ⟨e.2, hi ▸ he, hx.symm⟩
  · refine .inr ⟨?_, h⟩
    rwa [List.map_map] at hno

theorem rested_tickEnd (s : State) (d : Nat) : Rested d (tickEnd d s) := fun i h => by
  rcases getCtx_tickEnd s d i with ⟨x, -, e⟩ | ⟨-, e⟩
  · rw [e] at h ⊢
    exact tickOver_rests h
  · rw [e] at h
    exact absurd h Bool.false_ne_true

/-- The machine when die d has ended its tick, checked its cores, reloaded its counters and shown the new tick. -/
def tickBegun (d : Nat) (s : State) : State :=
  wrFld (reloadCounters 0 d (each (dieCores (tickEnd d s) d) checkRules (tickEnd d s))) (.tckR d) tck_RX_STATE 8 1 1

theorem mem_dieCores {s : State} {d k : Nat} (h : k ∈ dieCores s d) : k / 384 = d := by
  simpa using (List.mem_filter.mp h).2

theorem checked_keeps {n d : Nat} (hn : n < 8) (hd : d < 8) (s : State) :
    TickKept n d (tickEnd d s) (each (dieCores (tickEnd d s) d) checkRules (tickEnd d s)) :=
  List.foldlRecOn (motive := TickKept n d (tickEnd d s)) _ _ (.refl _) fun _ h _ hk =>
    h.trans (.checkRules hn hd (mem_dieCores hk) (h.rested (rested_tickEnd s d)))

theorem getDie_reloadCounters (mode d : Nat) (s : State) : ∃ o, getDie (reloadCounters mode d s) d = { getDie s d with firstOut := o } := by
  refine fold_keeps (P := fun t => ∃ o, getDie t d = { getDie s d with firstOut := o }) _ (fun t c ht => ?_) _ s ⟨_, rfl⟩
  obtain ⟨o, ho⟩ := ht
  unfold reloadCounter
  dsimp only
  split
  · rw [getDie_setDie, ho]
    exact ⟨_, rfl⟩
  · exact ⟨o, ho⟩

section
variable {n d : Nat} (hn : n < 8) (hd : d < 8) (s : State)
include hn hd

theorem getDie_tickBegun : ∃ o, getDie (tickBegun d s) d = { getDie (tickEnd d s) d with firstOut := o } := by
  obtain ⟨o, h⟩ := getDie_reloadCounters 0 d (each (dieCores (tickEnd d s) d) checkRules (tickEnd d s))
  refine ⟨o, ?_⟩
  rw [tickBegun, getDie_wrFld, h, getDie_of_dies (checked_keeps hn hd s).dies]

theorem tickLo_tickBegun : tickLo (tickBegun d s) n = tickLo s n := by
  have hpage := KeepsPage.reloadCounters (p := .tckG n) (d := d) (fun i hi => by simp only [pageBase, dieBase]; omega) 0
    (each (dieCores (tickEnd d s) d) checkRules (tickEnd d s))
  rw [tickLo, tickBegun, rd_wrFld_ne _ _ _ _ (by simp only [pageBase, dieBase, tck_TICK_LO, tck_RX_STATE]; omega),
    hpage.reads _ (by decide), (checked_keeps hn hd s).number]
  rfl

theorem enable_tickBegun : rd (tickBegun d s) (.tke d) hCTRL = rd s (.tke d) hCTRL := by
  have hpage := KeepsPage.reloadCounters (p := .tke d) (d := d) (fun i hi => by simp only [pageBase, dieBase]; omega) 0
    (each (dieCores (tickEnd d s) d) checkRules (tickEnd d s))
  rw [tickBegun, rd_wrFld_ne _ _ _ _ (by simp only [pageBase, dieBase, hCTRL, tck_RX_STATE]; omega),
    hpage.reads _ (by decide), (checked_keeps hn hd s).enable]
  rfl

end

theorem shown_tickBegun (d : Nat) (s : State) : (rd (tickBegun d s) (.tckR d) tck_RX_STATE).testBit 8 = true := by
  rw [tickBegun]
  exact testBit_of_fld (rd_wrFld _ (.tckR d) tck_RX_STATE 8 1 1 (by decide))

/-! ## The release (R160, R162) -/

/-- A context released for sample m with no dependence left. -/
def ReadyFor (x : Ctx) (m : Nat) : Prop := x.state = .ready ∧ x.sample = m ∧ x.released = true

theorem succDrop_die (s : State) (d i : Nat) : ∃ l, getDie (succDrop s d i) d = { getDie s d with succs := l } := by
  unfold succDrop
  dsimp only
  split
  · exact ⟨_, rfl⟩
  · exact ⟨_, getDie_setDie ..⟩

theorem succDrop_regs (s : State) (d i : Nat) : (succDrop s d i).regs = s.regs := by
  unfold succDrop
  dsimp only
  split
  · rfl
  · rfl

theorem getCtx_succDrop (s : State) (d i j : Nat) : getCtx (succDrop s d i) d j = getCtx s d j := by
  obtain ⟨l, h⟩ := succDrop_die s d i
  rw [getCtx, h, ← getCtx]

section
variable (s : State) (d i : Nat) (x : Ctx) (m : Nat)

theorem releaseCtx_regs : (releaseCtx s d i x m).regs = s.regs := by rw [releaseCtx, setCtx_regs, succDrop_regs]

theorem releaseCtx_early : (getDie (releaseCtx s d i x m) d).early = (getDie s d).early := by
  obtain ⟨l, h⟩ := succDrop_die s d i
  rw [releaseCtx, setCtx, getDie_setDie, h]

theorem releaseCtx_other {j : Nat} (h : j ≠ i) : getCtx (releaseCtx s d i x m) d j = getCtx s d j := by
  rw [releaseCtx, getCtx_setCtx_ne _ _ (.inr h), getCtx_succDrop]

theorem releaseCtx_deps : (getCtx (releaseCtx s d i x m) d i).deps = x.deps := by rw [releaseCtx, getCtx_setCtx]

theorem releaseCtx_ready (h : x.deps = 0) : ReadyFor (getCtx (releaseCtx s d i x m) d i) m := by
  rw [releaseCtx, getCtx_setCtx]
  exact ⟨if_pos h, rfl, rfl⟩

end

/-- The release of one context by its class, as the release of a die makes it. -/
def releaseOne (k kn d : Nat) (submits : List (Nat × Nat × Nat)) (e : Nat × Ctx) (s : State) : State :=
  match releaseSample s k kn e.1 e.2 submits with
  | some m => releaseCtx s d e.1 (getCtx s d e.1) m
  | none => s

/-- The contexts of a die released, one after another. -/
def releaseAll (k kn d : Nat) (s : State) : State :=
  if (rd s (.tke d) hCTRL).testBit 0 then each (getDie s d).ctxs (releaseOne k kn d (getDie s d).submits) s else s

theorem releaseOne_cases (k kn d : Nat) (l : List (Nat × Nat × Nat)) (e : Nat × Ctx) (s : State) :
    releaseOne k kn d l e s = s ∨ ∃ m, releaseOne k kn d l e s = releaseCtx s d e.1 (getCtx s d e.1) m := by
  unfold releaseOne
  split
  · exact .inr ⟨_, rfl⟩
  · exact .inl rfl

/-- A context of the class EVERY is released for the tick's number. -/
theorem releaseOne_every {k kn d : Nat} {l : List (Nat × Nat × Nat)} {e : Nat × Ctx} (h : e.2.cls = 3) (s : State) :
    releaseOne k kn d l e s = releaseCtx s d e.1 (getCtx s d e.1) (tickLo s k) := by
  have hm : releaseSample s k kn e.1 e.2 l = some (tickLo s k) := by simp only [releaseSample, h]
  rw [releaseOne, hm]

/-- What every release keeps, the release of a die keeps. -/
theorem releaseAll_keeps {P : State → Prop} {d : Nat} (h : ∀ s i m, P s → P (releaseCtx s d i (getCtx s d i) m)) (k kn : Nat) {s : State}
    (hs : P s) : P (releaseAll k kn d s) := by
  unfold releaseAll
  split
  · refine fold_keeps (P := P) _ (fun t e ht => ?_) _ s hs
    rcases releaseOne_cases k kn d (getDie s d).submits e t with he | ⟨m, he⟩
    · rwa [he]
    · rw [he]
      exact h _ _ _ ht
  · exact hs

theorem releaseAll_regs (k kn d : Nat) (s : State) : (releaseAll k kn d s).regs = s.regs :=
  releaseAll_keeps (P := fun t => t.regs = s.regs) (fun t i m ht => (releaseCtx_regs t d i _ m).trans ht) k kn rfl

theorem rd_releaseAll (k kn d : Nat) (s : State) (p : Page) (o : Nat) : rd (releaseAll k kn d s) p o = rd s p o := by
  rw [rd, rd, regAt, regAt, releaseAll_regs]

theorem releaseAll_early (k kn d : Nat) (s : State) : (getDie (releaseAll k kn d s) d).early = (getDie s d).early :=
  releaseAll_keeps (P := fun t => (getDie t d).early = (getDie s d).early) (fun t i m ht => (releaseCtx_early t d i _ m).trans ht) k kn rfl

/-- A pass over a list that meets an entry reaches what the entry brings about and the other entries keep. -/
theorem each_reaches {α σ : Type} {P Q : σ → Prop} {hit : α → Prop} {f : α → σ → σ} (l : List α)
    (hP : ∀ a ∈ l, ∀ t, P t → P (f a t)) (hhit : ∀ a ∈ l, hit a → ∀ t, P t → Q (f a t))
    (hmiss : ∀ a ∈ l, ¬ hit a → ∀ t, Q t → Q (f a t)) (s : σ) (hs : P s) (hex : Q s ∨ ∃ a ∈ l, hit a) : Q (each l f s) := by
  induction l generalizing s with
  | nil =>
    rcases hex with hq | ⟨a, ha, -⟩
    · exact hq
    · exact absurd ha List.not_mem_nil
  | cons a l ih =>
    have ha : a ∈ a :: l := List.mem_cons_self
    refine ih (fun b hb => hP b (.tail _ hb)) (fun b hb => hhit b (.tail _ hb)) (fun b hb => hmiss b (.tail _ hb)) (f a s)
      (hP a ha s hs) ?_
    by_cases h : hit a
    · exact .inl (hhit a ha h s hs)
    · rcases hex with hq | ⟨b, hb, hhb⟩
      · exact .inl (hmiss a ha h s hq)
      · rcases List.mem_cons.mp hb with rfl | hb
        · exact absurd hhb h
        · exact .inr ⟨b, hb, hhb⟩

/-- An enabled engine releases a context of the class EVERY with no dependence for the tick's number. -/
theorem releaseAll_every {k kn d i : Nat} {s : State} (hon : (rd s (.tke d) hCTRL).testBit 0 = true)
    (hi : i ∈ (getDie s d).ctxs.map (·.1)) (hcls : ∀ e ∈ (getDie s d).ctxs, e.1 = i → e.2.cls = 3) (hdeps : (getCtx s d i).deps = 0) :
    ReadyFor (getCtx (releaseAll k kn d s) d i) (tickLo s k) := by
  rw [releaseAll, if_pos hon]
  obtain ⟨e, he, hei⟩ := List.mem_map.mp hi
  refine each_reaches (P := fun t => t.regs = s.regs ∧ (getCtx t d i).deps = 0) (Q := fun t => ReadyFor (getCtx t d i) (tickLo s k))
    (hit := fun e => e.1 = i) _ (fun e _ t ht => ?_) (fun e he hei t ht => ?_) (fun e _ hei t ht => ?_) s ⟨rfl, hdeps⟩
    (.inr ⟨e, he, hei⟩)
  · obtain ⟨hregs, hdeps⟩ := ht
    rcases releaseOne_cases k kn d (getDie s d).submits e t with h | ⟨m, h⟩
    · rw [h]
      exact ⟨hregs, hdeps⟩
    · rw [h]
      refine ⟨(releaseCtx_regs ..).trans hregs, ?_⟩
      by_cases hei : i = e.1
      · rw [hei] at hdeps ⊢
        exact (releaseCtx_deps ..).trans hdeps
      · rwa [releaseCtx_other _ _ _ _ _ hei]
  · obtain ⟨hregs, hdeps⟩ := ht
    have hlo : tickLo t k = tickLo s k := by rw [tickLo, tickLo, rd, rd, regAt, regAt, hregs]
    rw [releaseOne_every (hcls e he hei), hlo, hei]
    exact releaseCtx_ready _ _ _ _ _ hdeps
  · rcases releaseOne_cases k kn d (getDie s d).submits e t with h | ⟨m, h⟩
    · rwa [h]
    · rwa [h, releaseCtx_other _ _ _ _ _ (Ne.symm hei)]

/-- A die whose lists begin again with a tick. -/
def tickTaken (x : DieSt) : DieSt := { x with submits := [], early := [], started := true, doneSent := false, missed := [] }

theorem tickTaken_ctxs (x : DieSt) : (tickTaken x).ctxs = x.ctxs := rfl

/-- With no DEP token that came early, a die's release is that of its contexts, and its lists begin again. -/
theorem releaseDie_eq {k kn d : Nat} {s : State} (h : (getDie s d).early = []) :
    releaseDie k kn d s = setDie (releaseAll k kn d s) d (tickTaken (getDie (releaseAll k kn d s) d)) := by
  have hearly : (getDie (releaseAll k kn d s) d).early = [] := (releaseAll_early ..).trans h
  show each (getDie (releaseAll k kn d s) d).early _ _ = _
  rw [hearly]
  rfl

/-! ## The start of a tick (R133, R160) -/

section
variable {s : State} {d n : Nat} {f : Flight}
  (hnext : s.net.findIdx? (fun f => f.tok.kind == 4 && f.tok.tag == 0 && f.tok.dest == here s d 0x16B) = some n)
  (hf : s.net[n]? = some f) (hepoch : f.tok.epoch = epochOf s (slotOf s d)) (hrewound : (getTick s (slotOf s d)).rewound = [])
include hnext hf hepoch hrewound

/-- A marker of the slot's epoch begins the tick. -/
theorem execTickStart_eq : execTickStart d s = releaseDie (slotOf s d) (rd (tickBegun d (netTake s n)) (.tckG (slotOf s d)) tck_WINDOW_TICK) d
    (tickBegun d (netTake s n)) := by
  have hno : (getTick (tickEnd d (netTake s n)) (slotOf s d)).rewound.isEmpty = true := by
    rw [show getTick (tickEnd d (netTake s n)) (slotOf s d) = getTick s (slotOf s d) from rfl, hrewound]
    rfl
  have hepoch' : f.tok.epoch = epochOf (netTake s n) (slotOf s d) := hepoch
  simp only [execTickStart, hnext, hf]
  rw [if_neg (not_not_intro hepoch'), if_pos hno]
  rfl

variable (hd : d < 8) (hearly : (getDie s d).early = [])
include hd hearly

/-- The release of a tick that begins, and the lists of the die that begin again with it. -/
theorem tickStart_die : ∃ kn, execTickStart d s = setDie (releaseAll (slotOf s d) kn d (tickBegun d (netTake s n))) d
    (tickTaken (getDie (releaseAll (slotOf s d) kn d (tickBegun d (netTake s n))) d)) := by
  obtain ⟨o, ho⟩ := getDie_tickBegun (slotOf_lt s hd) hd (netTake s n)
  have hnone : (getDie (tickBegun d (netTake s n)) d).early = [] := by
    rw [ho, tickEnd_eq, getDie_setDie, getDie_netTake]
    exact hearly
  exact ⟨_, (execTickStart_eq hnext hf hepoch hrewound).trans (releaseDie_eq hnone)⟩

theorem tickStart_reads : (getDie (execTickStart d s) d).started = true ∧ (getDie (execTickStart d s) d).doneSent = false ∧
    (getDie (execTickStart d s) d).submits = [] ∧ (getDie (execTickStart d s) d).missed = [] ∧
    (rd (execTickStart d s) (.tckR d) tck_RX_STATE).testBit 8 = true := by
  obtain ⟨kn, ht⟩ := tickStart_die hnext hf hepoch hrewound hd hearly
  rw [ht, getDie_setDie, rd_setDie, rd_releaseAll, shown_tickBegun]
  exact ⟨rfl, rfl, rfl, rfl, rfl⟩

theorem tickStart_releases {i : Nat} (hon : (rd s (.tke d) hCTRL).testBit 0 = true) (hi : i ∈ (getDie s d).ctxs.map (·.1))
    (hevery : ∀ e ∈ (getDie s d).ctxs, e.1 = i → e.2.cls = 3 ∧ e.2.deps = 0) :
    ReadyFor (getCtx (execTickStart d s) d i) (tickLo s (slotOf s d)) := by
  have hk : slotOf s d < 8 := slotOf_lt s hd
  obtain ⟨kn, ht⟩ := tickStart_die hnext hf hepoch hrewound hd hearly
  obtain ⟨o, ho⟩ := getDie_tickBegun hk hd (netTake s n)
  have hctxs : (getDie (tickBegun d (netTake s n)) d).ctxs = (getDie s d).ctxs.map fun e => (e.1, tickOver e.2) := by
    rw [ho, tickEnd_eq, getDie_setDie, getDie_netTake]
  have hctx : getCtx (tickBegun d (netTake s n)) d i = getCtx (tickEnd d (netTake s n)) d i := by
    rw [getCtx, ho, ← getCtx]
  have hdeps : (getCtx (tickBegun d (netTake s n)) d i).deps = 0 := by
    rw [hctx]
    rcases getCtx_tickEnd (netTake s n) d i with ⟨x, hx, e⟩ | ⟨hno, -⟩
    · rw [getDie_netTake] at hx
      rw [e, (tickOver_task x).2]
      exact (hevery (i, x) hx rfl).2
    · rw [getDie_netTake] at hno
      exact absurd hi hno
  have hcls : ∀ e ∈ (getDie (tickBegun d (netTake s n)) d).ctxs, e.1 = i → e.2.cls = 3 := by
    rw [hctxs]
    intro e he hei
    obtain ⟨y, hy, rfl⟩ := List.mem_map.mp he
    exact (tickOver_task y.2).1.trans (hevery y hy hei).1
  have hkey : i ∈ (getDie (tickBegun d (netTake s n)) d).ctxs.map (·.1) := by
    rw [hctxs, List.map_map]
    exact hi
  have henable : (rd (tickBegun d (netTake s n)) (.tke d) hCTRL).testBit 0 = true := by
    rw [enable_tickBegun hk hd, rd_netTake]
    exact hon
  have hlo : tickLo (tickBegun d (netTake s n)) (slotOf s d) = tickLo s (slotOf s d) := by
    rw [tickLo_tickBegun hk hd, tickLo, rd_netTake, ← tickLo]
  rw [ht, getCtx, getDie_setDie, tickTaken_ctxs, ← getCtx, ← hlo]
  exact releaseAll_every henable hkey hcls hdeps

end

/-- Settles O25: the check leaves the die that the end of the old tick left, whose contexts the release then makes ready. -/
theorem tickStartReleases : Obligations.TickStartReleases := by
  unfold Obligations.TickStartReleases
  intro s d n i f k hnext hf hepoch hrewound hearly
  obtain ⟨hstarted, hdone, hsubmits, hmissed, hshown⟩ := tickStart_reads hnext hf hepoch hrewound d.isLt hearly
  exact ⟨requeue s (execTickStart d s), answer_requeue .., hstarted, hdone, hsubmits, hmissed, hshown,
    fun hon hi hevery => tickStart_releases hnext hf hepoch hrewound d.isLt hearly hon hi hevery⟩

end Sys2Proof.Proofs
end
section
/-! Proofs about work counters: what the home of a counter answers a claim, and what the response does at the core that waits for it
(R180). -/
namespace Sys2Proof.Proofs
open Sys2Proof.Machine Sys2Proof.Safety Sys2Proof.Laws

/-! ## A claim at the home of its counter -/

/-- The words VALUE and LIMIT of a counter lie below the counts of its page. -/
theorem wkcOff_le (c : Nat) : wkcOff c ≤ 0x3F0 := by
  simp only [wkcOff]
  omega

section
variable {s : State} {d c : Nat}

/-- VALUE and LIMIT of a counter do not share a word with the counts of claims on its page. -/
theorem rd_claimed {o : Nat} (ho : o = wkc_VALUE_m ∨ o = wkc_LIMIT_m) :
    rd (bump s (wkcPage d c) wkc_CLAIMS 1) (wkcPage d c) (o + wkcOff c) = rd s (wkcPage d c) (o + wkcOff c) := by
  have := wkcOff_le c
  exact rd_bump_ne _ _ (offset_ne (by simp only [wkc_VALUE_m, wkc_LIMIT_m, wkc_CLAIMS] at *; omega))

/-- Below LIMIT a claim is answered VALUE, and VALUE goes up by one. -/
theorem claimServe_below (h : rd s (wkcPage d c) (wkc_VALUE_m + wkcOff c) < rd s (wkcPage d c) (wkc_LIMIT_m + wkcOff c)) :
    (claimServe s d c).1 = rd s (wkcPage d c) (wkc_VALUE_m + wkcOff c) ∧
    (claimServe s d c).2 = wr (bump s (wkcPage d c) wkc_CLAIMS 1) (wkcPage d c) (wkc_VALUE_m + wkcOff c)
      (rd s (wkcPage d c) (wkc_VALUE_m + wkcOff c) + 1) := by
  rw [claimServe, rd_claimed (.inr rfl), if_pos h]
  exact ⟨rfl, rfl⟩

/-- The machine after a claim that found its counter exhausted, its die left as x. -/
def exhausted (s : State) (d c : Nat) (x : DieSt) : State :=
  setDie (bump (bump s (wkcPage d c) wkc_CLAIMS 1) (wkcPage d c) wkc_EXHAUSTED 1) d x

/-- At LIMIT a claim is answered the exhausted response, with a report where CFG asks for one. -/
theorem claimServe_exhausted (h : rd s (wkcPage d c) (wkc_LIMIT_m + wkcOff c) ≤ rd s (wkcPage d c) (wkc_VALUE_m + wkcOff c)) :
    (claimServe s d c).1 = 0xFFFFFFFF ∧ ∃ x : DieSt, (claimServe s d c).2 = exhausted s d c x ∨
      (claimServe s d c).2 = condition (wr (exhausted s d c x) (wkcPage d c) wkc_LAST_EXHAUSTED c) (wkcPage d c) 0x15 1 := by
  rw [claimServe, rd_claimed (.inr rfl), if_neg (Nat.not_lt.mpr h)]
  exact ⟨rfl, _, (ite_eq_or_eq ..).symm⟩

end

/-- t has the network and the queue of s, and its pages but that of counter c of die d. -/
structure AtCounter (d c : Nat) (s t : State) : Prop where
  net : t.net = s.net
  awaits : awaits t = awaits s
  pages : ∀ p, pageBase (wkcPage d c) ≠ pageBase p → KeepsPage p s t

theorem atCounter_exhausted {d c : Nat} (s : State) (x : DieSt) : AtCounter d c s (exhausted s d c x) := by
  refine ⟨?_, ?_, fun p hp => ?_⟩
  · rw [exhausted, setDie_net, bump_net, bump_net]
  · rw [exhausted, awaits_setDie, awaits_bump, awaits_bump]
  · exact (KeepsPage.bump hp (by decide) _ 1).trans ((KeepsPage.bump hp (by decide) _ 1).trans (.setDie ..))

/-- Serving a claim changes nothing in flight and no page but the counter's. -/
theorem atCounter_claimServe (s : State) (d c : Nat) : AtCounter d c s (claimServe s d c).2 := by
  have hoff := wkcOff_le c
  rcases Nat.lt_or_ge (rd s (wkcPage d c) (wkc_VALUE_m + wkcOff c)) (rd s (wkcPage d c) (wkc_LIMIT_m + wkcOff c)) with h | h
  · rw [(claimServe_below h).2]
    refine ⟨by rw [wr_net, bump_net], by rw [awaits_wr, awaits_bump], fun p hp => ?_⟩
    exact (KeepsPage.bump hp (by decide) _ 1).trans (.wr hp (by simp only [wkc_VALUE_m]; omega) _ _)
  · obtain ⟨-, x, e | e⟩ := claimServe_exhausted h
    · rw [e]
      exact atCounter_exhausted s x
    · rw [e]
      have hout := atCounter_exhausted (d := d) (c := c) s x
      refine ⟨?_, ?_, fun p hp => (hout.pages p hp).trans ?_⟩
      · rw [condition_net, wr_net, hout.net]
      · rw [awaits_condition, awaits_wr, hout.awaits]
      · exact (KeepsPage.wr hp (by decide) _ _).trans ((KeepsPage.wr hp (by decide) _ _).trans (.raise hp _ _))

section
variable {s : State} {d c : Nat}

theorem rd_value_below (h : rd s (wkcPage d c) (wkc_VALUE_m + wkcOff c) < rd s (wkcPage d c) (wkc_LIMIT_m + wkcOff c)) :
    rd (claimServe s d c).2 (wkcPage d c) (wkc_VALUE_m + wkcOff c) = rd s (wkcPage d c) (wkc_VALUE_m + wkcOff c) + 1 := by
  have hlimit := rd_lt s (wkcPage d c) (wkc_LIMIT_m + wkcOff c)
  rw [(claimServe_below h).2, rd_wr, Nat.mod_eq_of_lt (by omega)]

theorem rd_value_exhausted (h : rd s (wkcPage d c) (wkc_LIMIT_m + wkcOff c) ≤ rd s (wkcPage d c) (wkc_VALUE_m + wkcOff c)) :
    rd (claimServe s d c).2 (wkcPage d c) (wkc_VALUE_m + wkcOff c) = rd s (wkcPage d c) (wkc_VALUE_m + wkcOff c) := by
  have hoff := wkcOff_le c
  have hne : ∀ o, 0x500 ≤ o ∨ o < 0x100 → pageBase (wkcPage d c) + (wkc_VALUE_m + wkcOff c) ≠ pageBase (wkcPage d c) + o :=
    fun o ho => offset_ne (by simp only [wkc_VALUE_m]; omega)
  obtain ⟨-, x, e⟩ := claimServe_exhausted h
  have hout : rd (exhausted s d c x) (wkcPage d c) (wkc_VALUE_m + wkcOff c) = rd s (wkcPage d c) (wkc_VALUE_m + wkcOff c) := by
    rw [exhausted, rd_setDie, rd_bump_ne _ _ (hne _ (by decide)), rd_claimed (.inl rfl)]
  rcases e with e | e
  · rw [e, hout]
  · rw [e, rd_condition_ne _ _ _ (hne _ (by decide)) (hne _ (by decide)), rd_wr_ne _ _ (hne _ (by decide)), hout]

end

/-! ## The request and the response on the network -/

/-- The response to a claim: the request turned back with the index that the home gives. -/
def claimAnswer (t : Token) (epoch index : Nat) : Token :=
  { t with tag := 1, dest := t.src, src := t.dest, value := index, epoch := epoch }

/-- The machine with other tokens in flight. -/
def sending (s : State) (l : List Flight) : State := { s with net := l }

theorem awaits_sending (s : State) (l : List Flight) : awaits (sending s l) = awaits s := awaits_net s l

theorem rd_sending (s : State) (l : List Flight) (p : Page) (o : Nat) : rd (sending s l) p o = rd s p o := rfl

theorem moduleNo_netTake (s : State) (n : Nat) : moduleNo (netTake s n) = moduleNo s := by rw [moduleNo, rd_netTake, ← moduleNo]

/-- A token of a counter's home for an endpoint of its own slot joins the network. -/
theorem AtCounter.send {d c : Nat} {s t : State} (h : AtCounter d c s t) (tok : Token) (o : Owner) {k : Nat} (hmod : tok.dest.mod = moduleNo s)
    (hdie : tok.dest.die < 8) (hslot : slotOf s tok.dest.die = k) : netSend t tok o k = sending t (s.net ++ [⟨tok, o, k⟩]) := by
  have hmodule : moduleNo t = moduleNo s := by
    rw [moduleNo, (h.pages (.fld 16) (by simp only [wkcPage, pageBase, dieBase]; omega)).reads _ (by decide), ← moduleNo]
  have hlayout : ∀ e, slotOf t e = slotOf s e :=
    slotOf_of_layout ((h.pages (.tmt 8) (by simp only [wkcPage, pageBase, dieBase]; omega)).reads _ (by decide))
  rw [netSend_near t tok o k (hmod.trans hmodule.symm) (fun _ => (hlayout _).trans hslot) (fun h8 => absurd hdie (Nat.not_lt.mpr h8)), h.net,
    ← sending]

/-- A claim of the partition's epoch is served, and its response sets out for the core that asked. -/
theorem execClaimRequest_eq {s : State} {n : Nat} {x : Flight} (h : Arrives s n 6 x) (ht : x.tok.tag = 0)
    (hepoch : x.tok.epoch = epochOf s (slotOf s x.tok.dest.die)) : ∃ epoch,
    execClaimRequest n s = netSend (claimServe (netTake s n) x.tok.dest.die (x.tok.value % 256)).2
      (claimAnswer x.tok epoch (claimServe (netTake s n) x.tok.dest.die (x.tok.value % 256)).1) x.owner x.pslot := by
  have hclaim : ¬ (x.tok.kind ≠ 6 ∨ x.tok.tag ≠ 0) := by simp [h.kind, ht]
  unfold execClaimRequest
  rw [h.next]
  dsimp only
  rw [if_neg hclaim, if_neg (not_not_intro hepoch)]
  exact ⟨_, rfl⟩

/-- The response ends a CLAIM that waits for it. -/
theorem execClaimResponse_eq {s : State} {n k reg : Nat} {x : Flight} {r : Run} (h : ForCore s n 6 k x) (ht : x.tok.tag = 1)
    (hrun : (getCore s k).run = some r) (hwait : (getCore s k).wait = .claim reg) (hend : r.ended = false)
    (howner : x.owner = .task k r.ctx) (hsample : x.tok.sample = r.sample) :
    execClaimResponse n s = setCore (netTake s n) k
      { setReg (getCore s k) reg (w32 x.tok.value) with wait := .none, pc := (getCore s k).pc + 1, stall := 0 } := by
  have hepoch : x.tok.epoch = epochOf (netTake s n) (slotOf (netTake s n) x.tok.dest.die) := h.epoch
  simp only [execClaimResponse, h.next, h.kind, ht, h.site, getCore_netTake, hrun, hwait, ne_eq, not_true_eq_false, or_self, if_false]
  rw [if_neg (not_not_intro hepoch), if_pos ⟨howner, hsample, by rw [hend]; rfl⟩]

/-- What the home of a counter answers a claim of its own module, by whether VALUE is below LIMIT. -/
theorem claimRequest_served {s : State} {n : Nat} {x : Flight} (h : Arrives s n 6 x) (ht : x.tok.tag = 0)
    (hepoch : x.tok.epoch = epochOf s (slotOf s x.tok.dest.die)) (hmod : x.tok.src.mod = moduleNo s) (hdie : x.tok.src.die < 8)
    (hslot : slotOf s x.tok.src.die = x.pslot) : ∃ u e index, exec (.claimRequest n) s = .next u ∧
    u.net = ldel s.net n ++ [⟨claimAnswer x.tok e index, x.owner, x.pslot⟩] ∧
    ∀ p c, p = wkcPage x.tok.dest.die c → c = x.tok.value % 256 →
      (rd s p (wkc_VALUE_m + wkcOff c) < rd s p (wkc_LIMIT_m + wkcOff c) →
        index = rd s p (wkc_VALUE_m + wkcOff c) ∧ rd u p (wkc_VALUE_m + wkcOff c) = rd s p (wkc_VALUE_m + wkcOff c) + 1) ∧
      (rd s p (wkc_LIMIT_m + wkcOff c) ≤ rd s p (wkc_VALUE_m + wkcOff c) →
        index = 0xFFFFFFFF ∧ rd u p (wkc_VALUE_m + wkcOff c) = rd s p (wkc_VALUE_m + wkcOff c)) := by
  obtain ⟨e, he⟩ := execClaimRequest_eq h ht hepoch
  have hat := atCounter_claimServe (netTake s n) x.tok.dest.die (x.tok.value % 256)
  have hsend := hat.send (claimAnswer x.tok e (claimServe (netTake s n) x.tok.dest.die (x.tok.value % 256)).1) x.owner
    (hmod.trans (moduleNo_netTake ..).symm) hdie ((slotOf_of_layout (rd_netTake ..) _).trans hslot)
  refine ⟨_, e, _, exec_of_awaits (congrArg (answer s) (he.trans hsend)) ?_, rfl, ?_⟩
  · rw [awaits_sending, hat.awaits, awaits_netTake]
  · rintro p c rfl rfl
    rw [rd_sending, ← rd_netTake s n (wkcPage _ _) (wkc_VALUE_m + _), ← rd_netTake s n (wkcPage _ _) (wkc_LIMIT_m + _)]
    exact ⟨fun hv => ⟨(claimServe_below hv).1, rd_value_below hv⟩, fun hv => ⟨(claimServe_exhausted hv).1, rd_value_exhausted hv⟩⟩

/-- Settles O19: the home answers by whether VALUE is below LIMIT, and its answer is for the CLAIM that waits. -/
theorem workCounterClaims : Obligations.WorkCounterClaims := by
  unfold Obligations.WorkCounterClaims
  refine ⟨?_, ?_⟩
  · intro s n x h ht _ d c p v hepoch hmod hdie hslot
    obtain ⟨u, e, index, hnext, hnet, hserved⟩ := claimRequest_served h ht hepoch hmod hdie hslot
    obtain ⟨hbelow, hexhausted⟩ := hserved p c rfl rfl
    exact ⟨u, _, hnext, hnet, h.kind, rfl, rfl, rfl, hbelow, hexhausted⟩
  · intro s n k x r reg h ht c hrun hwait hend howner hsample
    exact exec_of_awaits (congrArg (answer s) (execClaimResponse_eq h ht hrun hwait hend howner hsample))
      ((awaits_setCore ..).trans (awaits_netTake ..))

end Sys2Proof.Proofs
end

section
/-! Proofs about what reads of the page tables and of pages leave alone, whatever part of the state is asked after (R197 to R218, R364). -/
namespace Sys2Proof.Proofs
open Sys2Proof.Machine Sys2Proof.Safety Sys2Proof.Laws

/-- A part of the state that shows nothing of what a walk of the page tables and a read of a page can change: what a read of memory can,
the slots with their translation caches, and the counter of open values. -/
structure BesideTables {β : Type} (g : State → β) : Prop extends BesideMemory g where
  slots : ∀ s x, g { s with slots := x } = g s
  free : ∀ s n, g { s with free := n } = g s

theorem BesideTables.dies : BesideTables State.dies := ⟨BesideMemory.dies, fun _ _ => rfl, fun _ _ => rfl⟩

/-- A part of the state of a pair, for operations that answer a value beside the state; under a name that no proof below unfolds, so that
the kernel does not compare the pairs. -/
def onFst {α β : Type} (g : State → β) (q : State × α) : β := g q.1

section
variable {α β : Type} (g : State → β) (s : State) (a : α) (q : State × α)

theorem on_fst : g q.1 = onFst g q := by rw [onFst]

theorem onFst_pair : onFst g (s, a) = g s := by rw [onFst]

end

namespace BesideTables
variable {β : Type} {g : State → β} (hg : BesideTables g)
include hg

theorem setSlot (s : State) (k : Nat) (x : SlotSt) : g (setSlot s k x) = g s := hg.slots ..

theorem drawNat (s : State) : g (drawNat s).2 = g s := hg.free ..

theorem condition (s : State) (p : Page) (code bits : Nat) : g (condition s p code bits) = g s := (hg.raise ..).trans (hg.wr ..)

theorem readMarks (p : Page) (source base : Nat) (scrub : Bool) (r : Nat → Bool) (l : Tab Byte) (s : State) :
    onFst g (readMarks p source base scrub r l s) = g s := by
  refine fold_keeps (P := fun q : State × Tab Byte × Bool => onFst g q = g s) _ (fun q e h => ?_) l _ (onFst_pair ..)
  split
  · rwa [onFst_pair, on_fst g q]
  · split
    · split
      · rwa [onFst_pair, hg.noteCorrection, hg.countErr, on_fst g q]
      · rwa [onFst_pair, hg.countErr, on_fst g q]
    · rwa [onFst_pair, hg.countErr, on_fst g q]

theorem readPhys (s : State) (a n : Nat) : onFst g (physRead s a n) = g s := hg.physRead hg.free s a n

theorem pageRead (s : State) (d e : Nat) : onFst g (pageRead s d e) = g s := by
  simp only [Machine.pageRead, apply_ite (onFst g), onFst_pair, hg.raise, hg.bump, on_fst g, hg.readPhys, ite_self]

theorem partRead (s : State) (d e off n va : Nat) : onFst g (partRead s d e off n va) = g s := by
  simp only [Machine.partRead, apply_ite (onFst g), onFst_pair, on_fst g, hg.pageRead, hg.readPhys, ite_self]

/-! ## Walks of the tables (R197, R363) -/

theorem readEntry (k c key : Nat) (s : State) : g (readEntry k c key s) = g s := by
  unfold Machine.readEntry
  extract_lets x
  split
  · rfl
  next p count keep _ a b _ =>
    have hcount : ∀ s n copy, g (count s n copy) = g s := fun s n copy => by simp only [count, apply_ite g, hg.countErr, ite_self]
    have hkeep : ∀ e s, g (keep e s) = g s := fun e s => hg.setSlot ..
    simp only [apply_ite g, hkeep, hcount, ite_self]

theorem evict (s : State) (l mine : List (Nat × Nat)) : onFst g (evict s l mine) = g s := by
  unfold Machine.evict
  extract_lets r
  split
  · exact (onFst_pair ..).trans (hg.drawNat s)
  · exact onFst_pair ..

theorem tableReads (k n : Nat) (s : State) : g (tableReads k n s) = g s := by
  rw [Machine.tableReads, wrMax, hg.wr, hg.drawNat, hg.bump]

theorem readTables (k c vpn : Nat) (s : State) : g (readTables k c vpn s) = g s := by
  simp only [Machine.readTables, apply_ite g, apply_ite (onFst g), onFst_pair, on_fst g, hg.setSlot, hg.evict, hg.readEntry,
    hg.tableReads, ite_self]

theorem walkTables (k c vpn : Nat) (s : State) : g (walkTables k c vpn s) = g s := by
  simp only [Machine.walkTables, hg.readTables, apply_ite g, hg.bump, ite_self]

theorem touch (s : State) (k c vpn : Nat) : g (touch s k c vpn) = g s := by
  simp only [Machine.touch, apply_ite g, apply_ite (onFst g), onFst_pair, on_fst g, hg.setSlot, hg.evict, hg.walkTables, ite_self]

/-! ## Accesses by virtual address (R197, R213, R218) -/

theorem vaReadOk (s : State) (k d : Nat) (u : UnitNo) (va n : Nat) : onFst g (vaReadOk s k d u va n) = g s := by
  refine fold_keeps (P := fun q : State × List Byte × List Nat => onFst g q = g s) _ (fun q p h => ?_) _ _ (onFst_pair ..)
  rwa [onFst_pair, on_fst g, hg.partRead, hg.touch, on_fst g q]

theorem recordFault (s : State) (d : Nat) (u : UnitNo) (write : Bool) (code reason va : Nat) :
    g (recordFault s d u write code reason va) = g s := by
  simp only [Machine.recordFault, hg.condition, hg.bump, hg.wr]

theorem faultWalk (s : State) (k c reason vpn : Nat) : g (faultWalk s k c reason vpn) = g s := by
  simp only [Machine.faultWalk, apply_ite g, hg.touch, hg.walkTables, ite_self]

theorem cowStall (s : State) (k vpn writer va : Nat) : g (cowStall s k vpn writer va) = g s := by
  simp only [Machine.cowStall, apply_ite g, hg.setSlot, hg.bump, ite_self]

theorem judge (s : State) (k d : Nat) (u : UnitNo) (va n : Nat) (write : Bool) : onFst g (judge s k d u va n write) = g s := by
  unfold Machine.judge
  extract_lets a
  clear_value a
  split
  · rw [onFst_pair, hg.recordFault, hg.faultWalk]
  · rw [onFst_pair, hg.cowStall]
  · exact onFst_pair ..

end BesideTables

end Sys2Proof.Proofs
end

section
/-! Proofs about the discard of a sample's tasks (R166, R170, R178): what the engine does to one context leaves another, and a context
that a fault condemns stays condemned through the discards of the others. -/
namespace Sys2Proof.Proofs
open Sys2Proof.Machine Sys2Proof.Safety Sys2Proof.Laws

/-! ## What leaves a context and its list -/

/-- u shows context j of die d, and its list in the successor cache, as s does. -/
structure Spares (d j : Nat) (s u : State) : Prop where
  ctx : getCtx u d j = getCtx s d j
  list : tfind (getDie u d).succs j = tfind (getDie s d).succs j

theorem dies_charge (s : State) (d i : Nat) : (charge s d i).dies = s.dies := by
  unfold charge
  extract_lets x k y
  split
  · rfl
  · split <;> rfl

namespace Spares
variable {d j i : Nat}

theorem refl (s : State) : Spares d j s s := ⟨rfl, rfl⟩

theorem trans {s t u : State} (h : Spares d j s t) (g : Spares d j t u) : Spares d j s u := ⟨g.ctx.trans h.ctx, g.list.trans h.list⟩

theorem of_dies {s u : State} (h : u.dies = s.dies) : Spares d j s u := ⟨getCtx_of_dies h d j, by rw [getDie_of_dies h]⟩

theorem of_near {s u : State} (h : Near s u) : Spares d j s u := of_dies h.dies

theorem setDie (s : State) {y : DieSt} (hctxs : y.ctxs = (getDie s d).ctxs) (hlist : tfind y.succs j = tfind (getDie s d).succs j) :
    Spares d j s (setDie s d y) := by
  refine ⟨?_, by rw [getDie_setDie, hlist]⟩
  rw [getCtx, getDie_setDie, hctxs, ← getCtx]

theorem bump (s : State) (p : Page) (o n : Nat) : Spares d j s (bump s p o n) := of_near (near_bump ..)

theorem dropReports (s : State) (i : Nat) : Spares d j s (dropReports s d i) := of_dies rfl

theorem charge (s : State) (d i : Nat) : Spares d j s (charge s d i) := of_dies (dies_charge s d i)

section
variable (hd : d < 8)
include hd

theorem toCore (s : State) (i tag info : Nat) (b : List Byte) : Spares d j s (toCore s d i tag info b) := of_dies (dies_toCore hd ..)

theorem sendDep (s : State) (e tag sample task : Nat) : Spares d j s (sendDep s d e tag sample task) :=
  (of_dies (sent_netSend _ _ _ _ (slotOf_lt s hd)).dies).trans (.bump ..)

end

variable (hj : j ≠ i)
include hj

theorem setCtx (s : State) (x : Ctx) : Spares d j s (setCtx s d i x) := ⟨getCtx_setCtx_ne _ _ (.inr hj), by rw [succs_setCtx]⟩

theorem addCycles (s : State) : Spares d j s (addCycles s d i) := .trans (t := (drawNat s).2) (.of_dies rfl) (.setCtx hj ..)

theorem discardAttempt (hd : d < 8) (s : State) : Spares d j s (discardAttempt s d i) := by
  unfold Machine.discardAttempt
  extract_lets x t
  have hbump : Spares d j s t := .bump ..
  have hdrop : Spares d j s (Machine.dropReports t d i) := hbump.trans (.dropReports ..)
  split
  · exact (hdrop.trans (addCycles hj _)).trans (.toCore hd ..)
  · exact hdrop.trans (.toCore hd ..)
  · exact hdrop.trans (.toCore hd ..)
  · exact hbump

theorem engineError (s : State) (code kind : Nat) : Spares d j s (engineError s d i code kind) :=
  (setCtx hj s _).trans (.of_near (near_engineError ..))

theorem listLost (s : State) (code : Nat) : Spares d j s (listLost s d i code) := by
  unfold Machine.listLost
  split
  · exact .of_near ((near_condition ..).trans (near_windowFault ..))
  · exact engineError hj ..

/-! ### The list of another context (R159, R203) -/

theorem succDrop (s : State) : Spares d j s (succDrop s d i) := by
  unfold Machine.succDrop
  dsimp only
  split
  · exact .refl s
  · exact .setDie s rfl (tfind_tdel_ne _ hj)

theorem succCached (s : State) : Spares d j s (succCached s d i).1 := by
  unfold Machine.succCached
  extract_lets y
  split
  · exact .refl s
  next e _ =>
    split
    · exact .refl s
    · have hread : Spares d j s (readMarks (.tke d) 5 (succBase y.succs i) false (fun _ => true) e.2 s).1 :=
        .of_dies (BesideTables.dies.readMarks ..)
      dsimp only
      split
      · exact hread.trans (succDrop hj _)
      · exact hread.trans (.setDie _ rfl ((tfind_tput_ne _ _ hj).trans hread.list.symm))

theorem succOf (s : State) : Spares d j s (succOf s d i).1 := by
  unfold Machine.succOf
  extract_lets x
  split
  · exact .refl s
  · have hcached := succCached (d := d) hj s
    generalize Machine.succCached s d i = q at hcached ⊢
    obtain ⟨t, _ | l⟩ := q
    · have hjudge : (judge t (slotOf t d) d .task x.succ (8 * x.nsucc) false).1.dies = t.dies := BesideTables.dies.judge ..
      dsimp only
      generalize judge t (slotOf t d) d .task x.succ (8 * x.nsucc) false = p at hjudge ⊢
      have hp : Spares d j s p.1 := hcached.trans (.of_dies hjudge)
      obtain ⟨u, _ | _ | _⟩ := p
      · have hread : Spares d j s (vaReadOk u (slotOf u d) d .task x.succ (8 * x.nsucc)).1 :=
          hp.trans (.of_dies (BesideTables.dies.vaReadOk ..))
        dsimp only
        split
        · exact hread
        · dsimp only
          split
          · exact hread
          · exact hread.trans (.setDie _ rfl (tfind_tput_ne _ _ hj))
      · exact hp
      · exact hp
    · exact hcached

end Spares

/-! ## A condemned context (R178) -/

/-- Context j of die d is released for sample m as FORWARD or BACKWARD and is discarded, or, where it may still be `live`, waits or is ready
with its list in the successor cache. -/
structure Condemned (d j m : Nat) (live : Prop) (s : State) : Prop where
  released : relFor (getCtx s d j) m = true
  cls : (getCtx s d j).cls < 2
  state : (getCtx s d j).state = .discarded ∨
    live ∧ ((getCtx s d j).state = .waiting ∨ (getCtx s d j).state = .ready ∧ ∃ es, CachedList s d j es)

theorem cachedList_spared {d j : Nat} {s u : State} {es : List Nat} (h : CachedList s d j es) (g : Spares d j s u) : CachedList u d j es := by
  rwa [CachedList, g.ctx, g.list, ← CachedList]

namespace Condemned
variable {d j m : Nat} {o : Prop} {s : State}

theorem of_spares {u : State} (h : Condemned d j m o s) (g : Spares d j s u) : Condemned d j m o u := by
  obtain ⟨hreleased, hcls, hstate⟩ := h
  refine ⟨by rwa [g.ctx], by rwa [g.ctx], ?_⟩
  rw [g.ctx]
  exact hstate.imp_right fun ⟨ho, h⟩ => ⟨ho, h.imp_right fun ⟨hr, es, hes⟩ => ⟨hr, es, cachedList_spared hes g⟩⟩

theorem weaken (h : Condemned d j m False s) : Condemned d j m o s := ⟨h.released, h.cls, h.state.imp_right fun h => h.1.elim⟩

/-- The context itself, changed to wait or to be discarded for good. -/
theorem setCtx (t : State) {x : Ctx} (hreleased : relFor x m = true) (hcls : x.cls < 2)
    (hstate : x.state = .discarded ∨ o ∧ x.state = .waiting) : Condemned d j m o (setCtx t d j x) := by
  refine ⟨by rwa [getCtx_setCtx], by rwa [getCtx_setCtx], ?_⟩
  rw [getCtx_setCtx]
  exact hstate.imp_right fun ⟨ho, h⟩ => ⟨ho, .inl h⟩

/-- A DISCARD that a context passes on to its consumers, each of which keeps what is condemned. -/
theorem passOn {f : Nat → State → State} (hf : ∀ e t, Condemned d j m o t → Condemned d j m o (f e t)) {i : Nat}
    (hlist : j ≠ i ∨ ∃ es, CachedList s d i es) (sample : Nat) (h : Condemned d j m o s) : Condemned d j m o (passOn f s d i sample) := by
  have heach : ∀ (l : List Nat) t, Condemned d j m o t → Condemned d j m o (each (l.filter succAhead) f t) := fun l t ht =>
    fold_keeps (P := Condemned d j m o) _ (fun t e ht => hf e t ht) _ t ht
  unfold Machine.passOn
  split
  · exact h.of_spares (.setDie s rfl rfl)
  · rcases hlist with hj | ⟨es, hes⟩
    · have hlist : Spares d j s (succOf s d i).1 := .succOf hj s
      generalize succOf s d i = q at hlist ⊢
      obtain ⟨t, c | l⟩ := q
      · exact h.of_spares (hlist.trans (.listLost hj ..))
      · exact heach l t (h.of_spares hlist)
    · rw [succOf_cached hes]
      exact heach es s h

/-- An AHEAD DISCARD, of the context or of another. -/
theorem depDiscard (hd : d < 8) (fuel : Nat) : ∀ (s : State) (i : Nat), Condemned d j m o s → Condemned d j m o (depDiscard fuel s d i m) := by
  induction fuel with
  | zero => exact fun _ _ h => h
  | succ fuel ih =>
    intro s i h
    have hedge : ∀ e t, Condemned d j m o t → Condemned d j m o (if succDie t d e = d then Machine.depDiscard fuel t d (ctxOf (succTarget e)) m
        else sendDep t d (succDie t d e) 3 m (succTarget e)) := fun e t ht => by
      split
      · exact ih t _ ht
      · exact ht.of_spares (.sendDep hd ..)
    unfold Machine.depDiscard
    extract_lets x t y
    by_cases hj : j = i
    · subst hj
      have hx : x = getCtx s d j := rfl
      rw [if_neg (by rw [hx, h.released]; decide)]
      split
      · exact h
      · rcases h.state with hs | ⟨ho, hs | ⟨hs, es, hes⟩⟩
        · rw [hx, hs]
          exact h
        · rw [hx, hs]
          exact .setCtx s h.released h.cls (.inr ⟨ho, rfl⟩)
        · have ht : Spares d j s t := by
            have hnone : discardAttempt s d j = bump s (.tke d) tke_DISCARD_COUNT 1 := by rw [discardAttempt, hs]
            exact (hnone ▸ Spares.bump ..).trans (.bump ..)
          have hy : y = getCtx s d j := ht.ctx
          have hback : Condemned d j m o (Machine.setCtx t d j (aheadBack t d y)) := by
            rw [hy]
            exact .setCtx t h.released h.cls (.inr ⟨ho, rfl⟩)
          have hlist : CachedList (Machine.setCtx t d j (aheadBack t d y)) d j es :=
            cachedList_congr (cachedList_spared hes ht) (by rw [getCtx_setCtx]; rfl) (succs_setCtx ..)
          rw [hx, hs]
          exact passOn hedge (.inr ⟨es, hlist⟩) m hback
    · have ht : Spares d j s t := (Spares.discardAttempt hj hd s).trans (.bump ..)
      have hpass : Condemned d j m o (Machine.passOn (fun e t => if succDie t d e = d then Machine.depDiscard fuel t d (ctxOf (succTarget e)) m
          else sendDep t d (succDie t d e) 3 m (succTarget e)) (Machine.setCtx t d i (aheadBack t d y)) d i m) :=
        passOn hedge (.inl hj) m (h.of_spares (ht.trans (.setCtx hj ..)))
      split
      · exact h.of_spares (.engineError hj ..)
      · split
        · exact h
        · split
          · exact h.of_spares (.setCtx hj ..)
          · exact hpass
          · exact hpass
          · exact hpass
          · exact hpass
          · exact h

theorem edge (hd : d < 8) (e : Nat) (s : State) (h : Condemned d j m o s) : Condemned d j m o (edge d 3 m e s) := by
  unfold Machine.edge
  dsimp only
  split
  · exact h.of_spares (.sendDep hd ..)
  · exact depDiscard hd _ s _ h

/-- The discard for good of another context of the sample. -/
theorem discardNow (hd : d < 8) {i : Nat} (hj : j ≠ i) (hm : (getCtx s d i).sample = m) (h : Condemned d j m o s) :
    Condemned d j m o (discardNow s d i) := by
  unfold Machine.discardNow
  extract_lets x t y u
  have hu : Condemned d j m o u :=
    h.of_spares (((Spares.discardAttempt hj hd s).trans (.setCtx hj ..)).trans (.charge ..))
  split
  · refine passOn (fun e v hv => ?_) (.inl hj) _ hu
    rw [show x.sample = m from hm]
    exact edge hd e v hv
  · exact hu

theorem discardFor_other (hd : d < 8) {i : Nat} (hj : j ≠ i) (h : Condemned d j m o s) : Condemned d j m o (discardFor d m i s) := by
  unfold Machine.discardFor
  extract_lets x
  split
  next hgo =>
    simp only [relFor, Bool.and_eq_true, beq_iff_eq] at hgo
    obtain ⟨⟨⟨-, hm⟩, -⟩, -⟩ := hgo
    exact discardNow hd hj hm h
  · exact h

/-- A condemned context that the discard of the sample comes to is discarded for good. -/
theorem discardFor_self (h : Condemned d j m o s) : Condemned d j m False (discardFor d m j s) := by
  unfold Machine.discardFor
  rcases h.state with hs | ⟨-, hs⟩
  · rw [if_neg (by rw [hs]; simp)]
    exact ⟨h.released, h.cls, .inl hs⟩
  · have hopen : (getCtx s d j).state = .waiting ∨ (getCtx s d j).state = .ready := hs.imp_right And.left
    have hgo : (relFor (getCtx s d j) m && decide ((getCtx s d j).cls < 2) && ((getCtx s d j).state == .waiting ||
        (getCtx s d j).state == .ready || (getCtx s d j).state == .running || (getCtx s d j).state == .yielded ||
        (getCtx s d j).state == .ended)) = true := by
      rcases hopen with hs | hs <;> simp [h.released, h.cls, hs]
    have hnone : Machine.discardAttempt s d j = bump s (.tke d) tke_DISCARD_COUNT 1 := by
      rcases hopen with hs | hs <;> rw [Machine.discardAttempt, hs]
    rw [if_pos hgo, Machine.discardNow, hnone, getCtx_bump, if_neg (by rcases hopen with hs | hs <;> simp [hs])]
    exact (setCtx (bump s (.tke d) tke_DISCARD_COUNT 1) (x := { getCtx s d j with state := .discarded }) h.released h.cls
      (.inl rfl)).of_spares (.charge ..)

/-- The discard of a sample reaches every context of the die. -/
theorem discardSample (hd : d < 8) (hj : j ∈ (getDie s d).ctxs.map (·.1)) (h : Condemned d j m True s) :
    Condemned d j m False (discardSample s d m) := by
  refine each_reaches (P := Condemned d j m True) (Q := Condemned d j m False) (hit := fun i => i = j) _ (fun i _ t ht => ?_)
    (fun i _ hi t ht => ?_) (fun i _ hi t ht => discardFor_other hd (Ne.symm hi) ht) s h (.inr ⟨j, hj, rfl⟩)
  · by_cases hi : i = j
    · subst hi
      exact ht.discardFor_self.weaken
    · exact discardFor_other hd (Ne.symm hi) ht
  · subst hi
    exact ht.discardFor_self

end Condemned
end Sys2Proof.Proofs
end

section
/-! Proofs about DEP tokens, deadlines and SUBMIT: a token that arrives in its tick is applied to the context that it names (R162, R166,
R178), a deadline is recorded once (R165), and a good SUBMIT is taken (R186). -/
namespace Sys2Proof.Proofs
open Sys2Proof.Machine Sys2Proof.Safety Sys2Proof.Laws

/-! ## Arrival of a DEP token -/

/-- A DEP token of a tag and of the partition's epoch for the task engine of die d, in the tick that it belongs to or not. -/
structure ForDie (s : State) (n tag d : Nat) (x : Flight) : Prop extends Arrives s n 3 x where
  tag : x.tok.tag = tag
  engine : x.tok.dest.core = 0x168
  die : x.tok.dest.die = d
  epoch : x.tok.epoch = epochOf s (slotOf s d)

/-- The machine that a DEP token of die d meets: the token is out of the network and counted. -/
def depReceived (s : State) (n d : Nat) : State := bump (netTake s n) (.tke d) tke_DEP_RECV 1

section
variable {s : State} {n tag d i : Nat} {x : Flight}

theorem forDie_of_forEngine (h : ForEngine s n tag d i x) : ForDie s n tag d x := ⟨h.toArrives, h.tag, h.engine, h.die, h.epoch⟩

theorem depEarly_of_inTick (h : ForEngine s n tag d i x) : depEarly s d x.tok = false := by
  rw [depEarly, h.inTick, Bool.false_and]

/-- A token in its tick is applied. -/
theorem depArrive_inTick (h : ForDie s n tag d x) (hd : d < 8) (hearly : depEarly s d x.tok = false) :
    depArrive tag n s = depApply d x.tok (netTake s n) := by
  have hdep : ¬ (x.tok.kind ≠ 3 ∨ x.tok.tag ≠ tag ∨ 8 ≤ d) := by simp [h.kind, h.tag, hd]
  rw [depArrive, h.next]
  dsimp only
  rw [h.die, if_neg hdep, if_neg (not_not_intro h.engine), if_neg (not_not_intro h.epoch), if_neg (by rw [hearly]; decide)]

/-- A token of a tick that the die has not begun is held, while fewer than 64 are. -/
theorem depArrive_early (h : ForDie s n tag d x) (hd : d < 8) (hearly : depEarly s d x.tok = true) (hroom : (getDie s d).early.length < 64) :
    depArrive tag n s = setDie (netTake s n) d { getDie s d with early := (getDie s d).early ++ [x.tok] } := by
  have hdep : ¬ (x.tok.kind ≠ 3 ∨ x.tok.tag ≠ tag ∨ 8 ≤ d) := by simp [h.kind, h.tag, hd]
  rw [depArrive, h.next]
  dsimp only
  rw [h.die, if_neg hdep, if_neg (not_not_intro h.engine), if_neg (not_not_intro h.epoch), if_pos hearly, if_neg (Nat.not_le.mpr hroom)]

theorem getCtx_received (j : Nat) : getCtx (depReceived s n d) d j = getCtx s d j := by rw [depReceived, getCtx_bump, getCtx_netTake]

theorem spares_received (j : Nat) : Spares d j s (depReceived s n d) :=
  .trans (t := netTake s n) (.of_dies (netTake_dies ..)) (.bump ..)

theorem softEdges_received (c : Ctx) : softEdges (depReceived s n d) d c = softEdges s d c := by
  rw [softEdges, depReceived, rd_bump_ne _ _ (offset_ne (by decide)), rd_netTake, ← softEdges]

theorem awaits_received : awaits (depReceived s n d) = awaits s := by rw [depReceived, awaits_bump, awaits_netTake]

section
variable {t : Token} (hcontext : ctxOf t.value = i)
include hcontext

theorem depApply_satisfy (h : t.tag = 0) : depApply d t (netTake s n) = satisfy (depReceived s n d) d i t.sample := by
  rw [depApply, h, hcontext]
  rfl

theorem depApply_start (h : t.tag = 1) : depApply d t (netTake s n) = depStart (depReceived s n d) d i t.sample := by
  rw [depApply, h, hcontext]
  rfl

theorem depApply_commit (h : t.tag = 2) : depApply d t (netTake s n) = depCommit (depReceived s n d) d i t.sample := by
  rw [depApply, h, hcontext]
  rfl

theorem depApply_discard (h : t.tag = 3) : depApply d t (netTake s n) = depDiscard 8192 (depReceived s n d) d i t.sample := by
  rw [depApply, h, hcontext]
  rfl

end

theorem depApply_fault {t : Token} (h : t.tag = 4) : depApply d t (netTake s n) = depFault (depReceived s n d) d t := by
  rw [depApply, h]
  rfl

/-- An instruction whose token the die applies leads to u where the token leads the receiving machine there, with the queue as it was. -/
theorem exec_dep {instr : Instr} {u : State} (hinstr : exec instr s = answer s (depArrive tag n s)) (h : ForDie s n tag d x) (hd : d < 8)
    (hearly : depEarly s d x.tok = false) (hu : depApply d x.tok (netTake s n) = u) (hawaits : awaits u = awaits (depReceived s n d)) :
    exec instr s = .next u :=
  exec_of_awaits (hinstr.trans (congrArg (answer s) ((depArrive_inTick h hd hearly).trans hu))) (hawaits.trans awaits_received)

theorem exec_inTick {instr : Instr} {u : State} (hinstr : exec instr s = answer s (depArrive tag n s)) (h : ForEngine s n tag d i x)
    (hd : d < 8) (hu : depApply d x.tok (netTake s n) = u) (hawaits : awaits u = awaits (depReceived s n d)) : exec instr s = .next u :=
  exec_dep hinstr (forDie_of_forEngine h) hd (depEarly_of_inTick h) hu hawaits

end

/-! ## What a token does to the context that it names (R166) -/

section
variable {s : State} {d i m : Nat}

theorem spares_satisfy {j : Nat} (hj : j ≠ i) : Spares d j s (satisfy s d i m) := by
  unfold satisfy
  extract_lets x
  split
  · exact .engineError hj ..
  · split
    · exact .setCtx hj ..
    · exact .refl s

/-- The last COMMIT commits an ENDED context. -/
theorem getCtx_depCommit (hd : d < 8) (hrel : relFor (getCtx s d i) m = true) (hsoft : softEdges s d (getCtx s d i) = true)
    (hpcur : (getCtx s d i).pcur = 1) (hended : (getCtx s d i).state = .ended) :
    getCtx (depCommit s d i m) d i = { getCtx s d i with pcur := 0, state := .committed } := by
  have hcommit : depCommit s d i m = commitDecide (setCtx s d i { getCtx s d i with pcur := 0 }) d i := by
    simp [depCommit, hrel, hsoft, hpcur, hended]
  rw [hcommit, getCtx_commitDecide hd, getCtx_setCtx]

/-- A DISCARD gives a WAITING context back what its producers took, and makes it HARD. -/
theorem depDiscard_waiting (fuel : Nat) (hrel : relFor (getCtx s d i) m = true) (hsoft : softEdges s d (getCtx s d i) = true)
    (hwait : (getCtx s d i).state = .waiting) : depDiscard (fuel + 1) s d i m =
      setCtx s d i
        { getCtx s d i with dcur := (getCtx s d i).dcur + (getCtx s d i).pcur, pcur := 0, state := .waiting, hard := true } := by
  rw [depDiscard, hrel, hsoft, if_neg (by decide), if_neg (by decide), hwait]

/-- A fault notice discards what the discard of its sample does: telling others of it leaves the contexts. -/
theorem Condemned.depFault {j : Nat} {t : Token} (hd : d < 8) (hfault : t.dcount.testBit 0 = false)
    (hj : j ∈ (getDie s d).ctxs.map (·.1)) (h : Condemned d j t.sample True s) : Condemned d j t.sample False (depFault s d t) := by
  have hdiscard := Condemned.discardSample hd hj h
  have htell : ∀ (l : List Nat) u, Condemned d j t.sample False u →
      Condemned d j t.sample False (each l (fun e s => sendDep s d e 4 t.sample 0) u) := fun l u hu =>
    fold_keeps (P := Condemned d j t.sample False) _ (fun _ _ hv => hv.of_spares (.sendDep hd ..)) l u hu
  rw [Machine.depFault, hfault]
  simp only [Bool.false_eq_true, if_false]
  split
  · exact hdiscard
  · exact (htell _ _ hdiscard).of_spares (.of_near (near_sampleFault ..))

theorem awaits_depFault (t : Token) : awaits (depFault s d t) = awaits s := by
  have htell : ∀ (l : List Nat) u, awaits (each l (fun e s => sendDep s d e 4 t.sample 0) u) = awaits u :=
    awaits_each fun _ _ => awaits_sendDep ..
  rw [depFault]
  dsimp only
  simp only [apply_ite awaits, awaits_sampleFault, htell, awaits_discardSample, ite_self]

end

/-! ## Deadlines (R165) and SUBMIT (R186) -/

/-- The machine after the deadline of context i passed: the miss is noted, counted, and left with its task in LAST_MISS. -/
def missNoted (s : State) (d i : Nat) : State :=
  raise (wr (bump (setDie s d { getDie s d with missed := tset false (getDie s d).missed i true }) (.tke d) tke_DEADLINE_MISS 1) (.tke d)
    tke_LAST_MISS (getCtx s d i).task) (.tke d) 0x10

section
variable {s : State} {d i : Nat}

theorem execDeadlineMiss_misses (hreleased : (getCtx s d i).released = true) (hfirst : tget false (getDie s d).missed i = false)
    (hstate : (getCtx s d i).state = .waiting ∨ (getCtx s d i).state = .ready ∨ (getCtx s d i).state = .running ∨
      (getCtx s d i).state = .yielded) : execDeadlineMiss d i s = missNoted s d i := by
  rw [execDeadlineMiss, if_pos, missNoted]
  simpa [hreleased, hfirst, or_assoc] using hstate

/-- A miss that is noted already is not noted again. -/
theorem execDeadlineMiss_noted (h : tget false (getDie s d).missed i = true) : execDeadlineMiss d i s = s := by
  rw [execDeadlineMiss, h, if_neg (by simp)]

theorem missed_missNoted : tget false (getDie (missNoted s d i) d).missed i = true := by
  rw [missNoted, getDie_raise, getDie_wr, getDie_bump, getDie_setDie, tget_tset_same]

theorem getCtx_missNoted (j : Nat) : getCtx (missNoted s d i) d j = getCtx s d j := by
  rw [missNoted, getCtx_raise, getCtx_wr, getCtx_bump, getCtx, getDie_setDie, ← getCtx]

theorem rd_missNoted_count : rd (missNoted s d i) (.tke d) tke_DEADLINE_MISS = min (rd s (.tke d) tke_DEADLINE_MISS + 1) 0xFFFFFFFF := by
  rw [missNoted, rd_raise_ne _ _ (offset_ne (by decide)), rd_wr_ne _ _ (offset_ne (by decide)), rd_bump, rd_setDie]

theorem rd_missNoted_task : rd (missNoted s d i) (.tke d) tke_LAST_MISS = (getCtx s d i).task % 2 ^ 32 := by
  rw [missNoted, rd_raise_ne _ _ (offset_ne (by decide)), rd_wr]

theorem awaits_missNoted : awaits (missNoted s d i) = awaits s := by
  rw [missNoted, awaits_raise, awaits_wr, awaits_bump, awaits_setDie]

end

/-- The machine after a SUBMIT that is taken, before its command ends. -/
def submitted (s : State) (d : Nat) : State :=
  setDie s d { getDie s d with
    submits := (getDie s d).submits ++ [(arg s (.tke d) 0 % 8192, arg s (.tke d) 1 % 16384, arg s (.tke d) 2)] }

/-- A SUBMIT of a range of idle SUBMITTED contexts is taken. -/
theorem execSubmit_taken {s : State} {fn d : Nat} (tag : Nat) (h : Admitted s fn (.tke d)) (hen : (rd s (.tke d) hCTRL).testBit 0 = true)
    (hsome : 0 < arg s (.tke d) 1 % 16384) (hin : arg s (.tke d) 0 % 8192 + arg s (.tke d) 1 % 16384 ≤ 8192)
    (hidle : ∀ i < arg s (.tke d) 1 % 16384, (getCtx s d (arg s (.tke d) 0 % 8192 + i)).cls = 4 ∧
      (getCtx s d (arg s (.tke d) 0 % 8192 + i)).state = .idle) :
    execSubmit fn d tag s = endCmd (submitted s d) (.tke d) 0 0 tag 0 := by
  have hgood : (((List.range (arg s (.tke d) 1 % 16384)).map (arg s (.tke d) 0 % 8192 + ·)).any fun i =>
      decide (8192 ≤ i) || (getCtx s d i).cls != 4 || (getCtx s d i).state != .idle) = false := by
    rw [List.any_eq_false]
    intro j hj
    obtain ⟨i, hi, rfl⟩ := List.mem_map.mp hj
    have hlt := List.mem_range.mp hi
    obtain ⟨hcls, hstate⟩ := hidle i hlt
    simp [hcls, hstate]
    omega
  rw [execSubmit, hostCmd, hostWrite_admitted _ _ _ _ _ h]
  dsimp only
  rw [if_neg (by rw [hgood, hen]; simp; omega), submitted]

/-! ## The obligation -/

section
variable {s : State} {n d i : Nat} {x : Flight} (hd : d < 8)
include hd

/-- A satisfaction at the context that it names, and at no other. -/
theorem exec_depSatisfy (h : ForEngine s n 0 d i x) (hrel : relFor (getCtx s d i) x.tok.sample = true)
    (hwait : (getCtx s d i).state = .waiting) (hdcur : 0 < (getCtx s d i).dcur) : ∃ u, exec (.depSatisfy n) s = .next u ∧
    getCtx u d i = { getCtx s d i with
      dcur := (getCtx s d i).dcur - 1, state := if (getCtx s d i).dcur = 1 then .ready else .waiting } ∧
    ∀ j, j ≠ i → getCtx u d j = getCtx s d j := by
  refine ⟨_, exec_inTick rfl h hd (depApply_satisfy h.context h.tag) (awaits_satisfy ..), ?_,
    fun j hj => (spares_satisfy hj).ctx.trans (getCtx_received j)⟩
  have hctx := getCtx_received (s := s) (n := n) (d := d) i
  rw [← hctx] at hrel hwait hdcur
  rw [getCtx_satisfy hrel hwait hdcur, hctx]

/-- A START at the context that it names. -/
theorem exec_depStart (h : ForEngine s n 1 d i x) (hrel : relFor (getCtx s d i) x.tok.sample = true)
    (hsoft : softEdges s d (getCtx s d i) = true) (hwait : (getCtx s d i).state = .waiting) (hdcur : 0 < (getCtx s d i).dcur) :
    ∃ u, exec (.depStart n) s = .next u ∧ getCtx u d i = { getCtx s d i with
      dcur := (getCtx s d i).dcur - 1, pcur := (getCtx s d i).pcur + 1,
      state := if (getCtx s d i).dcur = 1 then .ready else .waiting } := by
  refine ⟨_, exec_inTick rfl h hd (depApply_start h.context h.tag) (awaits_depStart ..), ?_⟩
  have hctx := getCtx_received (s := s) (n := n) (d := d) i
  rw [← softEdges_received (n := n), ← hctx] at hsoft
  rw [← hctx] at hrel hwait hdcur
  rw [getCtx_depStart hrel hwait hdcur hsoft, hctx]

/-- The last COMMIT at the context that it names. -/
theorem exec_depCommit (h : ForEngine s n 2 d i x) (hrel : relFor (getCtx s d i) x.tok.sample = true)
    (hsoft : softEdges s d (getCtx s d i) = true) (hpcur : (getCtx s d i).pcur = 1) (hended : (getCtx s d i).state = .ended) :
    ∃ u, exec (.depCommit n) s = .next u ∧ getCtx u d i = { getCtx s d i with pcur := 0, state := .committed } := by
  refine ⟨_, exec_inTick rfl h hd (depApply_commit h.context h.tag) (awaits_depCommit ..), ?_⟩
  have hctx := getCtx_received (s := s) (n := n) (d := d) i
  rw [← softEdges_received (n := n), ← hctx] at hsoft
  rw [← hctx] at hrel hpcur hended
  rw [getCtx_depCommit hd hrel hsoft hpcur hended, hctx]

/-- A DISCARD at the context that it names, which waits. -/
theorem exec_depDiscard (h : ForEngine s n 3 d i x) (hrel : relFor (getCtx s d i) x.tok.sample = true)
    (hsoft : softEdges s d (getCtx s d i) = true) (hwait : (getCtx s d i).state = .waiting) :
    ∃ u, exec (.depDiscard n) s = .next u ∧ getCtx u d i =
      { getCtx s d i with dcur := (getCtx s d i).dcur + (getCtx s d i).pcur, pcur := 0, state := .waiting, hard := true } := by
  refine ⟨_, exec_inTick rfl h hd (depApply_discard h.context h.tag) (awaits_depDiscard ..), ?_⟩
  have hctx := getCtx_received (s := s) (n := n) (d := d) i
  rw [← softEdges_received (n := n), ← hctx] at hsoft
  rw [← hctx] at hrel hwait
  rw [depDiscard_waiting 8191 hrel hsoft hwait, getCtx_setCtx, hctx]

/-- A FAULT at a context of its sample that waits, or is ready with its list in the successor cache. -/
theorem exec_depFault (h : ForDie s n 4 d x) (hearly : depEarly s d x.tok = false) (hfault : x.tok.dcount.testBit 0 = false)
    (hlists : ∀ j, (getCtx s d j).state = .ready → ∃ es, CachedList s d j es) : ∃ u, exec (.depFault n) s = .next u ∧
    ∀ j, j ∈ (getDie s d).ctxs.map (·.1) → relFor (getCtx s d j) x.tok.sample = true → (getCtx s d j).cls < 2 →
      (getCtx s d j).state = .waiting ∨ (getCtx s d j).state = .ready → (getCtx u d j).state = .discarded := by
  refine ⟨_, exec_dep rfl h hd hearly (depApply_fault h.tag) (awaits_depFault ..), fun j hj hrel hcls hopen => ?_⟩
  have hcondemned : Condemned d j x.tok.sample True s :=
    ⟨hrel, hcls, .inr ⟨trivial, hopen.imp_right fun hready => ⟨hready, hlists j hready⟩⟩⟩
  have hend := Condemned.depFault hd hfault (by rwa [depReceived, getDie_bump, getDie_netTake])
    (hcondemned.of_spares (spares_received (n := n) j))
  exact hend.state.resolve_right And.left

/-- A satisfaction of a tick that the die has not begun. -/
theorem exec_depSatisfy_early (h : ForDie s n 0 d x) (hearly : depEarly s d x.tok = true) (hroom : (getDie s d).early.length < 64) :
    ∃ u, exec (.depSatisfy n) s = .next u ∧ (getDie u d).early = (getDie s d).early ++ [x.tok] ∧ u.net = ldel s.net n := by
  refine ⟨_, exec_of_awaits (congrArg (answer s) (depArrive_early h hd hearly hroom)) ?_, ?_, ?_⟩
  · rw [awaits_setDie, awaits_netTake]
  · rw [getDie_setDie]
  · rw [setDie_net, netTake]

end

/-- Settles O22: a token is applied to its context or held for its tick, and the deadline and SUBMIT are taken as their conditions say. -/
theorem dependenceAndDeadlines : Obligations.DependenceAndDeadlines := by
  unfold Obligations.DependenceAndDeadlines
  refine ⟨?_, ?_, ?_⟩
  · intro s n d i x hd c m
    refine ⟨fun h hrel hwait hdcur => ?_, fun h hrel hsoft hwait hdcur => ?_, fun h hrel hsoft hpcur hended => ?_,
      fun h hrel hsoft hwait => ?_, fun h htag hcore hdie hepoch hearly hfault _ hlists =>
        exec_depFault hd ⟨h, htag, hcore, hdie, hepoch⟩ hearly hfault hlists,
      fun h htag hcore hdie hepoch => exec_depSatisfy_early hd ⟨h, htag, hcore, hdie, hepoch⟩⟩
    · obtain ⟨u, hnext, hctx, hothers⟩ := exec_depSatisfy hd h hrel hwait hdcur
      exact ⟨u, hnext, congrArg Ctx.dcur hctx, congrArg Ctx.state hctx, hothers⟩
    · obtain ⟨u, hnext, hctx⟩ := exec_depStart hd h hrel hsoft hwait hdcur
      exact ⟨u, hnext, congrArg Ctx.dcur hctx, congrArg Ctx.pcur hctx, congrArg Ctx.state hctx⟩
    · obtain ⟨u, hnext, hctx⟩ := exec_depCommit hd h hrel hsoft hpcur hended
      exact ⟨u, hnext, congrArg Ctx.pcur hctx, congrArg Ctx.state hctx⟩
    · obtain ⟨u, hnext, hctx⟩ := exec_depDiscard hd h hrel hsoft hwait
      exact ⟨u, hnext, congrArg Ctx.dcur hctx, congrArg Ctx.pcur hctx, congrArg Ctx.hard hctx⟩
  · intro s d i c hreleased hfirst hstate
    exact ⟨_, exec_of_awaits (congrArg (answer s) (execDeadlineMiss_misses hreleased hfirst hstate)) awaits_missNoted, rd_missNoted_count,
      rd_missNoted_task, getCtx_missNoted _, (congrArg (answer _) (execDeadlineMiss_noted missed_missNoted)).trans (answer_self _)⟩
  · intro s fn d tag h hen first n hsome hin hidle
    refine ⟨_, (congrArg (answer s) (execSubmit_taken tag.toNat h hen hsome hin hidle)).trans (answer_eq ?_), ?_, ?_⟩
    · rw [endCmd_pending, submitted, setDie_pending]
    · rw [getDie_endCmd, submitted, getDie_setDie]
    · rw [rd_endCmd_code (by decide), Nat.zero_add]

end Sys2Proof.Proofs
end
